-- ==== Sys2Proof/Word.lean ====
section
/-! DEFINITION. The words the manual computes with (spec/00_scope.md R4): bytes, 32-bit registers, 64-bit line times and cycle numbers. -/

namespace Sys2Proof

/-- One byte of a store or a frame. -/
abbrev Byte := BitVec 8

/-- A 32-bit register of the device register space. -/
abbrev Word := BitVec 32

/-- A 64-bit quantity: line time, cycle number, serial number. -/
abbrev DWord := BitVec 64

end Sys2Proof
end

