-- ==== Sys2Proof/Syntax.lean ====
section
/-! DEFINITION. The commands the module takes: one constructor for each row of spec/opcode_table.json, with the operands that the rows' rules name. -/

namespace Sys2Proof

/-- A press pair PP0 … PP33 or a scalar pair SC0 … SC15, and the context on it (spec/04_judin_model.md R121). -/
inductive Cx where
  | press (k : Fin 34)
  | scalar (j : Fin 16)
  deriving DecidableEq, Repr

/-- The byte accumulators A and B. -/
inductive R8 where
  | a | b
  deriving DecidableEq, Repr

/-- The index registers X and Y. -/
inductive R16 where
  | x | y
  deriving DecidableEq, Repr

/-- The registers of LD, ST, PUSH and POP (spec/05_judin_reference.md R166). -/
inductive Rg where
  | a | b | x | y | f
  deriving DecidableEq, Repr

/-- The registers of LDI r, #i8. -/
inductive RI where
  | a | b | f
  deriving DecidableEq, Repr

/-- The registers of TFR (R166). -/
inductive RT where
  | a | b | x | y | f | dp | xh | yh
  deriving DecidableEq, Repr

/-- Format M memory operands (R142, R164); the scale k is 2 to the power `sc`. -/
inductive MOp where
  | abs (w : BitVec 16)
  | ind (base : R16)
  | postInc (base : R16)
  | preDec (base : R16)
  | disp (base : R16) (d : BitVec 16)
  | index (base : R16) (ix : R8) (sc : BitVec 2)
  | table (d : BitVec 16) (ix : R8) (sc : BitVec 2)
  deriving DecidableEq, Repr

/-- Format B memory operands. -/
inductive BOp where
  | abs (w : BitVec 16)
  | ind (base : R16)
  | disp (base : R16) (d : BitVec 16)
  | indexA (base : R16)
  deriving DecidableEq, Repr

/-- The bit operand of the bit instructions (R176): a bit of a byte in memory, or of A or B. -/
inductive BitArg where
  | mem (o : BOp) (bit : BitVec 3)
  | reg (r : R8) (bit : BitVec 3)
  deriving DecidableEq, Repr

/-- Format R record operands. -/
inductive ROp where
  | abs (w : BitVec 16)
  | ind (base : R16)
  | disp (base : R16) (d : BitVec 16)
  deriving DecidableEq, Repr

/-- The source of a two-operand byte instruction (R172). -/
inductive Src8 where
  | mem (o : MOp)
  | imm (i : BitVec 8)
  deriving DecidableEq, Repr

/-- The source of ADDW and SUBW (R174): immediate, A, B, the other index register, memory. -/
inductive SrcW where
  | imm (i : BitVec 16)
  | a | b | other
  | mem (o : MOp)
  deriving DecidableEq, Repr

/-- The source of CMPW (R174). -/
inductive SrcC where
  | imm (i : BitVec 16)
  | other
  | mem (o : MOp)
  deriving DecidableEq, Repr

/-- The source of CPCW (R174). -/
inductive SrcP where
  | imm (i : BitVec 16)
  | mem (o : MOp)
  deriving DecidableEq, Repr

/-- The conditions of R167, in the order of their codes 0 … 15. -/
inductive CC where
  | eq | ne | hs | lo | mi | pl | vs | vc | hi | ls | ge | lt | gt | le | l1 | l0
  deriving DecidableEq, Repr

/-- Fabric responses (spec/03_partitions_fabric.md R117). -/
inductive Resp where
  | ok | void | islandReset | denied | decerr | parity
  deriving DecidableEq, Repr

/-- The fields of a request's tag (spec/03_partitions_fabric.md R108): tag number, rule epoch, tag epoch. -/
structure TagFields where
  tag : Fin 512
  rule : Fin 16
  epoch : Fin 8
  deriving DecidableEq, Repr

/-- Which fabric request completes: one in flight, by its tag; a read by a context's current instruction, with the lanes whose access
failed, its lane address and its BAR0 address; a frame load; a request of another initiator (R109), with its master. -/
inductive FabDone where
  | write (tag : Nat)
  | read (c : Cx) (t : TagFields) (lanes : BitVec 256) (laneAddr bar : Nat)
  | frame (k : Fin 34) (i : Fin 2) (bar : Nat)
  | other (initiator : Nat) (t : TagFields) (master : Nat) (write : Bool) (addr : Nat)
  deriving DecidableEq, Repr

/-- Which request has waited: one in flight, by its tag, or one of an initiator whose transfers the model makes in one command. -/
inductive AgedReq where
  | held (tag : Nat)
  | passing (initiator : Nat)
  deriving DecidableEq, Repr

/-- A write of the host to a function's PCIe state: an MSI-X table entry with its mask, the function's MSI-X enable and function
mask, or (of the PF) how many VFs exist: NumVFs under VF Enable = 1, else 0. -/
inductive MsixWr where
  | entry (v addr data : Nat) (masked : Bool)
  | control (enable fmask : Bool)
  | sriov (vfs : Nat)
  deriving DecidableEq, Repr

/-- Header of a PTP message (spec/16_engineering_time.md R498): domain, source port identity, sequence number, logMessageInterval,
correction in 2^−16 ns, and whether the message is one that the module handles. -/
structure PtpHdr where
  domain : Nat
  src : Nat
  seq : Nat
  interval : Int
  corr : Int
  ok : Bool
  deriving DecidableEq, Repr

/-- Content of an Announce: priority1, clockClass, clockAccuracy, offsetScaledLogVariance, priority2, grandmasterIdentity, stepsRemoved,
currentUtcOffset, and the flags currentUtcOffsetValid, leap61, leap59. -/
structure PtpAnn where
  prio1 : Nat
  cls : Nat
  acc : Nat
  var : Nat
  prio2 : Nat
  gm : Nat
  steps : Nat
  utc : BitVec 16
  utcValid : Bool
  leap61 : Bool
  leap59 : Bool
  deriving DecidableEq, Repr

/-- Where a step command comes from (spec/07_step_sequencer.md R249): a program's context, or the host. -/
inductive CmdSrc where
  | prog | host
  deriving DecidableEq, Repr

/-- The header fields of a received Trellis frame after the early checks (spec/10_trellis_link.md R307). -/
structure TrHdr where
  gen : Nat
  cycle : Nat
  lt : Nat
  row : Nat
  src : Nat
  flags : Nat
  len : Nat
  port : Nat
  deriving DecidableEq, Repr

/-- The early checks of R311 that a field frame can fail, in their order. -/
inductive FieldBad where
  | macErr | aborted | other | hcrc | version | kind | rsv | dir
  deriving DecidableEq, Repr

/-- What a comparator registers (spec/12_twin_presses.md, PRESS_TWIN_MISMATCH): item group, lowest differing bit, lowest lane, and
the lanes whose items differ. -/
structure TwinDiff where
  group : Nat := 0
  bit : Nat := 0
  lane : Nat := 0
  lanes : BitVec 256 := 0
  deriving DecidableEq, Repr

/-- A difference between the items of the two copies (spec/12_twin_presses.md R377): a compared bit, counted as in R388 (0 … 99 a lane's,
from 100 on the pair's), and for a lane's bit the lanes in which it differs. -/
structure TwinFlip where
  bit : Nat
  lanes : BitVec 256 := 0
  deriving DecidableEq, Repr

/-- What a pattern of the injection test gave (spec/12_twin_presses.md R388): the mismatch registered, if any, after how many clocks, and whether the
scheduler and the fabric saw the fence signal. -/
structure TwinSeen where
  diff : Option TwinDiff := none
  clocks : Nat := 0
  fence : Bool := false
  deriving DecidableEq, Repr

/-- What a start finds (spec/19_management.md R556, spec/12_twin_presses.md R387 … R389): MODE_SEL as sampled, the step 2 … 4 whose
component does not load, and what patterns of the injection test gave on the press and scalar pairs (index and result; a pattern not listed
gave its expected result). -/
structure StartFacts where
  modeSel : Fin 4 := 0
  loadFail : Option (Fin 3) := none
  press : List (Fin 34 × List (Nat × TwinSeen)) := []
  scalar : List (Fin 16 × List (Nat × TwinSeen)) := []
  deriving DecidableEq, Repr

/-- The clocks of the clock monitor (spec/20_reset_watchdog_cask.md R595). -/
inductive Clk where
  | tcxo | main | mgt
  deriving DecidableEq, Repr

/-- The header fields of a valid racking frame (spec/14_racking_standby.md R424). -/
structure RackHdr where
  gen : Nat
  cycle : Nat
  lt : Nat
  seq : Nat
  lane : Fin 4
  role : Fin 3
  deriving DecidableEq, Repr

/-- A racking HELLO (R427); `dies` holds the twelve bytes of each of the two die identities. -/
structure RackHello where
  serial : Nat
  slot : Bool
  peerIn : Bool
  activeOut : Bool
  bcNs : Nat
  cycle : Nat
  sync : Fin 5
  stepping : Nat
  fwRev : Nat
  dies : List (List Byte)
  deriving DecidableEq, Repr

/-- A racking BEAT (R427). -/
structure RackBeat where
  slot : Bool
  peerIn : Bool
  activeOut : Bool
  sync : Fin 5
  yield : Bool
  swapAt : Bool
  run : Bool
  epoch : BitVec 16
  oack : BitVec 32
  w : BitVec 32
  ltRx : Nat
  rxAt : Nat
  deriving DecidableEq, Repr

/-- What a CODE frame carries (spec/13_graft.md R397, R398, R412): a version (the six header words of R397, code, constants, maps, and a
recipe's step range and limit sets), C or C′, or a rollback notice. -/
inductive RackCode where
  | version (n : Fin 256) (hdr : List Nat) (code consts maps range lims : List Byte)
  | commit (n : Fin 256) (c : Nat)
  | rollback (n : Fin 256)
  deriving DecidableEq, Repr

/-- A changed channel of a STEPEV frame (R432): stamp, step state, V and I. -/
structure StepEv where
  ch : Fin 131072
  stamp : Nat
  step : List Byte
  v : Int
  i : Int
  deriving DecidableEq, Repr

/-- A SWEEP record (R434): a row with its stamps, 256 step states, 256 output records, V and I of 256 channels, the channel
variables of each lane from 0x0150, and its shared area where it has one; or bytes of a partition's data. -/
inductive SweepRec where
  | row (r : Fin 512) (c w : Nat) (steps outs vi : List Byte) (vars : List (List Byte)) (shared : List Byte)
  | data (addr : Nat) (bytes : List Byte)
  deriving DecidableEq, Repr

/-- What RELAY carries (spec/10_trellis_link.md R338 … R341): a harvest of a far row, a frame for the far segment, the active's confirmation
of a break with the first far position and its cycle, or the medians of a position, of the line end where `k` is 16: DN_LINK, CORR_UP and
CORR_DN in 2^−16 ns. -/
inductive RelayMsg where
  | harvest (p : Fin 32) (h : TrHdr) (pay : List Byte)
  | frame (p : Fin 32) (kind : Nat) (bytes : List Byte)
  | confirm (p : Fin 32) (first : Fin 16) (cycle : Nat)
  | median (p : Fin 32) (k : Fin 17) (dn up down : Int)
  deriving DecidableEq, Repr

/-- The checks of R425 that a racking frame can fail, in their order. -/
inductive RackBad where
  | mac | ethertype | hcrc | version | rkind | reserved | len
  deriving DecidableEq, Repr


/-- A CAN frame as received (spec/17_service_bus.md R525): identifier, formats, flags, DLC, data bytes, and the line time of its
start-of-frame bit. -/
structure CanFrame where
  xtd : Bool
  rtr : Bool
  id : BitVec 29
  fdf : Bool
  brs : Bool
  esi : Bool
  dlc : Fin 16
  data : List Byte
  sof : Nat
  deriving DecidableEq, Repr

/-- CAN_ERR.LEC codes 1 … 6 (spec/17_service_bus.md). -/
inductive CanLec where
  | stuff | form | ack | bitRecessive | bitDominant | crc
  deriving DecidableEq, Repr

/-- What the fault-confinement rules of ISO 11898-1 make of an error: a detected error with its error flag; a bit error in an active
error or overload flag, or dominant bits after a flag (8 either way); one of the transmitter's exceptions, which counts nothing. -/
inductive CanWhy where
  | flag | dominant | exempt
  deriving DecidableEq, Repr

/-- An engineering request as it arrives on UDP port 4740 (spec/16_engineering_time.md R480): the client's address and port, the header
fields of the message other than CMD, and the payload. -/
structure EngReq where
  ip : Nat
  port : Nat
  magic : Nat := 0xE51A
  version : Nat := 1
  flags : Nat := 0
  seq : Nat
  status : Nat := 0
  detail : Nat := 0
  len : Nat
  zero : Nat := 0
  crc : Nat
  payload : List Byte
  deriving DecidableEq, Repr

/-- What ENG_FRAME_DISCARD arrives with: a frame that the port does not handle (R477), a datagram to port 4740 shorter than 20 bytes, or
one with the CMD of no command. -/
inductive EngBad where
  | frame
  | short
  | request (cmd : Nat) (e : EngReq)
  deriving DecidableEq, Repr
/-- The commands. -/
inductive Instr where
  /-- CYCLE_BOUNDARY (R57): At each T(n) the module applies its pending changes in the fixed order of the cycle-boundary table. -/
  | cycleBoundary
  /-- LIO_MAP_OUT_DONE (R547): The output word read completes, and image-sourced points take its bits or their safe values. -/
  | lioMapOutDone (r : Resp)
  /-- HARVEST_FRAME (R313): A HARVEST frame is checked and its records are written to the input buffer. -/
  | harvestFrame (p : Fin 32) (h : TrHdr) (pay : List Byte)
  /-- ROW_RIPE (R49): The last input record of a row is converted and written, and the row ripens. -/
  | rowRipe (r : Fin 512)
  /-- TASTE_ESTIMATE (R277): A taste stores its deviations, and an estimate is staged or rejected. -/
  | tasteEstimate (ch : Fin 131072)
  /-- LATEST_RIPE (R50): A row that is unripe at its latest-ripe instant takes SKIPPED_NO_HARVEST. -/
  | latestRipe (r : Fin 512)
  /-- STEP_PASS (R241): The step sequencer runs the step pass over the 256 channels of a ripe row. -/
  | stepPass (r : Fin 512)
  /-- PLACEMENT_DECISION (R63): A free frame is loaded with the best-ranked ready row. -/
  | placementDecision
  /-- FRAME_LOAD_DONE (R53): A row's 36 KB frame load completes, with migration applied when due. -/
  | frameLoadDone (k : Fin 34) (i : Fin 2)
  /-- EXECUTION_START (R121): A lane context starts at entry word 0 on a pair, with its registers reset. -/
  | executionStart (k : Fin 34)
  /-- SCALAR_START (R645): A free scalar pair starts the waiting context of lowest partition number. -/
  | scalarStart (j : Fin 16)
  /-- WRITE_BACK (R54): After END the output records and written variables are written back and commands are handed over. -/
  | writeBack (k : Fin 34)
  /-- POUR_CUTOFF (R54): A row's cut-off passes while its program has not ended. -/
  | pourCutoff (r : Fin 512)
  /-- POUR_WINDOW (R48): The pour window opens and POUR frames go out in their slots. -/
  | pourWindow (p : Fin 32) (k : Fin 16)
  /-- CONTROL_PERIOD (R323): The control period opens and the control frames go out in order. -/
  | controlPeriod (p : Fin 32)
  /-- HELLO_RESP (R317): A board's HELLO RESP is stored, and the position moves to FOUND or MISMATCH. -/
  | helloResp (p : Fin 32) (h : TrHdr) (pay : List Byte)
  /-- DELAY_RESP (R329): A DELAY RESP gives a link measurement, which is accepted or rejected. -/
  | delayResp (p : Fin 32) (h : TrHdr) (pay : List Byte) (t4 : Nat)
  /-- DELAY_REQ_LINE_END (R329): A standby answers a DELAY REQ with target 0xFE as the line end. -/
  | delayReqLineEnd (p : Fin 32) (h : TrHdr) (pay : List Byte)
  /-- MGMT_RESP (R319): An MGMT RESP is held in TRL_MGMT_RXBUF, or discarded as an overrun. -/
  | mgmtResp (p : Fin 32) (h : TrHdr) (pay : List Byte)
  /-- DISCOVERY_ROUND_MISS (R327): A position that misses three discovery rounds becomes ABSENT. -/
  | discoveryRoundMiss (p : Fin 32) (k : Fin 16)
  /-- LINK_UP (R326): A port's link comes up and frames flow. -/
  | linkUp (p : Fin 32)
  /-- LINK_LOSS (R326): A port loses PCS or marker lock, or has too many FEC errors, and retrains. -/
  | linkLoss (p : Fin 32) (corr uncorr : Nat)
  /-- TRAINING_TIMEOUT (R326): A training attempt that has not ended after 500 ms starts again. -/
  | trainingTimeout (p : Fin 32)
  /-- PORT_RESET_END (R326): A reset port returns to TRAINING within 10 µs. -/
  | portResetEnd (p : Fin 32)
  /-- TRL_PORT_HELLO (R328): Writing HELLO sends a HELLO REQ in the next control period. -/
  | trlPortHello (m : Nat) (p : Fin 32) (v : Word)
  /-- TRL_PORT_DELAY (R329): Writing DELAY starts a delay round. -/
  | trlPortDelay (m : Nat) (p : Fin 32) (v : Word)
  /-- TRL_PORT_RETRAIN (R326): Writing RETRAIN retrains the port's link. -/
  | trlPortRetrain (m : Nat) (p : Fin 32) (v : Word)
  /-- TRL_PORT_RESET (R342): Writing RESET resets the port. -/
  | trlPortReset (m : Nat) (p : Fin 32) (v : Word)
  /-- TRL_SCHED_COMMIT (R325): Software requests a commit of a port's pending schedule table. -/
  | trlSchedCommit (m : Nat) (v : Word)
  /-- TRL_MGMT_TX_GO (R319): Writing GO queues an MGMT request from TRL_MGMT_TXBUF. -/
  | trlMgmtTxGo (m : Nat) (p : Fin 32) (v : Word)
  /-- TRL_MGMT_RX_RELEASE (R319): Writing 1 to VALID releases the held MGMT response. -/
  | trlMgmtRxRelease (m : Nat) (p : Fin 32) (v : Word)
  /-- SYNC_MISSED (R338): A standby misses an expected SYNC on a port, and may report a break. -/
  | syncMissed (p : Fin 32)
  /-- SPLIT_LEAVE (R341): Split-line operation ends and the boards take the N side as master from T(q+1). -/
  | splitLeave (p : Fin 32)
  /-- REFLEX_DECODE (R372): A trigger is matched against the reflex table and TRIP frames are sent. -/
  | reflexDecode (cut : BitVec 32)
  /-- TWIN_MISMATCH (R382): The comparator of a press pair registers a mismatch and the pair is fenced. -/
  | twinMismatch (k : Fin 34) (m : List TwinFlip)
  /-- SCALAR_MISMATCH (R386): A scalar pair diverges, the ports stop and the module resets with cause TWIN_SCALAR. -/
  | scalarMismatch (j : Fin 16) (m : List TwinFlip)
  /-- PRESS_TWIN_PROOF (R390): Writing PROOF runs the injection test on a spare. -/
  | pressTwinProof (m : Nat) (k : Fin 34) (v : Word)
  /-- PROOF_DONE (R390): A spare's proof ends, and the spare returns to SPARE or is fenced. Pattern `pats[i]` gave `gave[i]`; a pattern not
  listed gave its expected result. -/
  | proofDone (k : Fin 34) (pats : List Nat) (gave : List TwinSeen)
  /-- PRESS_TWIN_FENCE (R382): Writing FENCE fences the pair with cause FORCED. -/
  | pressTwinFence (m : Nat) (k : Fin 34) (v : Word)
  /-- LD (R170): Loads a register from memory. -/
  | jLd (c : Cx) (r : Rg) (o : MOp)
  /-- ST (R170): Stores a register to memory. -/
  | jSt (c : Cx) (r : Rg) (o : MOp)
  /-- LEA (R170): Loads an effective address into X or Y. -/
  | jLea (c : Cx) (r : R16) (o : MOp)
  /-- LDI_I8 (R170): Loads an 8-bit immediate into A, B or F. -/
  | jLdiI8 (c : Cx) (r : RI) (i : BitVec 8)
  /-- LDI_I16 (R170): Loads a 16-bit immediate into X or Y. -/
  | jLdiI16 (c : Cx) (r : R16) (i : BitVec 16)
  /-- TFR (R171): Transfers between registers. -/
  | jTfr (c : Cx) (src dst : RT)
  /-- MULU (R170): Unsigned multiply of A by B into X. -/
  | jMulu (c : Cx)
  /-- MULS (R170): Signed multiply of A by B into X. -/
  | jMuls (c : Cx)
  /-- ADD (R172): Byte add. -/
  | jAdd (c : Cx) (r : R8) (src : Src8)
  /-- ADC (R172): Byte add with carry. -/
  | jAdc (c : Cx) (r : R8) (src : Src8)
  /-- SUB (R172): Byte subtract. -/
  | jSub (c : Cx) (r : R8) (src : Src8)
  /-- SBC (R172): Byte subtract with borrow, with sticky Z. -/
  | jSbc (c : Cx) (r : R8) (src : Src8)
  /-- AND (R172): Byte AND. -/
  | jAnd (c : Cx) (r : R8) (src : Src8)
  /-- OR (R172): Byte OR. -/
  | jOr (c : Cx) (r : R8) (src : Src8)
  /-- XOR (R172): Byte XOR. -/
  | jXor (c : Cx) (r : R8) (src : Src8)
  /-- CMP (R172): Byte compare. -/
  | jCmp (c : Cx) (r : R8) (src : Src8)
  /-- CPC (R172): Byte compare with carry, with sticky Z. -/
  | jCpc (c : Cx) (r : R8) (src : Src8)
  /-- BIT (R172): Byte AND test that discards the result. -/
  | jBit (c : Cx) (r : R8) (o : MOp)
  /-- INC (R173): Increments A or B. -/
  | jInc (c : Cx) (r : R8)
  /-- DEC (R173): Decrements A or B. -/
  | jDec (c : Cx) (r : R8)
  /-- NEG (R173): Negates A or B. -/
  | jNeg (c : Cx) (r : R8)
  /-- NOT (R173): Inverts A or B. -/
  | jNot (c : Cx) (r : R8)
  /-- SHL (R173): Shifts A or B left. -/
  | jShl (c : Cx) (r : R8)
  /-- SHR (R173): Shifts A or B right, logically. -/
  | jShr (c : Cx) (r : R8)
  /-- ASR (R173): Shifts A or B right, arithmetically. -/
  | jAsr (c : Cx) (r : R8)
  /-- ROL (R173): Rotates A or B left through C. -/
  | jRol (c : Cx) (r : R8)
  /-- ROR (R173): Rotates A or B right through C. -/
  | jRor (c : Cx) (r : R8)
  /-- CLR (R173): Clears A or B. -/
  | jClr (c : Cx) (r : R8)
  /-- TST (R173): Sets flags from A or B. -/
  | jTst (c : Cx) (r : R8)
  /-- ADDW (R174): Word add to X or Y. -/
  | jAddw (c : Cx) (r : R16) (src : SrcW)
  /-- SUBW (R174): Word subtract from X or Y. -/
  | jSubw (c : Cx) (r : R16) (src : SrcW)
  /-- CMPW (R174): Word compare. -/
  | jCmpw (c : Cx) (r : R16) (src : SrcC)
  /-- CPCW (R174): Word compare with carry, with sticky Z. -/
  | jCpcw (c : Cx) (r : R16) (src : SrcP)
  /-- ADCW (R174): Word add with carry. -/
  | jAdcw (c : Cx) (r : R16) (i : BitVec 16)
  /-- SBCW (R174): Word subtract with borrow. -/
  | jSbcw (c : Cx) (r : R16) (i : BitVec 16)
  /-- ADDWS (R174): Adds A, sign-extended, to X or Y. -/
  | jAddws (c : Cx) (r : R16)
  /-- LCC (R175): Sets L from a condition. -/
  | jLcc (c : Cx) (cc : CC)
  /-- LCC_AND (R175): ANDs a condition into L. -/
  | jLccAnd (c : Cx) (cc : CC)
  /-- LCC_OR (R175): ORs a condition into L. -/
  | jLccOr (c : Cx) (cc : CC)
  /-- LDB (R176): L takes a bit. -/
  | jLdb (c : Cx) (o : BitArg)
  /-- LDBN (R176): L takes an inverted bit. -/
  | jLdbn (c : Cx) (o : BitArg)
  /-- ANDB (R176): ANDs a bit into L. -/
  | jAndb (c : Cx) (o : BitArg)
  /-- ANDBN (R176): ANDs an inverted bit into L. -/
  | jAndbn (c : Cx) (o : BitArg)
  /-- ORB (R176): ORs a bit into L. -/
  | jOrb (c : Cx) (o : BitArg)
  /-- ORBN (R176): ORs an inverted bit into L. -/
  | jOrbn (c : Cx) (o : BitArg)
  /-- XORB (R176): XORs a bit into L. -/
  | jXorb (c : Cx) (o : BitArg)
  /-- XORBN (R176): XORs an inverted bit into L. -/
  | jXorbn (c : Cx) (o : BitArg)
  /-- OUT (R177): Writes L to a bit. -/
  | jOut (c : Cx) (o : BitArg)
  /-- OUTN (R177): Writes not L to a bit. -/
  | jOutn (c : Cx) (o : BitArg)
  /-- SETB (R177): Sets a bit where L is 1. -/
  | jSetb (c : Cx) (o : BitArg)
  /-- RSTB (R177): Clears a bit where L is 1. -/
  | jRstb (c : Cx) (o : BitArg)
  /-- TGLB (R177): Toggles a bit where L is 1. -/
  | jTglb (c : Cx) (o : BitArg)
  /-- NOTL (R186): Inverts L. -/
  | jNotl (c : Cx)
  /-- SETL (R186): Sets L to 1. -/
  | jSetl (c : Cx)
  /-- CLRL (R186): Sets L to 0. -/
  | jClrl (c : Cx)
  /-- BR (R179): Conditional relative branch, lane-tested. -/
  | jBr (c : Cx) (cc : CC) (d : BitVec 6)
  /-- BRL (R179): Conditional absolute branch, lane-tested. -/
  | jBrl (c : Cx) (cc : CC) (t : BitVec 16)
  /-- BANY (R131): Branches when any enabled lane has L = 1. -/
  | jBany (c : Cx) (d : BitVec 8)
  /-- BALL (R131): Branches when every enabled lane has L = 1. -/
  | jBall (c : Cx) (d : BitVec 8)
  /-- BNONE (R131): Branches when no enabled lane has L = 1. -/
  | jBnone (c : Cx) (d : BitVec 8)
  /-- BANYL (R179): Absolute form of BANY. -/
  | jBanyl (c : Cx) (t : BitVec 16)
  /-- BALLL (R179): Absolute form of BALL. -/
  | jBalll (c : Cx) (t : BitVec 16)
  /-- BNONEL (R179): Absolute form of BNONE. -/
  | jBnonel (c : Cx) (t : BitVec 16)
  /-- JMPS (R179): Short relative jump. -/
  | jJmps (c : Cx) (d : BitVec 10)
  /-- JMP (R179): Absolute jump. -/
  | jJmp (c : Cx) (t : BitVec 16)
  /-- JMPX (R180): Jumps to a uniform register value. -/
  | jJmpx (c : Cx) (r : R16)
  /-- CALL (R146): Pushes the return entry and jumps. -/
  | jCall (c : Cx) (t : BitVec 16)
  /-- CALLX (R180): Calls a uniform register value. -/
  | jCallx (c : Cx) (r : R16)
  /-- RET (R146): Pops the return stack into PC. -/
  | jRet (c : Cx)
  /-- RTE (R146): Pops an entry and restores PC, F and LM. -/
  | jRte (c : Cx)
  /-- PUSH (R181): Pushes a register onto the scalar data stack. -/
  | jPush (c : Cx) (r : Rg)
  /-- POP (R181): Pops a register from the scalar data stack. -/
  | jPop (c : Cx) (r : Rg)
  /-- TON (R183): On-delay timer on a record. -/
  | jTon (c : Cx) (base : BitVec 2) (o : ROp)
  /-- TOF (R183): Off-delay timer on a record. -/
  | jTof (c : Cx) (base : BitVec 2) (o : ROp)
  /-- TP (R183): Pulse timer on a record. -/
  | jTp (c : Cx) (base : BitVec 2) (o : ROp)
  /-- CTU (R185): Up counter on a record. -/
  | jCtu (c : Cx) (o : ROp)
  /-- CTD (R185): Down counter on a record. -/
  | jCtd (c : Cx) (o : ROp)
  /-- CRES (R185): Resets a counter where L is 1. -/
  | jCres (c : Cx) (o : ROp)
  /-- CLD (R185): Loads a counter's preset where L is 1. -/
  | jCld (c : Cx) (o : ROp)
  /-- REDGE (R185): Rising-edge detection on L. -/
  | jRedge (c : Cx) (o : ROp)
  /-- FEDGE (R185): Falling-edge detection on L. -/
  | jFedge (c : Cx) (o : ROp)
  /-- NOP (R186): Does nothing. -/
  | jNop (c : Cx)
  /-- END (R186): Waits until OUTSTANDING is 0, then ends the context. -/
  | jEnd (c : Cx)
  /-- FENCE (R155): Stalls until every posted write has completed. -/
  | jFence (c : Cx)
  /-- BRK (R186): Raises BREAK. -/
  | jBrk (c : Cx)
  /-- LMALL (R129): Enables every lane. -/
  | jLmall (c : Cx)
  /-- LMAND (R129): ANDs L into LM. -/
  | jLmand (c : Cx)
  /-- LMANDN (R129): ANDs not L into LM. -/
  | jLmandn (c : Cx)
  /-- LMOR (R129): ORs L into LM. -/
  | jLmor (c : Cx)
  /-- LMSAVE (R129): Saves LM to lane scratch in every lane. -/
  | jLmsave (c : Cx) (o : MOp)
  /-- LMLOAD (R129): Loads LM from lane scratch in every lane. -/
  | jLmload (c : Cx) (o : MOp)
  /-- SEV (R158): Raises an event source after the wait for comparison. -/
  | jSev (c : Cx) (e : BitVec 10)
  /-- WFE (R209): Consumes a pending bit, or waits for a raise. -/
  | jWfe (c : Cx) (e : BitVec 10)
  /-- WUNTIL (R209): Waits for a source or for a line-time deadline. -/
  | jWuntil (c : Cx) (e : BitVec 10)
  /-- GO_SEND (R187): Posts a message on a mailbox when GO is 0, and writes L. -/
  | jGoSend (c : Cx) (ch : BitVec 7)
  /-- GO_DONE (R187): Completes a mailbox message as receiver. -/
  | jGoDone (c : Cx) (ch : BitVec 7)
  /-- MREAD (R187): Reads a mailbox's message registers into each enabled lane. -/
  | jMread (c : Cx) (ch : BitVec 7)
  /-- TRIG (R186): Raises a software trigger of the reflex table. -/
  | jTrig (c : Cx) (t : BitVec 6)
  /-- UNDEFINED_OPCODE (R189): A context issues an instruction word in a reserved major opcode and ILLEGAL is raised. -/
  | undefinedOpcode (c : Cx) (w : BitVec 16)
  /-- INSTRUCTION_FETCH_FAULT (R161): A fetch lies beyond the code region or meets an uncorrectable program store error, and ADDR at fetch or CODE_ECC is taken. -/
  | instructionFetchFault (c : Cx) (ecc : Bool)
  /-- EXEC_TIMEOUT (R154): CLK_USED reaches one or two base cycles, and TIMEOUT or a double fault is taken. -/
  | execTimeout (k : Fin 34)
  /-- BUS_POSTED_WRITE (R151): A posted write fails, and BUS is taken at the next instruction boundary. -/
  | busPostedWrite (c : Cx) (addr : Nat) (lanes : BitVec 256)
  /-- FABRIC_REQUEST_COMPLETE (R117): A fabric request completes at its bank with a response, and its tag is freed. -/
  | fabricRequestComplete (d : FabDone) (r : Resp)
  /-- FABRIC_AGE_PROMOTION (R111): A request that has waited AGE clocks is promoted. -/
  | fabricAgePromotion (q : AgedReq)
  /-- MAILBOX_ROUND_TRIP_DONE (R188): The mailbox answer returns to a stalled GO.SEND or MREAD. -/
  | mailboxRoundTripDone (c : Cx) (r : Resp)
  /-- SCALAR_MIGRATION (R404): A scalar access to an unmigrated row migrates it in place, then proceeds. -/
  | scalarMigration (j : Fin 16)
  /-- SCALAR_COMMAND_HANDOVER (R646): A scalar command reaches the step sequencer after matching. -/
  | scalarCommandHandover (j : Fin 16)
  /-- CMD_NONE (R248): Step command NONE does nothing. -/
  | cmdNone (ch : Fin 131072) (src : CmdSrc) (arg8 : BitVec 8) (arg16 expect : BitVec 16)
  /-- CMD_START (R248): Ends any step and starts a transition to ARG16. -/
  | cmdStart (ch : Fin 131072) (src : CmdSrc) (arg8 : BitVec 8) (arg16 expect : BitVec 16)
  /-- CMD_GOTO (R248): Ends the step and moves to ARG16. -/
  | cmdGoto (ch : Fin 131072) (src : CmdSrc) (arg8 : BitVec 8) (arg16 expect : BitVec 16)
  /-- CMD_NEXT (R248): Ends the step and moves to the entry's NEXT. -/
  | cmdNext (ch : Fin 131072) (src : CmdSrc) (arg8 : BitVec 8) (arg16 expect : BitVec 16)
  /-- CMD_ALT (R248): Ends the step and moves to the entry's ALT. -/
  | cmdAlt (ch : Fin 131072) (src : CmdSrc) (arg8 : BitVec 8) (arg16 expect : BitVec 16)
  /-- CMD_END (R248): Ends the recipe with DONE and REST. -/
  | cmdEnd (ch : Fin 131072) (src : CmdSrc) (arg8 : BitVec 8) (arg16 expect : BitVec 16)
  /-- CMD_FAULT (R248): Ends the step with FAULT and REST. -/
  | cmdFault (ch : Fin 131072) (src : CmdSrc) (arg8 : BitVec 8) (arg16 expect : BitVec 16)
  /-- CMD_HOLD_STEP (R248): Holds a running step as HELD_BY_PROGRAM. -/
  | cmdHoldStep (ch : Fin 131072) (src : CmdSrc) (arg8 : BitVec 8) (arg16 expect : BitVec 16)
  /-- CMD_RELEASE (R248): Returns a held step to RUNNING. -/
  | cmdRelease (ch : Fin 131072) (src : CmdSrc) (arg8 : BitVec 8) (arg16 expect : BitVec 16)
  /-- CMD_SET_LOOP (R248): Sets LOOP to ARG8. -/
  | cmdSetLoop (ch : Fin 131072) (src : CmdSrc) (arg8 : BitVec 8) (arg16 expect : BitVec 16)
  /-- CMD_ZERO (R248): Clears CHARGE, ENERGY and their remainders. -/
  | cmdZero (ch : Fin 131072) (src : CmdSrc) (arg8 : BitVec 8) (arg16 expect : BitVec 16)
  /-- EVENT_RAISE (R207): The router serves a raise, counts it, sets pending bits or wakes, and routes it. -/
  | eventRaise (src : Fin 768)
  /-- CONTEXT_WAKE (R214): A waiting context resumes after a wake. -/
  | contextWake (c : Cx)
  /-- WUNTIL_DEADLINE (R209): A WUNTIL deadline is reached and the wait ends with 0x3FF. -/
  | wuntilDeadline (c : Cx)
  /-- EVT_SW_RAISE (R211): A write asserts a source at the router. -/
  | evtSwRaise (m : Nat) (v : Word)
  /-- ALARM_LT_MATCH (R218): A line-time comparator reaches its target and raises. -/
  | alarmLtMatch (a : Fin 64)
  /-- ALARM_SAMPLE_DONE (R219): A value comparator read completes and is evaluated. -/
  | alarmSampleDone (a : Fin 64) (r : Resp)
  /-- ALARM_TARGET_WRITE (R218): A write to EVT_ALM_B re-arms an enabled comparator. -/
  | alarmTargetWrite (m : Nat) (a : Fin 64) (v : Word)
  /-- GRANT_TABLE_WRITE (R104): An accepted window descriptor write advances the rule epoch. -/
  | grantTableWrite (m : Nat) (n : Fin 256) (w : Fin 4) (ctrl : Bool) (v : Word)
  /-- LOW_WORD_READ (R195): Reading a 64-bit low word latches the high word for that master. -/
  | lowWordRead (m off : Nat)
  /-- HIGH_WORD_WRITE (R196): A high-word write applies both words together. -/
  | highWordWrite (m off : Nat) (v : Word)
  /-- REGISTER_WRITE (R10): A write to a register with no row of its own is checked and applied. -/
  | registerWrite (m off : Nat) (bytes : List Byte)
  /-- CFG_REJECT_CLEAR (R13): Clearing CFG_REJECT also clears the recorded offset and source. -/
  | cfgRejectClear (m : Nat) (v : Word)
  /-- SYS_MODE_REQ_RUN (R79): Requests module RUN at the next boundary. -/
  | sysModeReqRun (m : Nat)
  /-- SYS_MODE_REQ_STOP (R87): Requests module STOP at the next boundary. -/
  | sysModeReqStop (m : Nat)
  /-- SYS_MODE_REQ_RECOVERY (R585): Restarts the module into RECOVERY. -/
  | sysModeReqRecovery (m : Nat)
  /-- PART_REQ_RUN (R86): Requests RUN for a partition at the next boundary. -/
  | partReqRun (m : Nat) (n : Fin 256)
  /-- PART_REQ_STOP (R86): Requests STOP for a partition at the next boundary. -/
  | partReqStop (m : Nat) (n : Fin 256)
  /-- PART_REQ_HOLD (R86): Requests HOLD for a partition at the next boundary. -/
  | partReqHold (m : Nat) (n : Fin 256)
  /-- STORE_WINDOW_WRITE (R641): A write to the program or table store gets fresh check bits, merging narrower writes. -/
  | storeWindowWrite (m off : Nat) (bytes : List Byte)
  /-- STORE_WINDOW_READ (R640): A store read returns corrected data, or fails on an uncorrectable word. -/
  | storeWindowRead (m off n : Nat)
  /-- IMAGE_WINDOW_WRITE (R452): A host write to the image window, checked against the writer's reach. -/
  | imageWindowWrite (m off : Nat) (bytes : List Byte)
  /-- SCHED_CNT_CLR (R197): Clears the module scheduler counters. -/
  | schedCntClr (m : Nat) (v : Word)
  /-- SCHED_P_CLR (R74): Clears a partition's counters and SLACK_MIN. -/
  | schedPClr (m : Nat) (n : Fin 256) (v : Word)
  /-- FAB_CNT_CLR (R197): Clears the fabric counters and the high-water mark. -/
  | fabCntClr (m : Nat) (v : Word)
  /-- PRESS_CNT_CLR (R197): Clears a pair's counters. -/
  | pressCntClr (m : Nat) (c : Cx) (v : Word)
  /-- PRESS_CMN_CLR (R197): Clears the module-wide exception counts. -/
  | pressCmnClr (m : Nat) (scalar : Bool) (v : Word)
  /-- EVT_CNT_CLR (R197): Clears the event counters. -/
  | evtCntClr (m : Nat) (v : Word)
  /-- STEP_CNT_CLR (R197): Clears the step sequencer counters. -/
  | stepCntClr (m : Nat) (v : Word)
  /-- CONV_CNT_CLR (R197): Clears the conversion counters. -/
  | convCntClr (m : Nat) (v : Word)
  /-- LEDG_CNT_CLR (R197): Clears the ledger counters. -/
  | ledgCntClr (m : Nat) (v : Word)
  /-- TRL_CNT_CLR (R197): Clears a port's counters. -/
  | trlCntClr (m : Nat) (p : Fin 32) (v : Word)
  /-- TRL_RFX_CLR (R197): Clears the reflex entry counters. -/
  | trlRfxClr (m : Nat) (v : Word)
  /-- RACK_CNT_CLR (R197): Clears the racking counters and the worst sweep. -/
  | rackCntClr (m : Nat) (v : Word)
  /-- TIME_CNT_CLR (R197): Clears the time counters. -/
  | timeCntClr (m : Nat) (v : Word)
  /-- CONV_EPOCH_REQ (R269): Starts copying the host staging area and requests an epoch switch. -/
  | convEpochReq (m : Nat) (v : Word)
  /-- STAGE_COPY_DONE (R269): The staging copy ends, and a switch is requested or REQ clears. -/
  | stageCopyDone
  /-- CONV_PERSIST_SAVE (R280): Starts a save of the coefficients to the cask. -/
  | convPersistSave (m : Nat) (v : Word)
  /-- PERIODIC_CAL_SAVE (R280): A save starts every PERIOD minutes in RUN. -/
  | periodicCalSave
  /-- CAL_SAVE_DONE (R280): A coefficient save ends with a result. -/
  | calSaveDone (rows : Nat)
  /-- CAL_RESTORE_DONE (R281): The start-up coefficient restore ends. -/
  | calRestoreDone
  /-- PART_GRF_ALLOC (R394): Requests the other version slot, all or nothing. -/
  | partGrfAlloc (m : Nat) (n : Fin 256) (v : Word)
  /-- GRF_ARM (R396): Moves a loading graft to CHECKING. -/
  | grfArm (m : Nat) (n : Fin 256) (v : Word)
  /-- GRAFT_CHECK_DONE (R396): The graft check ends, and the graft moves to RACKING or ARMED or back to LOADING. -/
  | graftCheckDone (n : Fin 256)
  /-- GRAFT_RACK_CONFIRM (R397): The standby confirms the graft, and C is fixed. -/
  | graftRackConfirm (n : Fin 256)
  /-- GRAFT_RACK_TIMEOUT (R397): No confirmation arrives within RACK_TMO, and the graft returns to LOADING. -/
  | graftRackTimeout (n : Fin 256)
  /-- GRF_ABORT (R414): Frees the other slot before C is fixed. -/
  | grfAbort (m : Nat) (n : Fin 256) (v : Word)
  /-- GRF_ROLLBACK (R412): Requests a revert during the window. -/
  | grfRollback (m : Nat) (n : Fin 256) (v : Word)
  /-- GRF_RELEASE (R413): Releases the previous version and starts the sweep. -/
  | grfRelease (m : Nat) (n : Fin 256) (v : Word)
  /-- GRF_GROUP_GO (R398): Fixes C for every grouped armed partition. -/
  | grfGroupGo (m : Nat) (v : Word)
  /-- ROLLBACK_WINDOW_END (R413): The rollback window expires, and the graft releases and sweeps. -/
  | rollbackWindowEnd (n : Fin 256)
  /-- GRAFT_SWEEP_DONE (R407): The sweep migrates the remaining rows, frees the map and returns to IDLE. -/
  | graftSweepDone (n : Fin 256)
  /-- RACK_HELLO (R427): A racking HELLO from the peer is taken. -/
  | rackHello (h : RackHdr) (m : RackHello)
  /-- RACK_BEAT (R427): A peer BEAT acknowledges ordered frames and drives the line-time servo. -/
  | rackBeat (h : RackHdr) (m : RackBeat)
  /-- RACK_CONFIG (R430): A standby applies a racked write. -/
  | rackConfig (h : RackHdr) (m addr : Nat) (bytes : List Byte) (cycle : Nat)
  /-- RACK_CODE (R397): A standby takes a graft version, commit cycle or notice. -/
  | rackCode (h : RackHdr) (m : RackCode)
  /-- RACK_STEPEV (R432): A standby takes the step states of changed channels. -/
  | rackStepev (h : RackHdr) (l : List StepEv)
  /-- RACK_COEF (R432): A standby takes changed coefficient entries. -/
  | rackCoef (h : RackHdr) (l : List (Fin 131072 × List Byte))
  /-- RACK_SWAP (R447): A standby takes a swap notice and acknowledges it. -/
  | rackSwap (h : RackHdr)
  /-- RACK_SWEEP (R434): A standby applies a sweep record when its stamps are newer. -/
  | rackSweep (h : RackHdr) (m : SweepRec)
  /-- RACK_RELAY (R340): A frame relayed in split-line operation is passed on. -/
  | rackRelay (h : RackHdr) (m : RelayMsg)
  /-- RACK_RESEND (R426): Unacknowledged ordered frames are resent after a lane loss or 4 cycles without progress. -/
  | rackResend
  /-- RACK_LANE_UP (R423): A racking lane comes up or goes down. -/
  | rackLaneUp (l : Fin 4) (up : Bool)
  /-- POUR_OBSERVED (R433): A standby takes set-points from a POUR frame it observes. -/
  | pourObserved (p : Fin 32) (h : TrHdr) (pay : List Byte)
  /-- FILL_DONE (R437): The first fill's sweep ends, and the standby is IN_SYNC. -/
  | fillDone
  /-- SWEEP_END (R435): A sweep ends and its period is recorded, raising SWEEP_LONG when too long. -/
  | sweepEnd (us : Nat)
  /-- BEAT_MISSED (R439): No valid BEAT has arrived by T(n) plus 2 µs, and the heartbeat may be lost. -/
  | beatMissed
  /-- PEER_ACTIVE_FALL (R440): PEER_ACTIVE_IN falls, and an IN_SYNC standby starts its settle. -/
  | peerActiveFall
  /-- PEER_ACTIVE_RISE (R417): PEER_ACTIVE_IN rises, and a SLOT_ID 1 module withdraws or is demoted. -/
  | peerActiveRise
  /-- SETTLE_END (R417): The settle time ends and ACTIVE_OUT is raised. -/
  | settleEnd
  /-- GATE_OPEN (R442): The field engine gate opens, and the module takes over with a new generation. -/
  | gateOpen
  /-- ROLE_DECISION (R419): The start decides ACTIVE, STANDBY or UNDECIDED. -/
  | roleDecision (slot : Bool)
  /-- DEMOTION (R421): An active module sees a newer or winning peer claim and stops. -/
  | demotion (gen : BitVec 16)
  /-- SWAP_YIELD (R447): At the end of the pour window of W, the active drops ACTIVE_OUT and yields. -/
  | swapYield
  /-- RACK_CMD_SWAP (R447): Requests a proof swap. -/
  | rackCmdSwap (m : Nat) (v : Word)
  /-- RACK_CMD_RESYNC (R438): Starts a first fill on a standby. -/
  | rackCmdResync (m : Nat) (v : Word)
  /-- RACK_GEN_SEED (R422): Sets TRL_GEN on an active module in STOP with no peer. -/
  | rackGenSeed (m : Nat) (v : Word)
  /-- POISONED_TLP (R450): A poisoned TLP is dropped and logged. -/
  | poisonedTlp (m : Nat) (write : Option Nat)
  /-- VF_FLR (R454): A VF's function level reset disables its queue and snapshot sets. -/
  | vfFlr (v : Fin 256)
  /-- PF_FLR (R454): A PF FLR, hot reset or link down resets every function's PCIe state. -/
  | pfFlr
  /-- PERST_N (R620): PERST_N acts as a link down on the PCIe island. -/
  | perstN (high : Bool)
  /-- LADLE_RESULT_WRITE (R460): The ladle writes a staged record, WIDX and any interrupt. -/
  | ladleResultWrite
  /-- RQ_TIMER (R463): The queue timer expires and an MSI-X message is sent. -/
  | rqTimer (q : Fin 257)
  /-- HOST_RQ_ENABLE (R459): Setting a queue's EN makes RIDX equal to WIDX. -/
  | hostRqEnable (m : Nat) (q : Fin 257) (v : Word)
  /-- HOST_RQ_RIDX (R464): Writing RIDX consumes result records. -/
  | hostRqRidx (m : Nat) (q : Fin 257) (v : Word)
  /-- HOST_SNAP_GO (R467): Requests a snapshot at the next boundary. -/
  | hostSnapGo (m : Nat) (k : Fin 16) (v : Word)
  /-- HOST_SNAP_RIDX (R469): Writing RIDX releases snapshot buffers. -/
  | hostSnapRidx (m : Nat) (k : Fin 16) (v : Word)
  /-- SNAPSHOT_ROW_CAPTURE (R468): A row is captured from its frame load or a fabric read, or retried. -/
  | snapshotRowCapture (k : Fin 16) (loaded valid : Bool)
  /-- SNAPSHOT_COMPLETE (R469): The trailer and valid header are written, and SNAPSHOT_DONE is raised. -/
  | snapshotComplete (k : Fin 16)
  /-- HOST_PWE_CLR (R456): Clears the posted-write error log. -/
  | hostPweClr (m : Nat) (v : Word)
  /-- HOST_CNT_CLR (R197): Clears the lost, retry and skip counts. -/
  | hostCntClr (m : Nat) (v : Word)
  /-- MBX_CMD_GO (R471): The sender posts a message. -/
  | mbxCmdGo (m : Nat) (c : Fin 128) (v : Word)
  /-- MBX_CMD_TAKE (R471): The receiver takes a message. -/
  | mbxCmdTake (m : Nat) (c : Fin 128) (v : Word)
  /-- MBX_CMD_DONE (R471): The receiver completes a message with a user code. -/
  | mbxCmdDone (m : Nat) (c : Fin 128) (v : Word)
  /-- MBX_CMD_WITHDRAW (R471): The sender withdraws a message. -/
  | mbxCmdWithdraw (m : Nat) (c : Fin 128) (v : Word)
  /-- MBX_MSG_WRITE (R472): The sender writes a message register while GO is 0. -/
  | mbxMsgWrite (m : Nat) (c : Fin 128) (j : Fin 16) (v : Word)
  /-- IDENT (R486): Engineering command that returns identity. -/
  | ident (e : EngReq)
  /-- ECHO (R486): Engineering command that returns its payload. -/
  | echo (e : EngReq)
  /-- READ32 (R486): Engineering command that reads BAR0 words. -/
  | read32 (e : EngReq)
  /-- WRITE32 (R487): Engineering command that writes BAR0 words in order. -/
  | write32 (e : EngReq)
  /-- READ_BLOCK (R486): Engineering command that reads bytes from the store and image windows. -/
  | readBlock (e : EngReq)
  /-- WRITE_BLOCK (R487): Engineering command that writes bytes to the store and image windows. -/
  | writeBlock (e : EngReq)
  /-- MODULE_MODE (R486): Engineering command that writes SYS_MODULE_MODE.REQ. -/
  | moduleMode (e : EngReq)
  /-- PART_MODE (R486): Engineering command that writes PART_CTRL.REQ. -/
  | partMode (e : EngReq)
  /-- CELLAR_FREEZE (R583): Engineering command that freezes the cellar book. -/
  | cellarFreeze (e : EngReq)
  /-- CELLAR_UNFREEZE (R583): Engineering command that ends a freeze. -/
  | cellarUnfreeze (e : EngReq)
  /-- CELLAR_READ (R583): Engineering command that reads cellar records. -/
  | cellarRead (e : EngReq)
  /-- CELLAR_STATUS (R583): Engineering command that returns the cellar state. -/
  | cellarStatus (e : EngReq)
  /-- GRAFT_LOAD (R488): Engineering command that takes a casting chunk and, when complete, allocates, writes and arms. -/
  | graftLoad (e : EngReq)
  /-- GRAFT_ALLOC (R394): Engineering command that allocates the other version slot. -/
  | graftAlloc (e : EngReq)
  /-- GRAFT_WRITE (R395): Engineering command that writes into the pending run. -/
  | graftWrite (e : EngReq)
  /-- GRAFT_ARM (R396): Engineering command that arms a graft. -/
  | graftArm (e : EngReq)
  /-- GRAFT_GO (R398): Engineering command that issues the group commit. -/
  | graftGo (e : EngReq)
  /-- GRAFT_ROLLBACK (R412): Engineering command that requests a rollback. -/
  | graftRollback (e : EngReq)
  /-- GRAFT_RELEASE (R413): Engineering command that releases a graft. -/
  | graftRelease (e : EngReq)
  /-- GRAFT_ABORT (R414): Engineering command that aborts a graft. -/
  | graftAbort (e : EngReq)
  /-- GRAFT_STATUS (R486): Engineering command that returns the graft state. -/
  | graftStatus (e : EngReq)
  /-- MBX_SEND (R486): Engineering command that writes a message and GO as sender 0x203. -/
  | mbxSend (e : EngReq)
  /-- MBX_TAKE (R486): Engineering command that takes a message as receiver 0x203. -/
  | mbxTake (e : EngReq)
  /-- MBX_DONE (R486): Engineering command that completes a message with USER. -/
  | mbxDone (e : EngReq)
  /-- MBX_WITHDRAW (R486): Engineering command that withdraws a message. -/
  | mbxWithdraw (e : EngReq)
  /-- MBX_READ (R486): Engineering command that reads a channel. -/
  | mbxRead (e : EngReq)
  /-- TIME_GET (R486): Engineering command that returns a latched time reading. -/
  | timeGet (e : EngReq)
  /-- TIME_SET_WALL (R486): Engineering command that corrects wall time toward a value. -/
  | timeSetWall (e : EngReq)
  /-- TIME_ACCEPT_BACK (R496): Engineering command that ends a hold with a backward step. -/
  | timeAcceptBack (e : EngReq)
  /-- CASK_READ (R609): Engineering command that reads the cask with a password. -/
  | caskRead (e : EngReq)
  /-- CASK_WRITE (R609): Engineering command that writes the cask, and optionally commits. -/
  | caskWrite (e : EngReq)
  /-- FW_WRITE (R563): Engineering command that writes flash bytes. -/
  | fwWrite (e : EngReq)
  /-- FW_SELECT (R563): Engineering command that selects TRIAL, CONFIRM or CANCEL. -/
  | fwSelect (e : EngReq)
  /-- RESTART (R486): Engineering command that restarts the module, normally or into RECOVERY. -/
  | restart (e : EngReq)
  /-- ARP_REQUEST (R477): The port answers an ARP request for its address. -/
  | arpRequest (ip target : Nat)
  /-- ICMP_ECHO (R477): The port answers an ICMP echo request. -/
  | icmpEcho (ip target : Nat) (data : List Byte)
  /-- PTP_SYNC (R500): A Sync message is timestamped and feeds the servo. -/
  | ptpSync (h : PtpHdr) (origin : Option Int)
  /-- PTP_FOLLOW_UP (R498): A Follow_Up gives the precise Sync origin time. -/
  | ptpFollowUp (h : PtpHdr) (origin : Int)
  /-- PTP_ANNOUNCE (R499): An Announce feeds the BMCA and the UTC offset. -/
  | ptpAnnounce (h : PtpHdr) (a : PtpAnn)
  /-- ANNOUNCE_RECEIPT_TIMEOUT (R499): No Announce arrives in time and the port leaves SLAVE. -/
  | announceReceiptTimeout
  /-- PTP_DELAY_RESP (R498): A Delay_Resp completes an offset measurement. -/
  | ptpDelayResp (h : PtpHdr) (t4 : Int)
  /-- PTP_DELAY_REQ_SEND (R498): The port sends a Delay_Req or Pdelay_Req. -/
  | ptpDelayReqSend
  /-- PTP_PDELAY_REQ (R498): The port answers a Pdelay_Req from its link partner. -/
  | ptpPdelayReq (h : PtpHdr)
  /-- PTP_PDELAY_RESP (R498): A Pdelay_Resp or its follow-up gives the peer delay. -/
  | ptpPdelayResp (h : PtpHdr) (follow twoStep : Bool) (tm : Int)
  /-- WALL_STEP (R495): A decided step takes effect at the first boundary at least 2 µs later. -/
  | wallStep
  /-- HOLD_END (R496): Line time plus the target offset reaches the held wall time and the hold ends. -/
  | holdEnd
  /-- TIME_SET_GO (R494): Corrects wall time toward the set value. -/
  | timeSetGo (m : Nat) (v : Word)
  /-- TIME_SET_ACCEPT_BACK (R496): Ends a hold with a backward step. -/
  | timeSetAcceptBack (m : Nat) (v : Word)
  /-- RTC_SECOND_TICK (R505): The RTC counts a second, and DAYSEC and WEEKDAY advance. -/
  | rtcSecondTick
  /-- RTC_SYNC (R504): Management sets the RTC from wall time at a second boundary. -/
  | rtcSync
  /-- VBAT_SWITCH (R508): The RTC domain switches between AUX3V3 and VBAT. -/
  | vbatSwitch (vbat lost : Bool)
  /-- VBAT_MEASURE (R508): VBAT is measured at start and hourly. -/
  | vbatMeasure (mv : BitVec 12)
  /-- CAN_MODE_APPLY (R514): A mode change takes effect at bus idle. -/
  | canModeApply (c : Fin 4)
  /-- CAN_INTEGRATED (R514): After 11 recessive bits the controller takes part. -/
  | canIntegrated (c : Fin 4)
  /-- CAN_TX_REQ (R520): A transmit buffer is made pending. -/
  | canTxReq (m : Nat) (c : Fin 4) (v : Word)
  /-- CAN_TX_ABORT (R523): A pending transmit buffer is aborted. -/
  | canTxAbort (m : Nat) (c : Fin 4) (v : Word)
  /-- CAN_ARBITRATION_START (R521): The controller chooses a pending buffer at the start of arbitration. -/
  | canArbitrationStart (c : Fin 4)
  /-- CAN_FRAME_SENT (R522): A frame is sent; DONE is set and TX_DONE raised. -/
  | canFrameSent (c : Fin 4) (delay : BitVec 7) (sof : Nat)
  /-- CAN_ARBITRATION_LOST (R522): A frame loses arbitration and is retried or aborted. -/
  | canArbitrationLost (c : Fin 4)
  /-- CAN_FRAME_RECEIVED (R525): A valid frame is stored in the FIFO or lost to a full FIFO. -/
  | canFrameReceived (c : Fin 4) (f : CanFrame)
  /-- CAN_BUS_ERROR (R528): A bus error updates the counters and the error state. -/
  | canBusError (c : Fin 4) (lec : CanLec) (dp : Bool) (why : CanWhy)
  /-- CAN_RECOVER (R528): Writing RECOVER starts bus-off recovery. -/
  | canRecover (m : Nat) (c : Fin 4) (v : Word)
  /-- CAN_RECOVERY_DONE (R528): After 128 recessive sequences the counters read 0. -/
  | canRecoveryDone (c : Fin 4)
  /-- CAN_RATE_DWELL_END (R518): The dwell ends and the next rate entry is tried. -/
  | canRateDwellEnd (c : Fin 4)
  /-- CAN_RX_READ_WORD0 (R526): Reading word 0 takes the lock on the head entry. -/
  | canRxReadWord0 (m : Nat) (c : Fin 4)
  /-- CAN_RX_READ_WORD19 (R526): Reading word 19 releases the lock and removes the entry. -/
  | canRxReadWord19 (m : Nat) (c : Fin 4)
  /-- CAN_CNT_CLR (R197): Clears a controller's counters. -/
  | canCntClr (m : Nat) (c : Fin 4) (v : Word)
  /-- LIO_DOWN_FRAME_SEND (R533): The logic die sends a downstream frame every 2 µs. -/
  | lioDownFrameSend
  /-- LIO_UP_FRAME_RECEIVE (R535): The logic die checks an upstream frame and raises edge events. -/
  | lioUpFrameReceive (l : List Byte) (near : Bool)
  /-- LIO_DOWN_FRAME_APPLY (R543): The field die applies OUT and the configuration slot. -/
  | lioDownFrameApply (l : List Byte)
  /-- LIO_UP_FRAME_BUILD (R534): The field die builds and sends an upstream frame. -/
  | lioUpFrameBuild (sense : Word) (supply : BitVec 8)
  /-- LIO_INPUT_CHANGE (R540): A debounced input level changes. -/
  | lioInputChange (i : Fin 32)
  /-- LIO_FIELD_TIMEOUT (R537): 16 µs without a valid downstream frame switches the outputs off. -/
  | lioFieldTimeout
  /-- LIO_LINK_TIMEOUT (R538): 16 µs without a valid upstream frame marks the link lost. -/
  | lioLinkTimeout
  /-- LIO_ARM (R539): Sends an ARM frame that clears SHUTDOWN. -/
  | lioArm (m : Nat) (v : Word)
  /-- LIO_OVERCURRENT (R544): An output meets overcurrent and is shut off. -/
  | lioOvercurrent (i : Fin 32)
  /-- LIO_RETRY (R544): The retry period ends and the output is switched on again. -/
  | lioRetry (i : Fin 32)
  /-- LIO_RETRY_OK (R544): A retry stays on for 1 ms and FAULT clears. -/
  | lioRetryOk (i : Fin 32)
  /-- LIO_CNT_CLR (R197): Clears the local IO counters. -/
  | lioCntClr (m : Nat) (v : Word)
  /-- PANEL_SWAP (R551): Requests a buffer swap with a checksum. -/
  | panelSwap (m : Nat) (v : Word)
  /-- PANEL_CRC_DONE (R551): The back-buffer CRC is compared, and the swap is scheduled or refused. -/
  | panelCrcDone
  /-- PANEL_FRAME_START (R552): A panel frame starts, swaps a pending buffer and checks the front CRC. -/
  | panelFrameStart (dark : Bool) (upset : Option (Fin 2048 × Word))
  /-- PANEL_IDLE_TIMEOUT (R552): IDLE seconds without a swap drop the rate. -/
  | panelIdleTimeout
  /-- PANEL_EN (R553): Writing EN starts the ramp or turns the panel off. -/
  | panelEn (m : Nat) (v : Word)
  /-- PANEL_RAMP_DONE (R553): VPANEL has ramped and scanning begins. -/
  | panelRampDone
  /-- PANEL_SUPPLY_FAULT (R553): VPANEL out of range or over-temperature puts the panel in FAULT. -/
  | panelSupplyFault (overtemp : Bool)
  /-- MGT_RESTART_CMD (R555): Writing RESTART restarts the management island. -/
  | mgtRestartCmd (m : Nat) (v : Word)
  /-- MGT_WATCHDOG_EXPIRY (R555): The management watchdog expires and the island restarts. -/
  | mgtWatchdogExpiry
  /-- MGT_FAULT (R555): A processor fault or management clock loss restarts the island. -/
  | mgtFault
  /-- MGT_RESTART_END (R555): The restart ends; mailboxes are marked and MGT_RESTART is raised. -/
  | mgtRestartEnd
  /-- START_SEQUENCE (R556): Odyth chooses a bank and runs the start steps. -/
  | startSequence (f : StartFacts)
  /-- MAIN_DIE_RELEASE (R590): The main die's islands are released once the test and role decision end. -/
  | mainDieRelease
  /-- START_SET_APPLY (R557): The start set's sections are applied in order. -/
  | startSetApply
  /-- MGT_FW_WRITE (R560): Writes flash data to the non-booted bank. -/
  | mgtFwWrite (m : Nat) (v : Word)
  /-- MGT_FW_TRIAL (R561): Names the other bank as TRIAL. -/
  | mgtFwTrial (m : Nat) (v : Word)
  /-- MGT_FW_CONFIRM (R561): Confirms the booted bank. -/
  | mgtFwConfirm (m : Nat) (v : Word)
  /-- MGT_FW_CANCEL (R561): Sets TRIAL to none. -/
  | mgtFwCancel (m : Nat) (v : Word)
  /-- FW_OP_COMPLETE (R560): A flash erase or write ends with a result. -/
  | fwOpComplete (ok : Bool)
  /-- FLASH_SCRUB (R562): A scrub of both banks starts every 90 days or after a confirm. -/
  | flashScrub
  /-- SCRUB_END (R562): The scrub ends and each image's check result is recorded. -/
  | scrubEnd
  /-- MGT_SET_SAVE (R566): Saves the selected settings types. -/
  | mgtSetSave (m : Nat) (v : Word)
  /-- LIFE_SAVE (R572): The life figures are saved every hour. -/
  | lifeSave
  /-- SENSOR_READING (R569): A sensor reading every 1 ms updates its level. -/
  | sensorReading (i : Fin 12) (v : BitVec 16)
  /-- THERMAL_TRIP (R571): The main die reaches 125 °C and the module resets. -/
  | thermalTrip
  /-- NOTICE_POST (R573): Management posts pending sources on the notice channel. -/
  | noticePost
  /-- CELLAR_INTAKE (R578): A record is stored in the ring and in the first-fault region. -/
  | cellarIntake
  /-- MGT_CB_FREEZE (R580): Freezes the cellar book. -/
  | mgtCbFreeze (m : Nat) (v : Word)
  /-- MGT_CB_UNFREEZE (R580): Ends a freeze. -/
  | mgtCbUnfreeze (m : Nat) (v : Word)
  /-- FREEZE_MAX_EXPIRY (R580): A freeze ends FREEZE_MAX seconds after it began. -/
  | freezeMaxExpiry
  /-- MGT_CB_FF_CLEAR (R578): Empties the first-fault region. -/
  | mgtCbFfClear (m : Nat) (v : Word)
  /-- MGT_CB_IDX (R581): Copies a selected record into MGT_CB_REC. -/
  | mgtCbIdx (m : Nat) (v : Word)
  /-- CELLAR_COMMIT (R582): Waiting records are committed to cask region 2. -/
  | cellarCommit
  /-- POWER_ON (R590): AUX3V3 rises above 3.00 V and the always-on island starts. -/
  | powerOn
  /-- AUX3V3_LOSS (R624): AUX3V3 is lost and the whole module stops. -/
  | aux3v3Loss
  /-- MAIN_POWER_LOSS (R624): The 12 V input falls without warning and the module resets. -/
  | mainPowerLoss
  /-- RESET_N_ASSERT (R594): RESET_N passes its filter and the module resets. -/
  | resetNAssert
  /-- RESET_N_RELEASE (R594): RESET_N rises and the reset ends. -/
  | resetNRelease
  /-- PWR_FAIL_N_ASSERT (R612): PWR_FAIL_N is taken and the flush begins. -/
  | pwrFailNAssert
  /-- FLUSH_STOP_PHASE (R612): The REST pour window closes, the ports go silent and ACTIVE_OUT drops. -/
  | flushStopPhase
  /-- FLUSH_DONE (R612): The flush ends, the retained image is written and the module is HELD. -/
  | flushDone (ok : Bool) (calRows : Nat)
  /-- PWR_FAIL_N_RELEASE (R612): The input is back for 100 ms and the module starts with cause PWR_FAIL. -/
  | pwrFailNRelease
  /-- CLOCK_LOSS (R595): A monitored clock is lost; FAULT_N is asserted and ACTIVE_OUT dropped. -/
  | clockLoss (k : Clk)
  /-- CLOCK_RETURN (R596): The main clock is good again and the module resets with CLOCK_LOSS. -/
  | clockReturn (k : Clk)
  /-- WDT_EXPIRY (R602): No service by the end of the period; the module resets with WDT_EXPIRED. -/
  | wdtExpiry
  /-- RST_CTRL_RESET (R585): Resets the module with cause SOFTWARE. -/
  | rstCtrlReset (m : Nat) (v : Word)
  /-- RST_CTRL_CLR_FAILS (R593): Sets FAIL_COUNT to 0. -/
  | rstCtrlClrFails (m : Nat) (v : Word)
  /-- START_OK_EXPIRY (R593): START_OK seconds pass after release and FAIL_COUNT returns to 0. -/
  | startOkExpiry
  /-- WARM_RESTORE_DONE (R615): The retained ranges are copied back and the marker is cleared. -/
  | warmRestoreDone
  /-- CASK_COMMIT (R606): Writes the commit buffer to the cask. -/
  | caskCommit (m : Nat) (v : Word)
  /-- CASK_DISCARD (R606): Empties the commit buffer. -/
  | caskDiscard (m : Nat) (v : Word)
  /-- CASK_COMMIT_DONE (R606): A commit ends, and the wear counters and result are updated. -/
  | caskCommitDone (ok : Bool)
  /-- CASK_WIN_WRITE (R606): A window write is gathered into the commit buffer. -/
  | caskWinWrite (m : Nat) (j : Fin 1024) (v : Word)
  /-- CASK_PW_HI (R610): The high-word write compares the password and grants or refuses an unlock. -/
  | caskPwHi (m : Nat) (v : Word)
  /-- CASK_LOCK (R610): Drops the writer's unlocks. -/
  | caskLock (m : Nat) (v : Word)
  /-- CASK_OPT_COMMIT (R599): Commits the option staging buffer to the unused copy. -/
  | caskOptCommit (m : Nat) (v : Word)
  /-- CASK_OPT_RELOAD (R599): Reloads the staging buffer from the copy in use. -/
  | caskOptReload (m : Nat) (v : Word)
  /-- FIELD_FRAME_REJECT (R311): A field port receives a frame that fails an early check (FCS, abort, EtherType, HCRC, version, kind, reserved values) and discards and counts it. -/
  | fieldFrameReject (p : Fin 32) (why : FieldBad)
  /-- FAR_END_LISTEN (R341): A standby at the far end takes a SYNC from the active under checks 1 … 7 and counts consecutive valid SYNCs toward DETECT. -/
  | farEndListen (p : Fin 32) (h : TrHdr) (pay : List Byte)
  /-- SPLIT_BREAK_REPORT (R339): The active receives the standby's report of a line break over racking and prepares to confirm FIRST at the next boundary. -/
  | splitBreakReport (p : Fin 32)
  /-- RACK_FRAME_REJECT (R425): A racking frame that fails a MAC, EtherType, HCRC, version, kind, reserved-field or LEN check is discarded and counted. -/
  | rackFrameReject (why : RackBad)
  /-- MAIN_POWER_GOOD (R623): 12V_MAIN rises above 10.8 V while AUX3V3 is present, the regulators start, and the management island is released. -/
  | mainPowerGood
  /-- FIELD_SUPPLY_RISE (R536): The local-IO field supply returns and the field die starts with every point an input, outputs off and SHUTDOWN set. -/
  | fieldSupplyRise
  /-- LIO_BOUNDARY_TIMEOUT (R548): No cycle boundary reaches the local-IO logic die for 2 × BC, and image-sourced outputs take their safe values. -/
  | lioBoundaryTimeout
  /-- ENG_RESTART_DELAY (R486): 10 ms after the RESTART response is sent, the module restarts normally or into RECOVERY. -/
  | engRestartDelay
  /-- ILLEGAL_STATE_DETECTION (R585): Parity or illegal-state detection in a unit state machine, scheduler queue, tag store or event router resets the module with cause CRIT_STATE. -/
  | illegalStateDetection (unit : Nat)
  /-- MSIX_VECTOR_UNMASK (R212): A write that unmasks an MSI-X vector or function with its pending bit set sends the held message. -/
  | msixVectorUnmask (f : Fin 257) (w : MsixWr)
  /-- ENG_FRAME_DISCARD (R477): The engineering port discards a frame it does not handle (IPv6, TCP, fragments, options, other UDP ports, tagged frames) and counts it under ENG_BAD. -/
  | engFrameDiscard (d : EngBad)
  deriving DecidableEq, Repr

end Sys2Proof
end

