-- ==== Sys2Proof/Decode.lean ====
section
/-! DEFINITION. The words of commands: the opcode table gives no row any bits; the Judin instruction words of spec/05_judin_reference.md R160 … R189, encoded and decoded. -/

namespace Sys2Proof

/-! ### Combinations the opcode map reserves -/

/-- Whether a register is one of A, B, XH, YH. -/
def rtIsByte (r : RT) : Bool := match r with | .a => true | .b => true | .xh => true | .yh => true | _ => false

/-- The register pairs TFR accepts (R171). -/
def tfrLegal (src dst : RT) : Bool :=
  match src, dst with
  | .a, .x => true
  | .a, .y => true
  | .b, .x => true
  | .b, .y => true
  | .x, .a => true
  | .x, .b => true
  | .y, .a => true
  | .y, .b => true
  | .x, .y => true
  | .y, .x => true
  | .a, .f => true
  | .b, .f => true
  | .f, .a => true
  | .f, .b => true
  | .x, .dp => true
  | .y, .dp => true
  | .dp, .x => true
  | .dp, .y => true
  | p, q => rtIsByte p && rtIsByte q && decide (p ≠ q)

/-- A load into X or Y may not step the register it loads (R165). -/
def ldLegal (r : Rg) (o : MOp) : Bool :=
  match r, o with
  | .x, .postInc .x => false
  | .x, .preDec .x => false
  | .y, .postInc .y => false
  | .y, .preDec .y => false
  | _, _ => true

/-- ADDW and SUBW may not step their destination (R165). -/
def addwLegal (r : R16) (o : MOp) : Bool :=
  match r, o with
  | .x, .postInc .x => false
  | .x, .preDec .x => false
  | .y, .postInc .y => false
  | .y, .preDec .y => false
  | _, _ => true

/-- LEA takes neither POSTINC nor PREDEC (R165). -/
def leaLegal (o : MOp) : Bool :=
  match o with
  | .postInc _ => false
  | .preDec _ => false
  | _ => true

/-! ### Register and condition codes -/

/-- A 0, B 1. -/
def R8.code (r : R8) : Nat := match r with | .a => 0 | .b => 1

/-- X 0, Y 1. -/
def R16.code (r : R16) : Nat := match r with | .x => 0 | .y => 1

/-- The codes of LD, ST, PUSH and POP (R166). -/
def Rg.code (r : Rg) : Nat := match r with | .a => 0 | .b => 1 | .x => 2 | .y => 3 | .f => 4

/-- The codes of LDI r, #i8 (R170). -/
def RI.code (r : RI) : Nat := match r with | .a => 0 | .b => 1 | .f => 2

/-- The codes of TFR (R166). -/
def RT.code (r : RT) : Nat :=
  match r with | .a => 0 | .b => 1 | .x => 2 | .y => 3 | .f => 4 | .dp => 5 | .xh => 6 | .yh => 7

/-- The condition codes (R167). -/
def CC.code (c : CC) : Nat :=
  match c with
  | .eq => 0 | .ne => 1 | .hs => 2 | .lo => 3 | .mi => 4 | .pl => 5 | .vs => 6 | .vc => 7
  | .hi => 8 | .ls => 9 | .ge => 10 | .lt => 11 | .gt => 12 | .le => 13 | .l1 => 14 | .l0 => 15

/-- A or B by its code. -/
def r8Of (n : Nat) : R8 := if n = 0 then .a else .b

/-- X or Y by its code. -/
def r16Of (n : Nat) : R16 := if n = 0 then .x else .y

/-- The register that a SEL or r field of R166 names. -/
def rgOf (n : Nat) : Option Rg :=
  match n with | 0 => some .a | 1 => some .b | 2 => some .x | 3 => some .y | 4 => some .f | _ => none

/-- The register of LDI r, #i8. -/
def riOf (n : Nat) : Option RI := match n with | 0 => some .a | 1 => some .b | 2 => some .f | _ => none

/-- The register that a field of TFR names. -/
def rtOf (n : Nat) : RT :=
  match n with | 0 => .a | 1 => .b | 2 => .x | 3 => .y | 4 => .f | 5 => .dp | 6 => .xh | _ => .yh

/-- The condition of a code. -/
def ccOf (n : Nat) : CC :=
  match n with
  | 0 => .eq | 1 => .ne | 2 => .hs | 3 => .lo | 4 => .mi | 5 => .pl | 6 => .vs | 7 => .vc
  | 8 => .hi | 9 => .ls | 10 => .ge | 11 => .lt | 12 => .gt | 13 => .le | 14 => .l1 | _ => .l0

/-! ### Operand formats -/

/-- Bits 9:3 of format M in place, and the extension word (R164). -/
def MOp.bits (o : MOp) : Nat × Option (BitVec 16) :=
  match o with
  | .abs w => (0, some w)
  | .ind b => (0x080 + 8 * b.code, none)
  | .postInc b => (0x100 + 8 * b.code, none)
  | .preDec b => (0x180 + 8 * b.code, none)
  | .disp b d => (0x200 + 8 * b.code, some d)
  | .index b i k => (0x280 + 32 * k.toNat + 16 * i.code + 8 * b.code, none)
  | .table d i k => (0x300 + 32 * k.toNat + 16 * i.code, some d)

/-- Reads format M from the operand fields `f` and the extension word (R164). -/
def mopOf (f : Nat) (e : BitVec 16) : Option MOp :=
  let k := f / 32 % 4
  let i := f / 16 % 2
  let b := f / 8 % 2
  match f / 128 % 8 with
  | 0 => if k = 0 ∧ i = 0 ∧ b = 0 then some (.abs e) else none
  | 1 => if k = 0 ∧ i = 0 then some (.ind (r16Of b)) else none
  | 2 => if k = 0 ∧ i = 0 then some (.postInc (r16Of b)) else none
  | 3 => if k = 0 ∧ i = 0 then some (.preDec (r16Of b)) else none
  | 4 => if k = 0 ∧ i = 0 then some (.disp (r16Of b) e) else none
  | 5 => some (.index (r16Of b) (r8Of i) (BitVec.ofNat 2 k))
  | 6 => if b = 0 then some (.table e (r8Of i) (BitVec.ofNat 2 k)) else none
  | _ => none

/-- Bits 6:3 of format B in place, and the extension word. -/
def BOp.bits (o : BOp) : Nat × Option (BitVec 16) :=
  match o with
  | .abs w => (0, some w)
  | .ind b => (0x20 + 16 * b.code, none)
  | .disp b d => (0x40 + 16 * b.code, some d)
  | .indexA b => (0x60 + 16 * b.code, none)

/-- Reads format B from the operand fields. -/
def bopOf (f : Nat) (e : BitVec 16) : Option BOp :=
  let b := f / 16 % 2
  if f / 8 % 2 ≠ 0 then none
  else match f / 32 % 4 with
    | 0 => if b = 0 then some (.abs e) else none
    | 1 => some (.ind (r16Of b))
    | 2 => some (.disp (r16Of b) e)
    | _ => some (.indexA (r16Of b))

/-- Bits 5:3 of format R in place, and the extension word. -/
def ROp.bits (o : ROp) : Nat × Option (BitVec 16) :=
  match o with
  | .abs w => (0, some w)
  | .ind b => (0x10 + 8 * b.code, none)
  | .disp b d => (0x20 + 8 * b.code, some d)

/-- Reads format R from the operand fields. -/
def ropOf (f : Nat) (e : BitVec 16) : Option ROp :=
  let b := f / 8 % 2
  if f % 8 ≠ 0 then none
  else match f / 16 % 4 with
    | 0 => if b = 0 then some (.abs e) else none
    | 1 => some (.ind (r16Of b))
    | 2 => some (.disp (r16Of b) e)
    | _ => none

/-- An instruction word of a major opcode and its operand fields (R160), with its extension word. -/
def jw (major f : Nat) (e : Option (BitVec 16)) : Option (BitVec 16 × Option (BitVec 16)) :=
  some (BitVec.ofNat 16 (major * 1024 + f), e)

/-- A word with a format M operand and SEL. -/
def jwM (major sel : Nat) (o : MOp) : Option (BitVec 16 × Option (BitVec 16)) := jw major (o.bits.1 + sel) o.bits.2

/-- A word of a bit instruction (R176): the major of its memory form, the next but one for a register. -/
def jwBit (major op : Nat) (o : BitArg) : Option (BitVec 16 × Option (BitVec 16)) :=
  match o with
  | .mem q bit => jw major (128 * op + q.bits.1 + bit.toNat) q.bits.2
  | .reg r bit => jw (major + 2) (128 * op + 8 * r.code + bit.toNat) none

/-- A two-operand byte instruction (R172) with operation `op` 0 … 7. -/
def jwByte (op : Nat) (r : R8) (src : Src8) : Option (BitVec 16 × Option (BitVec 16)) :=
  match src with
  | .mem o => jwM (8 + r.code) op o
  | .imm i => jw (0x0B + op) (256 * r.code + i.toNat) none

/-- A word immediate (R174). -/
def jwWord (op : Nat) (r : R16) (i : BitVec 16) : Option (BitVec 16 × Option (BitVec 16)) := jw 0x16 (2 * op + r.code) (some i)

/-- A record instruction with its SUB. -/
def jwRec (major sub : Nat) (o : ROp) : Option (BitVec 16 × Option (BitVec 16)) := jw major (64 * sub + o.bits.1) o.bits.2

/-- The word, and the extension word, of a Judin instruction (R160 … R189); none for any other command. -/
def judinEncode (i : Instr) : Option (BitVec 16 × Option (BitVec 16)) :=
  match i with
  | .jNop _ => jw 1 0x000 none
  | .jEnd _ => jw 1 0x001 none
  | .jFence _ => jw 1 0x002 none
  | .jBrk _ => jw 1 0x003 none
  | .jRet _ => jw 1 0x004 none
  | .jRte _ => jw 1 0x005 none
  | .jLmall _ => jw 1 0x010 none
  | .jLmand _ => jw 1 0x011 none
  | .jLmandn _ => jw 1 0x012 none
  | .jLmor _ => jw 1 0x013 none
  | .jNotl _ => jw 1 0x020 none
  | .jSetl _ => jw 1 0x021 none
  | .jClrl _ => jw 1 0x022 none
  | .jTfr _ p q => jw 2 (8 * p.code + q.code) none
  | .jLdiI8 _ r i => jw 3 (256 * r.code + i.toNat) none
  | .jLdiI16 _ r i => jw 4 r.code (some i)
  | .jLd _ r o => jwM 5 r.code o
  | .jSt _ r o => jwM 6 r.code o
  | .jLea _ r o => jwM 7 r.code o
  | .jAdd _ r q => jwByte 0 r q
  | .jAdc _ r q => jwByte 1 r q
  | .jSub _ r q => jwByte 2 r q
  | .jSbc _ r q => jwByte 3 r q
  | .jAnd _ r q => jwByte 4 r q
  | .jOr _ r q => jwByte 5 r q
  | .jXor _ r q => jwByte 6 r q
  | .jCmp _ r q => jwByte 7 r q
  | .jCpc _ r (.mem o) => jwM 0x0A r.code o
  | .jCpc _ r (.imm i) => jw 0x13 (256 * r.code + i.toNat) none
  | .jBit _ r o => jwM 0x0A (2 + r.code) o
  | .jInc _ r => jw 0x14 (2 * 0 + r.code) none
  | .jDec _ r => jw 0x14 (2 * 1 + r.code) none
  | .jNeg _ r => jw 0x14 (2 * 2 + r.code) none
  | .jNot _ r => jw 0x14 (2 * 3 + r.code) none
  | .jShl _ r => jw 0x14 (2 * 4 + r.code) none
  | .jShr _ r => jw 0x14 (2 * 5 + r.code) none
  | .jAsr _ r => jw 0x14 (2 * 6 + r.code) none
  | .jRol _ r => jw 0x14 (2 * 7 + r.code) none
  | .jRor _ r => jw 0x14 (2 * 8 + r.code) none
  | .jClr _ r => jw 0x14 (2 * 9 + r.code) none
  | .jTst _ r => jw 0x14 (2 * 10 + r.code) none
  | .jMulu _ => jw 0x15 0 none
  | .jMuls _ => jw 0x15 1 none
  | .jAddw _ r (.imm i) => jwWord 0 r i
  | .jSubw _ r (.imm i) => jwWord 1 r i
  | .jCmpw _ r (.imm i) => jwWord 2 r i
  | .jCpcw _ r (.imm i) => jwWord 3 r i
  | .jAdcw _ r i => jwWord 4 r i
  | .jSbcw _ r i => jwWord 5 r i
  | .jAddw _ r .a => jw 0x17 (2 * 0 + r.code) none
  | .jAddw _ r .b => jw 0x17 (2 * 1 + r.code) none
  | .jSubw _ r .a => jw 0x17 (2 * 2 + r.code) none
  | .jSubw _ r .b => jw 0x17 (2 * 3 + r.code) none
  | .jAddw _ r .other => jw 0x17 (2 * 4 + r.code) none
  | .jSubw _ r .other => jw 0x17 (2 * 5 + r.code) none
  | .jCmpw _ r .other => jw 0x17 (2 * 6 + r.code) none
  | .jAddws _ r => jw 0x17 (2 * 7 + r.code) none
  | .jAddw _ r (.mem o) => jwM 0x18 (0 + r.code) o
  | .jSubw _ r (.mem o) => jwM 0x18 (2 + r.code) o
  | .jCmpw _ r (.mem o) => jwM 0x18 (4 + r.code) o
  | .jCpcw _ r (.mem o) => jwM 0x18 (6 + r.code) o
  | .jLcc _ k => jw 0x19 k.code none
  | .jLccAnd _ k => jw 0x19 (16 + k.code) none
  | .jLccOr _ k => jw 0x19 (32 + k.code) none
  | .jLdb _ o => jwBit 0x1A 0 o
  | .jLdbn _ o => jwBit 0x1A 1 o
  | .jAndb _ o => jwBit 0x1A 2 o
  | .jAndbn _ o => jwBit 0x1A 3 o
  | .jOrb _ o => jwBit 0x1A 4 o
  | .jOrbn _ o => jwBit 0x1A 5 o
  | .jXorb _ o => jwBit 0x1A 6 o
  | .jXorbn _ o => jwBit 0x1A 7 o
  | .jOut _ o => jwBit 0x1B 0 o
  | .jOutn _ o => jwBit 0x1B 1 o
  | .jSetb _ o => jwBit 0x1B 2 o
  | .jRstb _ o => jwBit 0x1B 3 o
  | .jTglb _ o => jwBit 0x1B 4 o
  | .jLmsave _ o => jwM 0x1E 0 o
  | .jLmload _ o => jwM 0x1E 1 o
  | .jBr _ k d => jw 0x20 (64 * k.code + d.toNat) none
  | .jBrl _ k t => jw 0x21 (64 * k.code) (some t)
  | .jBany _ d => jw 0x22 d.toNat none
  | .jBall _ d => jw 0x22 (0x100 + d.toNat) none
  | .jBnone _ d => jw 0x22 (0x200 + d.toNat) none
  | .jBanyl _ t => jw 0x23 0 (some t)
  | .jBalll _ t => jw 0x23 0x100 (some t)
  | .jBnonel _ t => jw 0x23 0x200 (some t)
  | .jJmps _ d => jw 0x24 d.toNat none
  | .jJmp _ t => jw 0x25 0 (some t)
  | .jJmpx _ r => jw 0x26 r.code none
  | .jCall _ t => jw 0x27 0 (some t)
  | .jCallx _ r => jw 0x28 r.code none
  | .jPush _ r => jw 0x29 r.code none
  | .jPop _ r => jw 0x2A r.code none
  | .jTon _ b o => jwRec 0x2C (0 + b.toNat) o
  | .jTof _ b o => jwRec 0x2C (4 + b.toNat) o
  | .jTp _ b o => jwRec 0x2C (8 + b.toNat) o
  | .jCtu _ o => jwRec 0x2D 0 o
  | .jCtd _ o => jwRec 0x2D 1 o
  | .jCres _ o => jwRec 0x2D 2 o
  | .jCld _ o => jwRec 0x2D 3 o
  | .jRedge _ o => jwRec 0x2D 4 o
  | .jFedge _ o => jwRec 0x2D 5 o
  | .jSev _ e => jw 0x30 e.toNat none
  | .jWfe _ e => jw 0x31 e.toNat none
  | .jWuntil _ e => jw 0x32 e.toNat none
  | .jGoSend _ ch => jw 0x33 ch.toNat none
  | .jGoDone _ ch => jw 0x33 (0x080 + ch.toNat) none
  | .jMread _ ch => jw 0x33 (0x100 + ch.toNat) none
  | .jTrig _ t => jw 0x34 t.toNat none
  | _ => none

/-! ### Decoding -/

/-- Whether an extension word follows: by the major opcode and the mode field alone (R160). -/
def judinLong (w : BitVec 16) : Bool :=
  let f := w.toNat % 1024
  let m := w.toNat / 1024
  let modeM := f / 128 % 8
  if (5 ≤ m ∧ m ≤ 0x0A) ∨ m = 0x18 ∨ m = 0x1E then decide (modeM = 0) || decide (modeM = 4) || decide (modeM = 6)
  else if m = 0x1A ∨ m = 0x1B then decide (f / 32 % 2 = 0)
  else if m = 0x2C ∨ m = 0x2D then decide (f / 16 % 2 = 0)
  else decide (m = 4) || decide (m = 0x16) || decide (m = 0x21) || decide (m = 0x23) || decide (m = 0x25) || decide (m = 0x27)

/-- The 0x01 instructions (R186). -/
def decSys (c : Cx) (f : Nat) : Option Instr :=
  match f with
  | 0x000 => some (.jNop c)
  | 0x001 => some (.jEnd c)
  | 0x002 => some (.jFence c)
  | 0x003 => some (.jBrk c)
  | 0x004 => some (.jRet c)
  | 0x005 => some (.jRte c)
  | 0x010 => some (.jLmall c)
  | 0x011 => some (.jLmand c)
  | 0x012 => some (.jLmandn c)
  | 0x013 => some (.jLmor c)
  | 0x020 => some (.jNotl c)
  | 0x021 => some (.jSetl c)
  | 0x022 => some (.jClrl c)
  | _ => none

/-- A two-operand byte instruction by its number (R172). -/
def decByte (c : Cx) (op : Nat) (r : R8) (q : Src8) : Instr :=
  match op with
  | 0 => .jAdd c r q
  | 1 => .jAdc c r q
  | 2 => .jSub c r q
  | 3 => .jSbc c r q
  | 4 => .jAnd c r q
  | 5 => .jOr c r q
  | 6 => .jXor c r q
  | 7 => .jCmp c r q
  | _ => .jCpc c r q

/-- A one-operand byte instruction (R173). -/
def decUnary (c : Cx) (op : Nat) (r : R8) : Option Instr :=
  match op with
  | 0 => some (.jInc c r)
  | 1 => some (.jDec c r)
  | 2 => some (.jNeg c r)
  | 3 => some (.jNot c r)
  | 4 => some (.jShl c r)
  | 5 => some (.jShr c r)
  | 6 => some (.jAsr c r)
  | 7 => some (.jRol c r)
  | 8 => some (.jRor c r)
  | 9 => some (.jClr c r)
  | 10 => some (.jTst c r)
  | _ => none

/-- A word immediate instruction (R174). -/
def decWordImm (c : Cx) (op : Nat) (r : R16) (e : BitVec 16) : Option Instr :=
  match op with
  | 0 => some (.jAddw c r (.imm e))
  | 1 => some (.jSubw c r (.imm e))
  | 2 => some (.jCmpw c r (.imm e))
  | 3 => some (.jCpcw c r (.imm e))
  | 4 => some (.jAdcw c r e)
  | 5 => some (.jSbcw c r e)
  | _ => none

/-- A word register instruction (R174). -/
def decWordReg (c : Cx) (op : Nat) (r : R16) : Instr :=
  match op with
  | 0 => .jAddw c r .a
  | 1 => .jAddw c r .b
  | 2 => .jSubw c r .a
  | 3 => .jSubw c r .b
  | 4 => .jAddw c r .other
  | 5 => .jSubw c r .other
  | 6 => .jCmpw c r .other
  | _ => .jAddws c r

/-- A word memory instruction (R174), R165 excepted. -/
def decWordMem (c : Cx) (sel : Nat) (o : MOp) : Option Instr :=
  let r := r16Of (sel % 2)
  match sel / 2 with
  | 0 => if addwLegal r o then some (.jAddw c r (.mem o)) else none
  | 1 => if addwLegal r o then some (.jSubw c r (.mem o)) else none
  | 2 => some (.jCmpw c r (.mem o))
  | _ => some (.jCpcw c r (.mem o))

/-- A logic bit instruction (R176). -/
def decLogic (c : Cx) (op : Nat) (o : BitArg) : Instr :=
  match op with
  | 0 => .jLdb c o
  | 1 => .jLdbn c o
  | 2 => .jAndb c o
  | 3 => .jAndbn c o
  | 4 => .jOrb c o
  | 5 => .jOrbn c o
  | 6 => .jXorb c o
  | _ => .jXorbn c o

/-- An output bit instruction (R176). -/
def decOut (c : Cx) (op : Nat) (o : BitArg) : Option Instr :=
  match op with
  | 0 => some (.jOut c o)
  | 1 => some (.jOutn c o)
  | 2 => some (.jSetb c o)
  | 3 => some (.jRstb c o)
  | 4 => some (.jTglb c o)
  | _ => none

/-- The bit operand of a register form (R176). -/
def regBit (f : Nat) : Option BitArg :=
  if f / 16 % 8 ≠ 0 then none else some (.reg (r8Of (f / 8 % 2)) (BitVec.ofNat 3 (f % 8)))

/-- The bit operand of a memory form. -/
def memBit (f : Nat) (e : BitVec 16) : Option BitArg := (bopOf f e).map (fun o => .mem o (BitVec.ofNat 3 (f % 8)))

/-- The reduction branches (R179); `l` for the long forms. -/
def decReduce (c : Cx) (kind d : Nat) : Option Instr :=
  match kind with
  | 0 => some (.jBany c (BitVec.ofNat 8 d))
  | 1 => some (.jBall c (BitVec.ofNat 8 d))
  | 2 => some (.jBnone c (BitVec.ofNat 8 d))
  | _ => none

/-- The long reduction branches (R179). -/
def decReduceL (c : Cx) (kind : Nat) (e : BitVec 16) : Option Instr :=
  match kind with
  | 0 => some (.jBanyl c e)
  | 1 => some (.jBalll c e)
  | 2 => some (.jBnonel c e)
  | _ => none

/-- A timer (R183). -/
def decTimer (c : Cx) (ty : Nat) (b : BitVec 2) (o : ROp) : Option Instr :=
  match ty with
  | 0 => some (.jTon c b o)
  | 1 => some (.jTof c b o)
  | 2 => some (.jTp c b o)
  | _ => none

/-- A counter or an edge (R185). -/
def decCount (c : Cx) (sub : Nat) (o : ROp) : Option Instr :=
  match sub with
  | 0 => some (.jCtu c o)
  | 1 => some (.jCtd c o)
  | 2 => some (.jCres c o)
  | 3 => some (.jCld c o)
  | 4 => some (.jRedge c o)
  | 5 => some (.jFedge c o)
  | _ => none

/-- The mailbox instructions (R186). -/
def decMbx (c : Cx) (op : Nat) (ch : BitVec 7) : Option Instr :=
  match op with
  | 0 => some (.jGoSend c ch)
  | 1 => some (.jGoDone c ch)
  | 2 => some (.jMread c ch)
  | _ => none

/-- Moves (majors 0x02 … 0x07). -/
def decMove (c : Cx) (m f : Nat) (e : BitVec 16) : Option Instr :=
  if m = 0x02 then
    (if f / 64 = 0 ∧ tfrLegal (rtOf (f / 8 % 8)) (rtOf (f % 8)) = true then some (.jTfr c (rtOf (f / 8 % 8)) (rtOf (f % 8))) else none)
  else if m = 0x03 then
    (riOf (f / 256)).bind (fun r => if r = .f ∧ 32 ≤ f % 256 then none else some (.jLdiI8 c r (BitVec.ofNat 8 (f % 256))))
  else if m = 0x04 then (if f < 2 then some (.jLdiI16 c (r16Of f) e) else none)
  else if m = 0x05 then
    (mopOf f e).bind (fun o => (rgOf (f % 8)).bind (fun r => if ldLegal r o then some (.jLd c r o) else none))
  else if m = 0x06 then (mopOf f e).bind (fun o => (rgOf (f % 8)).map (fun r => .jSt c r o))
  else (mopOf f e).bind (fun o => if f % 8 < 2 ∧ leaLegal o = true then some (.jLea c (r16Of (f % 8)) o) else none)

/-- Byte instructions (majors 0x08 … 0x15). -/
def decBytes (c : Cx) (m f : Nat) (e : BitVec 16) : Option Instr :=
  if m ≤ 0x09 then (mopOf f e).map (fun o => decByte c (f % 8) (r8Of (m - 8)) (.mem o))
  else if m = 0x0A then
    (mopOf f e).bind (fun o =>
      if f % 8 < 2 then some (.jCpc c (r8Of (f % 2)) (.mem o)) else if f % 8 < 4 then some (.jBit c (r8Of (f % 2)) o) else none)
  else if m ≤ 0x13 then (if f / 256 < 2 then some (decByte c (m - 0x0B) (r8Of (f / 256)) (.imm (BitVec.ofNat 8 (f % 256)))) else none)
  else if m = 0x14 then (if f / 32 = 0 then decUnary c (f / 2 % 16) (r8Of (f % 2)) else none)
  else if f = 0 then some (.jMulu c) else if f = 1 then some (.jMuls c) else none

/-- Word, condition and bit instructions (majors 0x16 … 0x1E). -/
def decWords (c : Cx) (m f : Nat) (e : BitVec 16) : Option Instr :=
  if m = 0x16 then (if f / 16 = 0 then decWordImm c (f / 2 % 8) (r16Of (f % 2)) e else none)
  else if m = 0x17 then (if f / 16 = 0 then some (decWordReg c (f / 2 % 8) (r16Of (f % 2))) else none)
  else if m = 0x18 then (mopOf f e).bind (fun o => decWordMem c (f % 8) o)
  else if m = 0x19 then
    (if f / 16 = 0 then some (.jLcc c (ccOf (f % 16))) else if f / 16 = 1 then some (.jLccAnd c (ccOf (f % 16)))
     else if f / 16 = 2 then some (.jLccOr c (ccOf (f % 16))) else none)
  else if m = 0x1A then (memBit f e).map (fun o => decLogic c (f / 128) o)
  else if m = 0x1B then (memBit f e).bind (fun o => decOut c (f / 128) o)
  else if m = 0x1C then (regBit f).map (fun o => decLogic c (f / 128) o)
  else if m = 0x1D then (regBit f).bind (fun o => decOut c (f / 128) o)
  else (mopOf f e).bind (fun o => if f % 8 = 0 then some (.jLmsave c o) else if f % 8 = 1 then some (.jLmload c o) else none)

/-- Branches and stack instructions (majors 0x20 … 0x2A). -/
def decFlow (c : Cx) (m f : Nat) (e : BitVec 16) : Option Instr :=
  if m = 0x20 then some (.jBr c (ccOf (f / 64)) (BitVec.ofNat 6 (f % 64)))
  else if m = 0x21 then (if f % 64 = 0 then some (.jBrl c (ccOf (f / 64)) e) else none)
  else if m = 0x22 then decReduce c (f / 256) (f % 256)
  else if m = 0x23 then (if f % 256 = 0 then decReduceL c (f / 256) e else none)
  else if m = 0x24 then some (.jJmps c (BitVec.ofNat 10 f))
  else if m = 0x25 then (if f = 0 then some (.jJmp c e) else none)
  else if m = 0x26 then (if f < 2 then some (.jJmpx c (r16Of f)) else none)
  else if m = 0x27 then (if f = 0 then some (.jCall c e) else none)
  else if m = 0x28 then (if f < 2 then some (.jCallx c (r16Of f)) else none)
  else if m = 0x29 then (if f / 8 = 0 then (rgOf (f % 8)).map (fun r => .jPush c r) else none)
  else (if f / 8 = 0 then (rgOf (f % 8)).map (fun r => .jPop c r) else none)

/-- Records, events, mailboxes and triggers (majors 0x2C … 0x34). -/
def decRest (c : Cx) (m f : Nat) (e : BitVec 16) : Option Instr :=
  if m = 0x2C then (ropOf f e).bind (fun o => decTimer c (f / 256) (BitVec.ofNat 2 (f / 64 % 4)) o)
  else if m = 0x2D then (ropOf f e).bind (fun o => decCount c (f / 64) o)
  else if m = 0x30 then (if f < 768 then some (.jSev c (BitVec.ofNat 10 f)) else none)
  else if m = 0x31 then (if f < 768 then some (.jWfe c (BitVec.ofNat 10 f)) else none)
  else if m = 0x32 then (if f < 768 ∨ f = 1023 then some (.jWuntil c (BitVec.ofNat 10 f)) else none)
  else if m = 0x33 then decMbx c (f / 128) (BitVec.ofNat 7 (f % 128))
  else if m = 0x34 then (if f / 64 = 0 then some (.jTrig c (BitVec.ofNat 6 f)) else none)
  else none

/-- The instruction that a word with the extension word after it spells; none for a word that the opcode map reserves (R189). -/
def judinDecode? (c : Cx) (w e : BitVec 16) : Option Instr :=
  let m := w.toNat / 1024
  let f := w.toNat % 1024
  if m = 1 then decSys c f
  else if 2 ≤ m ∧ m ≤ 0x07 then decMove c m f e
  else if 8 ≤ m ∧ m ≤ 0x15 then decBytes c m f e
  else if 0x16 ≤ m ∧ m ≤ 0x1E then decWords c m f e
  else if 0x20 ≤ m ∧ m ≤ 0x2A then decFlow c m f e
  else decRest c m f e

/-- The command that a context's code words spell: a reserved word is UNDEFINED_OPCODE (R162). -/
def judinDecode (c : Cx) (w e : BitVec 16) : Instr := (judinDecode? c w e).getD (.undefinedOpcode c w)

/-! ### The opcode table -/

/-- The command that a table word spells. The table gives no row any bits (every row's `fields` is empty), so no word
spells a command. -/
def decodeTableWord (_nbits _w : Nat) : Option Instr := none

end Sys2Proof
end

