-- ==== Sys2Proof/Machine/Store.lean ====
section
/-! DEFINITION. Sparse stores: a list of (key, value) pairs with keys strictly rising and no entry equal to what an unlisted key reads as. Registers, memories and the per-item tables of the state are all kept in this one form. -/

namespace Sys2Proof.Machine

/-- A sparse store of values by key. -/
abbrev SMap (α : Type) := List (Nat × α)

/-- The value at key `k`; an unlisted key reads as `d k`. -/
def SMap.get {α : Type} (d : Nat → α) : SMap α → Nat → α
  | [], k => d k
  | (k', v) :: m, k => if k = k' then v else SMap.get d m k

/-- Lists `v` at key `k`, in the order of the keys. -/
def SMap.ins {α : Type} (k : Nat) (v : α) : SMap α → SMap α
  | [] => [(k, v)]
  | (k', v') :: m =>
    if k = k' then (k, v) :: m
    else if k < k' then (k, v) :: (k', v') :: m
    else (k', v') :: SMap.ins k v m

/-- Unlists key `k`. -/
def SMap.del {α : Type} (k : Nat) (m : SMap α) : SMap α := m.filter (fun e => decide (e.1 ≠ k))

/-- Writes `v` at key `k`, keeping the canonical form: writing what an unlisted key reads as removes the entry. -/
def SMap.put {α : Type} [DecidableEq α] (d : Nat → α) (k : Nat) (v : α) (m : SMap α) : SMap α :=
  if v = d k then SMap.del k m else SMap.ins k v m

/-- Every key of the list is above `b`, the keys rise strictly, and no entry holds its key's unlisted value. -/
def SMap.wfFrom {α : Type} [DecidableEq α] (d : Nat → α) : Nat → SMap α → Bool
  | _, [] => true
  | b, (k, v) :: m => decide (b ≤ k) && (decide (v ≠ d k) && SMap.wfFrom d (k + 1) m)

/-- The canonical form. -/
def SMap.wf {α : Type} [DecidableEq α] (d : Nat → α) (m : SMap α) : Bool := SMap.wfFrom d 0 m

/-- Drops every entry whose key lies in [lo, hi): those keys read as unlisted again. -/
def SMap.clearRange {α : Type} (lo hi : Nat) (m : SMap α) : SMap α :=
  m.filter (fun e => decide (e.1 < lo) || decide (hi ≤ e.1))

/-- The entries with keys in [lo, lo + n), moved down by `lo`. -/
def SMap.window {α : Type} (lo n : Nat) (m : SMap α) : SMap α :=
  (m.filter (fun e => decide (lo ≤ e.1) && decide (e.1 < lo + n))).map (fun e => (e.1 - lo, e.2))

/-- A byte memory: a sparse store of bytes; an unlisted address reads as 0 (log 9). -/
abbrev Mem := SMap Byte

/-- What an unlisted byte of memory reads as. -/
def byte0 : Nat → Byte := fun _ => 0

/-- What an unlisted byte of erased flash reads as. -/
def byteFF : Nat → Byte := fun _ => 0xFF

/-- One byte of the default schedule table of port `p` (spec/10_trellis_link.md R321, R322): offset `o` in its 256 bytes. -/
def defaultSched (p o : Nat) : Nat :=
  if o = 0x00 then 16
  else if o = 0x02 then 350 % 256 else if o = 0x03 then 350 / 256
  else if o = 0x04 then 800 % 256 else if o = 0x05 then 800 / 256
  else if o = 0x08 then 175
  else if o = 0x11 then 0x03 else if o = 0x12 then 0x06 else if o = 0x13 then 0x08
  else if o = 0x14 then 0x0A else if o = 0x15 then 0x0D else if o = 0x16 then 0x0E
  else if 0x20 ≤ o ∧ o < 0x60 then
    (if o % 4 = 0 then (16 * p + (o - 0x20) / 4) % 256 else if o % 4 = 1 then (16 * p + (o - 0x20) / 4) / 256 else 0)
  else 0

/-- What an unlisted byte of the image, table and program stores reads as: the default schedule tables that the module
writes at reset into copy 0 of every port (R321), at the reset place of TRL_TBL_SCHED; 0x7FFF in STEP of every step state,
which no step has entered (spec/07_step_sequencer.md R236); 0 elsewhere (log 9). -/
def store0 : Nat → Byte := fun a =>
  if 0x12C0000 ≤ a ∧ a < 0x12C4000 then
    (let o := a - 0x12C0000
     if o % 512 < 256 then BitVec.ofNat 8 (defaultSched (o / 512) (o % 256)) else 0)
  else if 0x2000000 ≤ a ∧ a < 0x3200000 then
    (let o := (a - 0x2000000) % 0x9000
     if o < 0x3000 ∨ 0x5000 ≤ o then 0 else if o % 32 = 0 then 0xFF else if o % 32 = 1 then 0x7F else 0)
  else 0

/-- Reads one byte. -/
def Mem.rd (m : Mem) (a : Nat) : Byte := SMap.get byte0 m a

/-- Writes one byte. -/
def Mem.wr (m : Mem) (a : Nat) (b : Byte) : Mem := SMap.put byte0 a b m

/-- The canonical form of a frame's or scratch's byte memory. -/
abbrev Memory.wf (m : Mem) : Prop := SMap.wf byte0 m = true

/-- `n` bytes from address `a` upwards. -/
def Mem.rdList (m : Mem) (a : Nat) : Nat → List Byte
  | 0 => []
  | n + 1 => Mem.rd m a :: Mem.rdList m (a + 1) n

/-- Writes a list of bytes from address `a` upwards. -/
def Mem.wrList (m : Mem) (a : Nat) : List Byte → Mem
  | [] => m
  | b :: bs => Mem.wrList (Mem.wr m a b) (a + 1) bs

/-- The value of `n` bytes, least significant first (spec/00_scope.md R4). -/
def Mem.rdLE (m : Mem) (a : Nat) : Nat → Nat
  | 0 => 0
  | n + 1 => (Mem.rd m a).toNat + 256 * Mem.rdLE m (a + 1) n

/-- Writes `v` as `n` bytes, least significant first. -/
def Mem.wrLE (m : Mem) (a : Nat) (n : Nat) (v : Nat) : Mem :=
  match n with
  | 0 => m
  | n + 1 => Mem.wrLE (Mem.wr m a (BitVec.ofNat 8 (v % 256))) (a + 1) n (v / 256)

/-- `v` as `n` bytes, least significant first. -/
def leBytes : Nat → Nat → List Byte
  | 0, _ => []
  | n + 1, v => BitVec.ofNat 8 (v % 256) :: leBytes n (v / 256)

/-- `v` as `n` bytes, most significant first. -/
def beBytes (n v : Nat) : List Byte := (leBytes n v).reverse

/-- The value of a list of bytes, least significant first. -/
def ofLE : List Byte → Nat
  | [] => 0
  | b :: bs => b.toNat + 256 * ofLE bs

/-- The value of a list of bytes, most significant first. -/
def ofBE (l : List Byte) : Nat := ofLE l.reverse

/-- `n` bytes of a list from position `i`, as a value, least significant first; a missing byte counts as 0. -/
def leAt (l : List Byte) (i n : Nat) : Nat := ofLE ((l.drop i).take n)

/-- Bits `hi` down to `lo` of a natural number. -/
def bitsOf (v hi lo : Nat) : Nat := v / 2 ^ lo % 2 ^ (hi + 1 - lo)

/-- One bit of a natural number. -/
def bitOf (v i : Nat) : Bool := decide (v / 2 ^ i % 2 = 1)

/-- `v` with bits `hi` down to `lo` replaced by `x`, cut to the field's width. -/
def setBits (v hi lo x : Nat) : Nat :=
  v - bitsOf v hi lo * 2 ^ lo + x % 2 ^ (hi + 1 - lo) * 2 ^ lo

/-- A Bool as a one-bit number. -/
def b2n (b : Bool) : Nat := if b then 1 else 0

/-- The signed value of an `n`-bit pattern. -/
def sgn (n v : Nat) : Int := if v % 2 ^ n < 2 ^ (n - 1) then (v % 2 ^ n : Int) else (v % 2 ^ n : Int) - 2 ^ n

/-- The `n`-bit two's-complement pattern of an integer. -/
def unsgn (n : Nat) (x : Int) : Nat := (x % (2 ^ n : Int)).toNat

/-- Quotient of integers rounded to the nearest, halves away from zero (spec/07_step_sequencer.md R243); the divisor is
positive. -/
def roundHalf (a b : Int) : Int :=
  if 0 ≤ a then (2 * a + b) / (2 * b) else -((2 * -a + b) / (2 * b))

/-- Quotient rounded up in magnitude (spec/09_bus_ledger.md R285). -/
def divUp (a b : Int) : Int := if 0 ≤ a then (a + b - 1) / b else -((-a + b - 1) / b)

/-- `x` held within `lo … hi`. -/
def clampI (lo hi x : Int) : Int := if x < lo then lo else if hi < x then hi else x

/-- Increments a 32-bit counter that saturates at 0xFFFF_FFFF. -/
def satInc32 (v : Nat) : Nat := if v < 0xFFFFFFFF then v + 1 else 0xFFFFFFFF

/-- Whether serial number `a` is newer than `b`, N bits wide (spec/00_scope.md R9). -/
def newerN (n a b : Nat) : Bool :=
  let d := (a + 2 ^ n - b % 2 ^ n) % 2 ^ n
  decide (1 ≤ d) && decide (d < 2 ^ (n - 1))

/-- The CRC-32 of IEEE 802.3 over one byte, bit by bit, reflected. -/
def crc32Bit (c : Nat) : Nat := if c % 2 = 1 then (c / 2) ^^^ 0xEDB88320 else c / 2

/-- One byte into the reflected CRC-32 register. -/
def crc32Byte (c : Nat) (b : Byte) : Nat :=
  let x := c ^^^ b.toNat
  crc32Bit (crc32Bit (crc32Bit (crc32Bit (crc32Bit (crc32Bit (crc32Bit (crc32Bit x)))))))

/-- CRC-32 of a byte list (spec/10_trellis_link.md R308). -/
def crc32 (l : List Byte) : Nat := (l.foldl crc32Byte 0xFFFFFFFF) ^^^ 0xFFFFFFFF

end Sys2Proof.Machine
end

