-- ==== Sys2Proof/Machine/Flags.lean ====
section
/-! DEFINITION. The flags of a Judin lane and how each kind of instruction computes them (spec/04_judin_model.md R125, spec/05_judin_reference.md R167, R168). -/

namespace Sys2Proof.Machine

/-- Flags as V N C Z L, bits 4 … 0 (R125). -/
abbrev Flags := BitVec 5

def fV (f : Flags) : Bool := f.getLsbD 4
def fN (f : Flags) : Bool := f.getLsbD 3
def fC (f : Flags) : Bool := f.getLsbD 2
def fZ (f : Flags) : Bool := f.getLsbD 1
def fL (f : Flags) : Bool := f.getLsbD 0

/-- The flag word of five flags. -/
def mkFlags (v n c z l : Bool) : Flags :=
  BitVec.ofNat 5 (b2n v * 16 + b2n n * 8 + b2n c * 4 + b2n z * 2 + b2n l)

/-- Writes L only. -/
def withL (f : Flags) (l : Bool) : Flags := mkFlags (fV f) (fN f) (fC f) (fZ f) l

/-- Bit w − 1 of a w-bit result. -/
def topBit (w r : Nat) : Bool := bitOf r (w - 1)

/-- Add kind: the result and Z N C V of a + b + carry in (R168). -/
def addKind (w a b cin : Nat) (f : Flags) : Nat × Flags :=
  let r := (a + b + cin) % 2 ^ w
  (r, mkFlags (topBit w a == topBit w b && topBit w r != topBit w a) (topBit w r) (decide (2 ^ w ≤ a + b + cin))
    (decide (r = 0)) (fL f))

/-- Subtract kind: the result and Z N C V of a − b − borrow in; a sticky Z stays 0 once it is 0 (R168). -/
def subKind (w a b bin : Nat) (sticky : Bool) (f : Flags) : Nat × Flags :=
  let r := (a + 2 ^ w + 2 ^ w - b - bin) % 2 ^ w
  (r, mkFlags (topBit w a != topBit w b && topBit w r == topBit w b) (topBit w r) (decide (a < b + bin))
    (decide (r = 0) && (!sticky || fZ f)) (fL f))

/-- Logic kind: Z and N of the result, V 0, C unchanged (R168). -/
def logicKind (w r : Nat) (f : Flags) : Flags := mkFlags false (topBit w r) (fC f) (decide (r = 0)) (fL f)

/-- Shift kind: Z and N of the result, C as given, V as given (R173). -/
def shiftKind (r : Nat) (c v : Bool) (f : Flags) : Flags := mkFlags v (topBit 8 r) c (decide (r = 0)) (fL f)

/-- The flags of `g` with C kept from `f` (INC and DEC leave C unchanged). -/
def keepC (f g : Flags) : Flags := mkFlags (fV g) (fN g) (fC f) (fZ g) (fL g)

/-- Whether a condition holds (R167). -/
def ccHolds (cc : CC) (f : Flags) : Bool :=
  match cc with
  | .eq => fZ f
  | .ne => !fZ f
  | .hs => !fC f
  | .lo => fC f
  | .mi => fN f
  | .pl => !fN f
  | .vs => fV f
  | .vc => !fV f
  | .hi => !fC f && !fZ f
  | .ls => fC f || fZ f
  | .ge => fN f == fV f
  | .lt => fN f != fV f
  | .gt => !fZ f && fN f == fV f
  | .le => fZ f || fN f != fV f
  | .l1 => fL f
  | .l0 => !fL f

end Sys2Proof.Machine
end

