-- ==== Sys2Proof/Config.lean ====
section
/-! DEFINITION. What the spec leaves open: opaque constants that nothing can evaluate. Each is applied to the state's counter of free values (State.free), so every use is a fresh value. -/

namespace Sys2Proof.Config

/-- A fresh 64-bit value the spec does not fix (log 10). -/
opaque freeWord : Nat → DWord

/-- A fresh count the spec does not fix: stall clocks between the bounds of a table (log 11). -/
opaque freeClocks : Nat → Nat

end Sys2Proof.Config
end

