-- ==== Sys2Proof/Machine/RegMap.lean ====
section
/-! DEFINITION. The register map: every register of the device register space (spec/01_architecture.md R42 and the register tables of each chapter), as offsets, fields and rows with each field's access type (R10), reset value and permitted encodings (R12). -/

namespace Sys2Proof.Machine

/-- Access types of register fields (spec/00_scope.md R10); reserved bits are the bits of no field. -/
inductive Acc where
  | rw | ro | w1c | w1s | wo | rwl
  deriving DecidableEq, Repr

/-- A field of a register: the register's BAR0 offset and its bits `hi` down to `lo`. -/
structure Fld where
  off : Nat
  hi : Nat
  lo : Nat
  deriving DecidableEq, Repr

/-- A field in a register table: bits, access, reset value, and the permitted values as ranges (empty: every value). -/
structure RegField where
  hi : Nat
  lo : Nat
  acc : Acc
  reset : Nat
  legal : List (Nat × Nat)
  deriving DecidableEq, Repr

/-- One line of a register table: the first offset and up to three array dimensions, each a count and a stride. -/
structure RegRow where
  base : Nat
  n1 : Nat
  s1 : Nat
  n2 : Nat
  s2 : Nat
  n3 : Nat
  s3 : Nat
  fields : List RegField
  deriving DecidableEq, Repr

/-- Page of a press pair, k = 0 … 33 (spec/01_architecture.md R42). -/
def pressPage (k : Nat) : Nat :=
  if k < 32 then 0x100000 + k * 0x1000 else 0x13E000 + (k - 32) * 0x1000

/-- Page of a scalar pair, j = 0 … 15 (spec/04_judin_model.md R159). -/
def scalarPage (j : Nat) : Nat := 0x120000 + j * 0x1000

/-! ### SYS block (chapter 01 R42) -/

abbrev rSYS_IDENT : Nat := 0
abbrev fSYS_IDENT_PART : Fld := ⟨rSYS_IDENT, 31, 16⟩
abbrev fSYS_IDENT_WINDOW : Fld := ⟨rSYS_IDENT, 15, 12⟩
abbrev fSYS_IDENT_GRADE : Fld := ⟨rSYS_IDENT, 11, 8⟩
abbrev fSYS_IDENT_STEPPING : Fld := ⟨rSYS_IDENT, 7, 0⟩
abbrev rSYS_SERIAL_LO : Nat := 4
abbrev fSYS_SERIAL_LO_SERIAL : Fld := ⟨rSYS_SERIAL_LO, 31, 0⟩
abbrev rSYS_SERIAL_HI : Nat := 8
abbrev fSYS_SERIAL_HI_SERIAL : Fld := ⟨rSYS_SERIAL_HI, 31, 0⟩
abbrev rSYS_MODULE_MODE : Nat := 0x10
abbrev fSYS_MODULE_MODE_BUSY : Fld := ⟨rSYS_MODULE_MODE, 8, 8⟩
abbrev fSYS_MODULE_MODE_REQ : Fld := ⟨rSYS_MODULE_MODE, 5, 4⟩
abbrev fSYS_MODULE_MODE_CUR : Fld := ⟨rSYS_MODULE_MODE, 1, 0⟩
abbrev rSYS_ERR_STAT : Nat := 0x20
abbrev fSYS_ERR_STAT_INTEG_CRIT : Fld := ⟨rSYS_ERR_STAT, 2, 2⟩
abbrev fSYS_ERR_STAT_INTEG_CORR : Fld := ⟨rSYS_ERR_STAT, 1, 1⟩
abbrev fSYS_ERR_STAT_CFG_REJECT : Fld := ⟨rSYS_ERR_STAT, 0, 0⟩
abbrev rSYS_CFG_REJECT : Nat := 0x28
abbrev fSYS_CFG_REJECT_OVF : Fld := ⟨rSYS_CFG_REJECT, 31, 31⟩
abbrev fSYS_CFG_REJECT_OFFSET : Fld := ⟨rSYS_CFG_REJECT, 23, 0⟩
abbrev rSYS_CFG_REJECT_SRC : Nat := 0x2c
abbrev fSYS_CFG_REJECT_SRC_MASTER : Fld := ⟨rSYS_CFG_REJECT_SRC, 9, 0⟩
abbrev rSYS_INTEG_CORR : Nat := 0x30
abbrev fSYS_INTEG_CORR_COUNT : Fld := ⟨rSYS_INTEG_CORR, 31, 0⟩
abbrev rSYS_INTEG_CRIT : Nat := 0x34
abbrev fSYS_INTEG_CRIT_COUNT : Fld := ⟨rSYS_INTEG_CRIT, 31, 0⟩
abbrev rSYS_INTEG_LAST : Nat := 0x38
abbrev fSYS_INTEG_LAST_SOURCE : Fld := ⟨rSYS_INTEG_LAST, 31, 24⟩
abbrev fSYS_INTEG_LAST_DETAIL : Fld := ⟨rSYS_INTEG_LAST, 23, 0⟩

def sysRows0 : List RegRow := [
  ⟨0, 1, 0, 1, 0, 1, 0, [⟨31, 16, .ro, 0x9100, []⟩, ⟨15, 12, .ro, 1, []⟩, ⟨11, 8, .ro, 0, []⟩, ⟨7, 0, .ro, 0, []⟩]⟩,
  ⟨4, 1, 0, 1, 0, 1, 0, [⟨31, 0, .ro, 0, []⟩]⟩,
  ⟨8, 1, 0, 1, 0, 1, 0, [⟨31, 0, .ro, 0, []⟩]⟩,
  ⟨0x10, 1, 0, 1, 0, 1, 0, [⟨8, 8, .ro, 0, []⟩, ⟨5, 4, .rw, 1, [(0, 2)]⟩, ⟨1, 0, .ro, 1, []⟩]⟩,
  ⟨0x20, 1, 0, 1, 0, 1, 0, [⟨2, 2, .w1c, 0, []⟩, ⟨1, 1, .w1c, 0, []⟩, ⟨0, 0, .w1c, 0, []⟩]⟩,
  ⟨0x28, 1, 0, 1, 0, 1, 0, [⟨31, 31, .ro, 0, []⟩, ⟨23, 0, .ro, 0, []⟩]⟩,
  ⟨0x2c, 1, 0, 1, 0, 1, 0, [⟨9, 0, .ro, 0, []⟩]⟩,
  ⟨0x30, 1, 0, 1, 0, 1, 0, [⟨31, 0, .ro, 0, []⟩]⟩,
  ⟨0x34, 1, 0, 1, 0, 1, 0, [⟨31, 0, .ro, 0, []⟩]⟩,
  ⟨0x38, 1, 0, 1, 0, 1, 0, [⟨31, 24, .ro, 0, []⟩, ⟨23, 0, .ro, 0, []⟩]⟩]

/-- The register table of the SYS block. -/
def sysRows : List RegRow := sysRows0

/-! ### RST block (chapter 20) -/

abbrev rRST_CTRL : Nat := 0x10000
abbrev fRST_CTRL_KEY : Fld := ⟨rRST_CTRL, 15, 8⟩
abbrev fRST_CTRL_CLR_FAILS : Fld := ⟨rRST_CTRL, 1, 1⟩
abbrev fRST_CTRL_RESET : Fld := ⟨rRST_CTRL, 0, 0⟩
abbrev rRST_CAUSE : Nat := 0x10004
abbrev fRST_CAUSE_CAUSES : Fld := ⟨rRST_CAUSE, 13, 1⟩
abbrev rRST_LAST : Nat := 0x10008
abbrev fRST_LAST_CAUSE : Fld := ⟨rRST_LAST, 31, 24⟩
abbrev fRST_LAST_DETAIL : Fld := ⟨rRST_LAST, 23, 0⟩
abbrev rRST_START : Nat := 0x1000c
abbrev fRST_START_PHASE : Fld := ⟨rRST_START, 31, 28⟩
abbrev fRST_START_MODE_SEL : Fld := ⟨rRST_START, 27, 26⟩
abbrev fRST_START_WARM : Fld := ⟨rRST_START, 25, 25⟩
abbrev fRST_START_WHY : Fld := ⟨rRST_START, 24, 22⟩
abbrev fRST_START_LIMIT : Fld := ⟨rRST_START, 11, 8⟩
abbrev fRST_START_FAIL_COUNT : Fld := ⟨rRST_START, 7, 4⟩
abbrev rRST_CLOCK : Nat := 0x10010
abbrev fRST_CLOCK_LOST : Fld := ⟨rRST_CLOCK, 31, 31⟩
abbrev fRST_CLOCK_MGT_OK : Fld := ⟨rRST_CLOCK, 2, 2⟩
abbrev fRST_CLOCK_MAIN_OK : Fld := ⟨rRST_CLOCK, 1, 1⟩
abbrev fRST_CLOCK_TCXO_OK : Fld := ⟨rRST_CLOCK, 0, 0⟩
abbrev rRST_FLUSH : Nat := 0x10014
abbrev fRST_FLUSH_RESULT : Fld := ⟨rRST_FLUSH, 31, 28⟩
abbrev fRST_FLUSH_US : Fld := ⟨rRST_FLUSH, 23, 0⟩
abbrev rRST_RETAIN : Nat := 0x10018
abbrev fRST_RETAIN_BUSY : Fld := ⟨rRST_RETAIN, 31, 31⟩
abbrev fRST_RETAIN_RESULT : Fld := ⟨rRST_RETAIN, 30, 28⟩
abbrev fRST_RETAIN_KB : Fld := ⟨rRST_RETAIN, 23, 0⟩
abbrev rRST_RETAIN_CYCLE_LO : Nat := 0x1001c
abbrev fRST_RETAIN_CYCLE_LO_CYCLE : Fld := ⟨rRST_RETAIN_CYCLE_LO, 31, 0⟩
abbrev rRST_RETAIN_CYCLE_HI : Nat := 0x10020
abbrev fRST_RETAIN_CYCLE_HI_CYCLE : Fld := ⟨rRST_RETAIN_CYCLE_HI, 31, 0⟩
abbrev rRST_OPT : Nat := 0x10024
abbrev fRST_OPT_COPY0_OK : Fld := ⟨rRST_OPT, 31, 31⟩
abbrev fRST_OPT_COPY1_OK : Fld := ⟨rRST_OPT, 30, 30⟩
abbrev fRST_OPT_SRC : Fld := ⟨rRST_OPT, 29, 28⟩
abbrev fRST_OPT_SEQ : Fld := ⟨rRST_OPT, 27, 0⟩
abbrev rRST_WDT_CAP : Nat := 0x10030
abbrev fRST_WDT_CAP_KIND : Fld := ⟨rRST_WDT_CAP, 31, 28⟩
abbrev fRST_WDT_CAP_PAIR : Fld := ⟨rRST_WDT_CAP, 27, 24⟩
abbrev fRST_WDT_CAP_VALID : Fld := ⟨rRST_WDT_CAP, 23, 23⟩
abbrev fRST_WDT_CAP_PC : Fld := ⟨rRST_WDT_CAP, 15, 0⟩
abbrev rRST_WDT_CAP_LT_LO : Nat := 0x10034
abbrev fRST_WDT_CAP_LT_LO_LT : Fld := ⟨rRST_WDT_CAP_LT_LO, 31, 0⟩
abbrev rRST_WDT_CAP_LT_HI : Nat := 0x10038
abbrev fRST_WDT_CAP_LT_HI_LT : Fld := ⟨rRST_WDT_CAP_LT_HI, 31, 0⟩
abbrev rWDT_CFG : Nat := 0x10100
abbrev fWDT_CFG_WINDOW : Fld := ⟨rWDT_CFG, 31, 28⟩
abbrev fWDT_CFG_PERIOD : Fld := ⟨rWDT_CFG, 19, 0⟩
abbrev rWDT_STAT : Nat := 0x10104
abbrev fWDT_STAT_STATE : Fld := ⟨rWDT_STAT, 31, 28⟩
abbrev fWDT_STAT_ELAPSED : Fld := ⟨rWDT_STAT, 19, 0⟩
abbrev rWDT_LAST_SVC_LO : Nat := 0x10108
abbrev fWDT_LAST_SVC_LO_LT : Fld := ⟨rWDT_LAST_SVC_LO, 31, 0⟩
abbrev rWDT_LAST_SVC_HI : Nat := 0x1010c
abbrev fWDT_LAST_SVC_HI_LT : Fld := ⟨rWDT_LAST_SVC_HI, 31, 0⟩
abbrev rWDT_CNT_SVC : Nat := 0x10110
abbrev fWDT_CNT_SVC_COUNT : Fld := ⟨rWDT_CNT_SVC, 31, 0⟩

def rstRows0 : List RegRow := [
  ⟨0x10000, 1, 0, 1, 0, 1, 0, [⟨15, 8, .wo, 0, []⟩, ⟨1, 1, .wo, 0, []⟩, ⟨0, 0, .wo, 0, []⟩]⟩,
  ⟨0x10004, 1, 0, 1, 0, 1, 0, [⟨13, 1, .w1c, 0, []⟩]⟩,
  ⟨0x10008, 1, 0, 1, 0, 1, 0, [⟨31, 24, .ro, 0, []⟩, ⟨23, 0, .ro, 0, []⟩]⟩,
  ⟨0x1000c, 1, 0, 1, 0, 1, 0, [⟨31, 28, .ro, 0, []⟩, ⟨27, 26, .ro, 0, []⟩, ⟨25, 25, .ro, 0, []⟩, ⟨24, 22, .ro, 0, []⟩, ⟨11, 8, .ro, 3, []⟩, ⟨7, 4, .ro, 0, []⟩]⟩,
  ⟨0x10010, 1, 0, 1, 0, 1, 0, [⟨31, 31, .w1c, 0, []⟩, ⟨2, 2, .ro, 1, []⟩, ⟨1, 1, .ro, 1, []⟩, ⟨0, 0, .ro, 1, []⟩]⟩,
  ⟨0x10014, 1, 0, 1, 0, 1, 0, [⟨31, 28, .ro, 0, []⟩, ⟨23, 0, .ro, 0, []⟩]⟩,
  ⟨0x10018, 1, 0, 1, 0, 1, 0, [⟨31, 31, .ro, 0, []⟩, ⟨30, 28, .ro, 0, []⟩, ⟨23, 0, .ro, 0, []⟩]⟩,
  ⟨0x1001c, 1, 0, 1, 0, 1, 0, [⟨31, 0, .ro, 0, []⟩]⟩,
  ⟨0x10020, 1, 0, 1, 0, 1, 0, [⟨31, 0, .ro, 0, []⟩]⟩,
  ⟨0x10024, 1, 0, 1, 0, 1, 0, [⟨31, 31, .ro, 0, []⟩, ⟨30, 30, .ro, 0, []⟩, ⟨29, 28, .ro, 2, []⟩, ⟨27, 0, .ro, 0, []⟩]⟩,
  ⟨0x10030, 1, 0, 1, 0, 1, 0, [⟨31, 28, .ro, 0, []⟩, ⟨27, 24, .ro, 0, []⟩, ⟨23, 23, .ro, 0, []⟩, ⟨15, 0, .ro, 0, []⟩]⟩,
  ⟨0x10034, 1, 0, 1, 0, 1, 0, [⟨31, 0, .ro, 0, []⟩]⟩,
  ⟨0x10038, 1, 0, 1, 0, 1, 0, [⟨31, 0, .ro, 0, []⟩]⟩,
  ⟨0x10100, 1, 0, 1, 0, 1, 0, [⟨31, 28, .ro, 1, []⟩, ⟨19, 0, .ro, 0x2710, []⟩]⟩,
  ⟨0x10104, 1, 0, 1, 0, 1, 0, [⟨31, 28, .ro, 0, []⟩, ⟨19, 0, .ro, 0, []⟩]⟩,
  ⟨0x10108, 1, 0, 1, 0, 1, 0, [⟨31, 0, .ro, 0, []⟩]⟩,
  ⟨0x1010c, 1, 0, 1, 0, 1, 0, [⟨31, 0, .ro, 0, []⟩]⟩,
  ⟨0x10110, 1, 0, 1, 0, 1, 0, [⟨31, 0, .ro, 0, []⟩]⟩]

/-- The register table of the RST block. -/
def rstRows : List RegRow := rstRows0

/-! ### EVT block (chapter 06) -/

abbrev rEVT_CTRL : Nat := 0x20000
abbrev fEVT_CTRL_LOCK : Fld := ⟨rEVT_CTRL, 31, 31⟩
abbrev rEVT_STAT : Nat := 0x20004
abbrev fEVT_STAT_ALM_ERR : Fld := ⟨rEVT_STAT, 1, 1⟩
abbrev fEVT_STAT_MERGED : Fld := ⟨rEVT_STAT, 0, 0⟩
abbrev rEVT_LT_LO : Nat := 0x20008
abbrev fEVT_LT_LO_LT : Fld := ⟨rEVT_LT_LO, 31, 0⟩
abbrev rEVT_LT_HI : Nat := 0x2000c
abbrev fEVT_LT_HI_LT : Fld := ⟨rEVT_LT_HI, 31, 0⟩
abbrev rEVT_LT_ADJ : Nat := 0x20010
abbrev fEVT_LT_ADJ_ADJ : Fld := ⟨rEVT_LT_ADJ, 31, 0⟩
abbrev rEVT_CNT_MERGE : Nat := 0x20018
abbrev fEVT_CNT_MERGE_COUNT : Fld := ⟨rEVT_CNT_MERGE, 31, 0⟩
abbrev rEVT_CNT_CLR : Nat := 0x2001c
abbrev fEVT_CNT_CLR_CLR : Fld := ⟨rEVT_CNT_CLR, 0, 0⟩
abbrev rEVT_SW_RAISE : Nat := 0x20020
abbrev fEVT_SW_RAISE_SRC : Fld := ⟨rEVT_SW_RAISE, 9, 0⟩
abbrev rEVT_SRC_STAT (n : Nat) : Nat := 0x20040 + n * 4
abbrev fEVT_SRC_STAT_RAISED (n : Nat) : Fld := ⟨rEVT_SRC_STAT n, 31, 0⟩
abbrev rEVT_PEND (n : Nat) : Nat := 0x20800 + n * 4
abbrev fEVT_PEND_WAITING (n : Nat) : Fld := ⟨rEVT_PEND n, 16, 16⟩
abbrev fEVT_PEND_SLOT (n : Nat) : Fld := ⟨rEVT_PEND n, 8, 1⟩
abbrev fEVT_PEND_OWN (n : Nat) : Fld := ⟨rEVT_PEND n, 0, 0⟩
abbrev rEVT_ROUTE (n : Nat) : Nat := 0x21000 + n * 4
abbrev fEVT_ROUTE_LOG (n : Nat) : Fld := ⟨rEVT_ROUTE n, 31, 31⟩
abbrev fEVT_ROUTE_MGT (n : Nat) : Fld := ⟨rEVT_ROUTE n, 30, 30⟩
abbrev fEVT_ROUTE_HOST_EN (n : Nat) : Fld := ⟨rEVT_ROUTE n, 29, 29⟩
abbrev fEVT_ROUTE_FUNC (n : Nat) : Fld := ⟨rEVT_ROUTE n, 24, 16⟩
abbrev fEVT_ROUTE_VECTOR (n : Nat) : Fld := ⟨rEVT_ROUTE n, 9, 0⟩
abbrev rEVT_SRC_CNT (n : Nat) : Nat := 0x22000 + n * 4
abbrev fEVT_SRC_CNT_COUNT (n : Nat) : Fld := ⟨rEVT_SRC_CNT n, 31, 0⟩
abbrev rEVT_ALM_CTRL (n : Nat) : Nat := 0x23000 + n * 0x20
abbrev fEVT_ALM_CTRL_EN (n : Nat) : Fld := ⟨rEVT_ALM_CTRL n, 31, 31⟩
abbrev fEVT_ALM_CTRL_ACTIVE (n : Nat) : Fld := ⟨rEVT_ALM_CTRL n, 30, 30⟩
abbrev fEVT_ALM_CTRL_EDGE (n : Nat) : Fld := ⟨rEVT_ALM_CTRL n, 29, 28⟩
abbrev fEVT_ALM_CTRL_MODE (n : Nat) : Fld := ⟨rEVT_ALM_CTRL n, 27, 24⟩
abbrev fEVT_ALM_CTRL_WIDTH (n : Nat) : Fld := ⟨rEVT_ALM_CTRL n, 23, 22⟩
abbrev fEVT_ALM_CTRL_SIGNED (n : Nat) : Fld := ⟨rEVT_ALM_CTRL n, 21, 21⟩
abbrev rEVT_ALM_ADDR (n : Nat) : Nat := 0x23004 + n * 0x20
abbrev fEVT_ALM_ADDR_ADDR (n : Nat) : Fld := ⟨rEVT_ALM_ADDR n, 25, 0⟩
abbrev rEVT_ALM_A (n : Nat) : Nat := 0x23008 + n * 0x20
abbrev fEVT_ALM_A_VALUE (n : Nat) : Fld := ⟨rEVT_ALM_A n, 31, 0⟩
abbrev rEVT_ALM_B (n : Nat) : Nat := 0x2300c + n * 0x20
abbrev fEVT_ALM_B_VALUE (n : Nat) : Fld := ⟨rEVT_ALM_B n, 31, 0⟩
abbrev rEVT_ALM_HYST (n : Nat) : Nat := 0x23010 + n * 0x20
abbrev fEVT_ALM_HYST_VALUE (n : Nat) : Fld := ⟨rEVT_ALM_HYST n, 31, 0⟩
abbrev rEVT_ALM_VALUE (n : Nat) : Nat := 0x23014 + n * 0x20
abbrev fEVT_ALM_VALUE_V (n : Nat) : Fld := ⟨rEVT_ALM_VALUE n, 31, 0⟩
abbrev rEVT_ALM_CNT (n : Nat) : Nat := 0x23018 + n * 0x20
abbrev fEVT_ALM_CNT_COUNT (n : Nat) : Fld := ⟨rEVT_ALM_CNT n, 31, 0⟩

def evtRows0 : List RegRow := [
  ⟨0x20000, 1, 0, 1, 0, 1, 0, [⟨31, 31, .w1s, 0, []⟩]⟩,
  ⟨0x20004, 1, 0, 1, 0, 1, 0, [⟨1, 1, .w1c, 0, []⟩, ⟨0, 0, .w1c, 0, []⟩]⟩,
  ⟨0x20008, 1, 0, 1, 0, 1, 0, [⟨31, 0, .ro, 0, []⟩]⟩,
  ⟨0x2000c, 1, 0, 1, 0, 1, 0, [⟨31, 0, .ro, 0, []⟩]⟩,
  ⟨0x20010, 1, 0, 1, 0, 1, 0, [⟨31, 0, .ro, 0, []⟩]⟩,
  ⟨0x20018, 1, 0, 1, 0, 1, 0, [⟨31, 0, .ro, 0, []⟩]⟩,
  ⟨0x2001c, 1, 0, 1, 0, 1, 0, [⟨0, 0, .wo, 0, []⟩]⟩,
  ⟨0x20020, 1, 0, 1, 0, 1, 0, [⟨9, 0, .wo, 0, [(0, 0x2ff)]⟩]⟩,
  ⟨0x20040, 0x18, 4, 1, 0, 1, 0, [⟨31, 0, .w1c, 0, []⟩]⟩,
  ⟨0x20800, 0x100, 4, 1, 0, 1, 0, [⟨16, 16, .ro, 0, []⟩, ⟨8, 1, .ro, 0, []⟩, ⟨0, 0, .ro, 0, []⟩]⟩,
  ⟨0x21000, 0x300, 4, 1, 0, 1, 0, [⟨31, 31, .rwl, 0, []⟩, ⟨30, 30, .rwl, 0, []⟩, ⟨29, 29, .rwl, 0, []⟩, ⟨24, 16, .rwl, 0, [(0, 0x100)]⟩, ⟨9, 0, .rwl, 0, []⟩]⟩,
  ⟨0x22000, 0x300, 4, 1, 0, 1, 0, [⟨31, 0, .ro, 0, []⟩]⟩,
  ⟨0x23000, 0x40, 0x20, 1, 0, 1, 0, [⟨31, 31, .rw, 0, []⟩, ⟨30, 30, .ro, 0, []⟩, ⟨29, 28, .rw, 0, [(0, 2)]⟩, ⟨27, 24, .rw, 0, [(0, 6)]⟩, ⟨23, 22, .rw, 2, [(0, 2)]⟩, ⟨21, 21, .rw, 0, []⟩]⟩,
  ⟨0x23004, 0x40, 0x20, 1, 0, 1, 0, [⟨25, 0, .rw, 0x2000000, [(0x2000000, 0x39fffff), (0x1000000, 0x17fffff)]⟩]⟩,
  ⟨0x23008, 0x40, 0x20, 1, 0, 1, 0, [⟨31, 0, .rw, 0, []⟩]⟩,
  ⟨0x2300c, 0x40, 0x20, 1, 0, 1, 0, [⟨31, 0, .rw, 0, []⟩]⟩,
  ⟨0x23010, 0x40, 0x20, 1, 0, 1, 0, [⟨31, 0, .rw, 0, []⟩]⟩,
  ⟨0x23014, 0x40, 0x20, 1, 0, 1, 0, [⟨31, 0, .ro, 0, []⟩]⟩,
  ⟨0x23018, 0x40, 0x20, 1, 0, 1, 0, [⟨31, 0, .ro, 0, []⟩]⟩]

/-- The register table of the EVT block. -/
def evtRows : List RegRow := evtRows0

/-! ### SCHED block (chapter 02) -/

abbrev rSCHED_CTRL : Nat := 0x30000
abbrev fSCHED_CTRL_LOCK : Fld := ⟨rSCHED_CTRL, 31, 31⟩
abbrev fSCHED_CTRL_NOHARV_LIMIT : Fld := ⟨rSCHED_CTRL, 15, 8⟩
abbrev rSCHED_BC : Nat := 0x30004
abbrev fSCHED_BC_BC_ACTIVE : Fld := ⟨rSCHED_BC, 25, 16⟩
abbrev fSCHED_BC_BC : Fld := ⟨rSCHED_BC, 9, 0⟩
abbrev rSCHED_APPLY_OFS : Nat := 0x30008
abbrev fSCHED_APPLY_OFS_OFS : Fld := ⟨rSCHED_APPLY_OFS, 19, 0⟩
abbrev rSCHED_APPLY_MIN : Nat := 0x3000c
abbrev fSCHED_APPLY_MIN_MIN : Fld := ⟨rSCHED_APPLY_MIN, 19, 0⟩
abbrev rSCHED_RIPE_GRACE : Nat := 0x30010
abbrev fSCHED_RIPE_GRACE_GRACE : Fld := ⟨rSCHED_RIPE_GRACE, 10, 0⟩
abbrev rSCHED_G_SLACK : Nat := 0x30014
abbrev fSCHED_G_SLACK_SLACK : Fld := ⟨rSCHED_G_SLACK, 19, 0⟩
abbrev rSCHED_SPARE : Nat := 0x30018
abbrev fSCHED_SPARE_SPARE1 : Fld := ⟨rSCHED_SPARE, 13, 8⟩
abbrev fSCHED_SPARE_SPARE0 : Fld := ⟨rSCHED_SPARE, 5, 0⟩
abbrev rSCHED_STAT : Nat := 0x30020
abbrev fSCHED_STAT_SCALAR_OVR : Fld := ⟨rSCHED_STAT, 8, 8⟩
abbrev fSCHED_STAT_S_LATE : Fld := ⟨rSCHED_STAT, 7, 7⟩
abbrev fSCHED_STAT_STRETCH : Fld := ⟨rSCHED_STAT, 6, 6⟩
abbrev fSCHED_STAT_SKIP_LOAD : Fld := ⟨rSCHED_STAT, 5, 5⟩
abbrev fSCHED_STAT_NO_HARVEST : Fld := ⟨rSCHED_STAT, 4, 4⟩
abbrev fSCHED_STAT_RIPE_DELAY : Fld := ⟨rSCHED_STAT, 3, 3⟩
abbrev fSCHED_STAT_OVERBUDGET : Fld := ⟨rSCHED_STAT, 2, 2⟩
abbrev fSCHED_STAT_NO_SPARE : Fld := ⟨rSCHED_STAT, 1, 1⟩
abbrev fSCHED_STAT_OVERCOMMIT : Fld := ⟨rSCHED_STAT, 0, 0⟩
abbrev rSCHED_PAIRS : Nat := 0x30024
abbrev fSCHED_PAIRS_IN_SERVICE : Fld := ⟨rSCHED_PAIRS, 13, 8⟩
abbrev fSCHED_PAIRS_SPARES_LEFT : Fld := ⟨rSCHED_PAIRS, 1, 0⟩
abbrev rSCHED_FENCED_LO : Nat := 0x30028
abbrev fSCHED_FENCED_LO_FENCED : Fld := ⟨rSCHED_FENCED_LO, 31, 0⟩
abbrev rSCHED_FENCED_HI : Nat := 0x3002c
abbrev fSCHED_FENCED_HI_FENCED : Fld := ⟨rSCHED_FENCED_HI, 1, 0⟩
abbrev rSCHED_CAPACITY : Nat := 0x30030
abbrev fSCHED_CAPACITY_CLOCKS : Fld := ⟨rSCHED_CAPACITY, 31, 0⟩
abbrev rSCHED_DEMAND : Nat := 0x30034
abbrev fSCHED_DEMAND_CLOCKS : Fld := ⟨rSCHED_DEMAND, 31, 0⟩
abbrev rSCHED_ROW_MAX : Nat := 0x30038
abbrev fSCHED_ROW_MAX_CLOCKS : Fld := ⟨rSCHED_ROW_MAX, 31, 0⟩
abbrev rSCHED_ADMIT : Nat := 0x3003c
abbrev fSCHED_ADMIT_RESULT : Fld := ⟨rSCHED_ADMIT, 31, 24⟩
abbrev fSCHED_ADMIT_PARTITION : Fld := ⟨rSCHED_ADMIT, 7, 0⟩
abbrev rSCHED_CYCLE_LO : Nat := 0x30040
abbrev fSCHED_CYCLE_LO_CYCLE : Fld := ⟨rSCHED_CYCLE_LO, 31, 0⟩
abbrev rSCHED_CYCLE_HI : Nat := 0x30044
abbrev fSCHED_CYCLE_HI_CYCLE : Fld := ⟨rSCHED_CYCLE_HI, 31, 0⟩
abbrev rSCHED_BUSY : Nat := 0x30048
abbrev fSCHED_BUSY_CLOCKS : Fld := ⟨rSCHED_BUSY, 31, 0⟩
abbrev rSCHED_CNT_STRETCH : Nat := 0x30050
abbrev fSCHED_CNT_STRETCH_COUNT : Fld := ⟨rSCHED_CNT_STRETCH, 31, 0⟩
abbrev rSCHED_CNT_SKIP : Nat := 0x30054
abbrev fSCHED_CNT_SKIP_COUNT : Fld := ⟨rSCHED_CNT_SKIP, 31, 0⟩
abbrev rSCHED_CNT_NOHARV : Nat := 0x30058
abbrev fSCHED_CNT_NOHARV_COUNT : Fld := ⟨rSCHED_CNT_NOHARV, 31, 0⟩
abbrev rSCHED_CNT_RIPEDLY : Nat := 0x3005c
abbrev fSCHED_CNT_RIPEDLY_COUNT : Fld := ⟨rSCHED_CNT_RIPEDLY, 31, 0⟩
abbrev rSCHED_CNT_VOID : Nat := 0x30060
abbrev fSCHED_CNT_VOID_COUNT : Fld := ⟨rSCHED_CNT_VOID, 31, 0⟩
abbrev rSCHED_CNT_CLR : Nat := 0x3006c
abbrev fSCHED_CNT_CLR_CLR : Fld := ⟨rSCHED_CNT_CLR, 0, 0⟩
abbrev rSCHED_P_SERVED (n : Nat) : Nat := 0x31000 + n * 0x20
abbrev fSCHED_P_SERVED_COUNT (n : Nat) : Fld := ⟨rSCHED_P_SERVED n, 31, 0⟩
abbrev rSCHED_P_STRETCHED (n : Nat) : Nat := 0x31004 + n * 0x20
abbrev fSCHED_P_STRETCHED_COUNT (n : Nat) : Fld := ⟨rSCHED_P_STRETCHED n, 31, 0⟩
abbrev rSCHED_P_SKIPPED (n : Nat) : Nat := 0x31008 + n * 0x20
abbrev fSCHED_P_SKIPPED_COUNT (n : Nat) : Fld := ⟨rSCHED_P_SKIPPED n, 31, 0⟩
abbrev rSCHED_P_NOHARV (n : Nat) : Nat := 0x3100c + n * 0x20
abbrev fSCHED_P_NOHARV_COUNT (n : Nat) : Fld := ⟨rSCHED_P_NOHARV n, 31, 0⟩
abbrev rSCHED_P_EST (n : Nat) : Nat := 0x31010 + n * 0x20
abbrev fSCHED_P_EST_CLOCKS (n : Nat) : Fld := ⟨rSCHED_P_EST n, 31, 0⟩
abbrev rSCHED_P_SLACK_LAST (n : Nat) : Nat := 0x31014 + n * 0x20
abbrev fSCHED_P_SLACK_LAST_NS (n : Nat) : Fld := ⟨rSCHED_P_SLACK_LAST n, 31, 0⟩
abbrev rSCHED_P_SLACK_MIN (n : Nat) : Nat := 0x31018 + n * 0x20
abbrev fSCHED_P_SLACK_MIN_NS (n : Nat) : Fld := ⟨rSCHED_P_SLACK_MIN n, 31, 0⟩
abbrev rSCHED_P_CLR (n : Nat) : Nat := 0x3101c + n * 0x20
abbrev fSCHED_P_CLR_CLR (n : Nat) : Fld := ⟨rSCHED_P_CLR n, 0, 0⟩
abbrev rSCHED_ROW_STAT (n : Nat) : Nat := 0x34000 + n * 4
abbrev fSCHED_ROW_STAT_OUTCOME (n : Nat) : Fld := ⟨rSCHED_ROW_STAT n, 31, 28⟩
abbrev fSCHED_ROW_STAT_NOHARV_RUN (n : Nat) : Fld := ⟨rSCHED_ROW_STAT n, 23, 16⟩
abbrev fSCHED_ROW_STAT_PAIR (n : Nat) : Fld := ⟨rSCHED_ROW_STAT n, 13, 8⟩
abbrev fSCHED_ROW_STAT_LATE (n : Nat) : Fld := ⟨rSCHED_ROW_STAT n, 3, 3⟩
abbrev fSCHED_ROW_STAT_CLAIM (n : Nat) : Fld := ⟨rSCHED_ROW_STAT n, 2, 0⟩

def schedRows0 : List RegRow := [
  ⟨0x30000, 1, 0, 1, 0, 1, 0, [⟨31, 31, .w1s, 0, []⟩, ⟨15, 8, .rw, 0xc, [(1, 0xff)]⟩]⟩,
  ⟨0x30004, 1, 0, 1, 0, 1, 0, [⟨25, 16, .ro, 0xa, []⟩, ⟨9, 0, .rw, 0xa, [(0xa, 0x3e8)]⟩]⟩,
  ⟨0x30008, 1, 0, 1, 0, 1, 0, [⟨19, 0, .rw, 0x1770, []⟩]⟩,
  ⟨0x3000c, 1, 0, 1, 0, 1, 0, [⟨19, 0, .ro, 0x10e5, []⟩]⟩,
  ⟨0x30010, 1, 0, 1, 0, 1, 0, [⟨10, 0, .rw, 0xc8, [(0x96, 0x7d0)]⟩]⟩,
  ⟨0x30014, 1, 0, 1, 0, 1, 0, [⟨19, 0, .rw, 0x7d0, []⟩]⟩,
  ⟨0x30018, 1, 0, 1, 0, 1, 0, [⟨13, 8, .rwl, 0x21, []⟩, ⟨5, 0, .rwl, 0x20, []⟩]⟩,
  ⟨0x30020, 1, 0, 1, 0, 1, 0, [⟨8, 8, .w1c, 0, []⟩, ⟨7, 7, .w1c, 0, []⟩, ⟨6, 6, .w1c, 0, []⟩, ⟨5, 5, .w1c, 0, []⟩, ⟨4, 4, .w1c, 0, []⟩, ⟨3, 3, .w1c, 0, []⟩, ⟨2, 2, .w1c, 0, []⟩, ⟨1, 1, .ro, 0, []⟩, ⟨0, 0, .ro, 0, []⟩]⟩,
  ⟨0x30024, 1, 0, 1, 0, 1, 0, [⟨13, 8, .ro, 0x20, []⟩, ⟨1, 0, .ro, 2, []⟩]⟩,
  ⟨0x30028, 1, 0, 1, 0, 1, 0, [⟨31, 0, .ro, 0, []⟩]⟩,
  ⟨0x3002c, 1, 0, 1, 0, 1, 0, [⟨1, 0, .ro, 0, []⟩]⟩,
  ⟨0x30030, 1, 0, 1, 0, 1, 0, [⟨31, 0, .ro, 0x5fb40, []⟩]⟩,
  ⟨0x30034, 1, 0, 1, 0, 1, 0, [⟨31, 0, .ro, 0, []⟩]⟩,
  ⟨0x30038, 1, 0, 1, 0, 1, 0, [⟨31, 0, .ro, 0xda2, []⟩]⟩,
  ⟨0x3003c, 1, 0, 1, 0, 1, 0, [⟨31, 24, .ro, 0, []⟩, ⟨7, 0, .ro, 0, []⟩]⟩,
  ⟨0x30040, 1, 0, 1, 0, 1, 0, [⟨31, 0, .ro, 0, []⟩]⟩,
  ⟨0x30044, 1, 0, 1, 0, 1, 0, [⟨31, 0, .ro, 0, []⟩]⟩,
  ⟨0x30048, 1, 0, 1, 0, 1, 0, [⟨31, 0, .ro, 0, []⟩]⟩,
  ⟨0x30050, 1, 0, 1, 0, 1, 0, [⟨31, 0, .ro, 0, []⟩]⟩,
  ⟨0x30054, 1, 0, 1, 0, 1, 0, [⟨31, 0, .ro, 0, []⟩]⟩]

def schedRows1 : List RegRow := [
  ⟨0x30058, 1, 0, 1, 0, 1, 0, [⟨31, 0, .ro, 0, []⟩]⟩,
  ⟨0x3005c, 1, 0, 1, 0, 1, 0, [⟨31, 0, .ro, 0, []⟩]⟩,
  ⟨0x30060, 1, 0, 1, 0, 1, 0, [⟨31, 0, .ro, 0, []⟩]⟩,
  ⟨0x3006c, 1, 0, 1, 0, 1, 0, [⟨0, 0, .wo, 0, []⟩]⟩,
  ⟨0x31000, 0x100, 0x20, 1, 0, 1, 0, [⟨31, 0, .ro, 0, []⟩]⟩,
  ⟨0x31004, 0x100, 0x20, 1, 0, 1, 0, [⟨31, 0, .ro, 0, []⟩]⟩,
  ⟨0x31008, 0x100, 0x20, 1, 0, 1, 0, [⟨31, 0, .ro, 0, []⟩]⟩,
  ⟨0x3100c, 0x100, 0x20, 1, 0, 1, 0, [⟨31, 0, .ro, 0, []⟩]⟩,
  ⟨0x31010, 0x100, 0x20, 1, 0, 1, 0, [⟨31, 0, .ro, 0, []⟩]⟩,
  ⟨0x31014, 0x100, 0x20, 1, 0, 1, 0, [⟨31, 0, .ro, 0, []⟩]⟩,
  ⟨0x31018, 0x100, 0x20, 1, 0, 1, 0, [⟨31, 0, .ro, 0x7fffffff, []⟩]⟩,
  ⟨0x3101c, 0x100, 0x20, 1, 0, 1, 0, [⟨0, 0, .wo, 0, []⟩]⟩,
  ⟨0x34000, 0x200, 4, 1, 0, 1, 0, [⟨31, 28, .ro, 0xa, []⟩, ⟨23, 16, .ro, 0, []⟩, ⟨13, 8, .ro, 0x3f, []⟩, ⟨3, 3, .ro, 0, []⟩, ⟨2, 0, .ro, 0, []⟩]⟩]

/-- The register table of the SCHED block. -/
def schedRows : List RegRow := schedRows0 ++ schedRows1

/-! ### PART block (chapter 03) -/

abbrev rPART_CTRL (n : Nat) : Nat := 0x40000 + n * 0x100
abbrev fPART_CTRL_LOCK (n : Nat) : Fld := ⟨rPART_CTRL n, 31, 31⟩
abbrev fPART_CTRL_REQ (n : Nat) : Fld := ⟨rPART_CTRL n, 1, 0⟩
abbrev rPART_STAT (n : Nat) : Nat := 0x40004 + n * 0x100
abbrev fPART_STAT_CAUSE (n : Nat) : Fld := ⟨rPART_STAT n, 15, 12⟩
abbrev fPART_STAT_BUSY (n : Nat) : Fld := ⟨rPART_STAT n, 8, 8⟩
abbrev fPART_STAT_CUR (n : Nat) : Fld := ⟨rPART_STAT n, 1, 0⟩
abbrev rPART_CFG (n : Nat) : Nat := 0x40008 + n * 0x100
abbrev fPART_CFG_PRIO (n : Nat) : Fld := ⟨rPART_CFG n, 31, 24⟩
abbrev fPART_CFG_SCALAR_EN (n : Nat) : Fld := ⟨rPART_CFG n, 20, 20⟩
abbrev fPART_CFG_SCALAR_PAIR (n : Nat) : Fld := ⟨rPART_CFG n, 19, 16⟩
abbrev fPART_CFG_CLASS (n : Nat) : Fld := ⟨rPART_CFG n, 1, 0⟩
abbrev rPART_SCAN (n : Nat) : Nat := 0x4000c + n * 0x100
abbrev fPART_SCAN_SPREAD (n : Nat) : Fld := ⟨rPART_SCAN n, 31, 31⟩
abbrev fPART_SCAN_PHASE (n : Nat) : Fld := ⟨rPART_SCAN n, 27, 16⟩
abbrev fPART_SCAN_PERIOD (n : Nat) : Fld := ⟨rPART_SCAN n, 12, 0⟩
abbrev rPART_BUDGET (n : Nat) : Nat := 0x40010 + n * 0x100
abbrev fPART_BUDGET_BUDGET (n : Nat) : Fld := ⟨rPART_BUDGET n, 23, 0⟩
abbrev rPART_CODE (n : Nat) : Nat := 0x40014 + n * 0x100
abbrev fPART_CODE_SIZE (n : Nat) : Fld := ⟨rPART_CODE n, 31, 24⟩
abbrev fPART_CODE_BASE (n : Nat) : Fld := ⟨rPART_CODE n, 12, 0⟩
abbrev rPART_FAULT_ENTRY (n : Nat) : Nat := 0x40018 + n * 0x100
abbrev fPART_FAULT_ENTRY_ENTRY (n : Nat) : Fld := ⟨rPART_FAULT_ENTRY n, 15, 0⟩
abbrev rPART_DATA (n : Nat) : Nat := 0x4001c + n * 0x100
abbrev fPART_DATA_SIZE (n : Nat) : Fld := ⟨rPART_DATA n, 22, 16⟩
abbrev fPART_DATA_BASE (n : Nat) : Fld := ⟨rPART_DATA n, 13, 0⟩
abbrev rPART_STACK (n : Nat) : Nat := 0x40020 + n * 0x100
abbrev fPART_STACK_HI (n : Nat) : Fld := ⟨rPART_STACK n, 31, 16⟩
abbrev fPART_STACK_LO (n : Nat) : Fld := ⟨rPART_STACK n, 15, 0⟩
abbrev rPART_BIND_CH (n : Nat) : Nat := 0x40024 + n * 0x100
abbrev fPART_BIND_CH_CH (n : Nat) : Fld := ⟨rPART_BIND_CH n, 16, 0⟩
abbrev rPART_SEV_BIND (n : Nat) (i : Nat) : Nat := 0x40030 + n * 0x100 + i * 4
abbrev fPART_SEV_BIND_SRC1 (n : Nat) (i : Nat) : Fld := ⟨rPART_SEV_BIND n i, 25, 16⟩
abbrev fPART_SEV_BIND_SRC0 (n : Nat) (i : Nat) : Fld := ⟨rPART_SEV_BIND n i, 9, 0⟩
abbrev rPART_WAIT_BIND (n : Nat) (i : Nat) : Nat := 0x40038 + n * 0x100 + i * 4
abbrev fPART_WAIT_BIND_SRC1 (n : Nat) (i : Nat) : Fld := ⟨rPART_WAIT_BIND n i, 25, 16⟩
abbrev fPART_WAIT_BIND_SRC0 (n : Nat) (i : Nat) : Fld := ⟨rPART_WAIT_BIND n i, 9, 0⟩
abbrev rPART_MBX_MASK (n : Nat) (i : Nat) : Nat := 0x40048 + n * 0x100 + i * 4
abbrev fPART_MBX_MASK_BOUND (n : Nat) (i : Nat) : Fld := ⟨rPART_MBX_MASK n i, 31, 0⟩
abbrev rPART_WIN_BASE (n : Nat) (i : Nat) : Nat := 0x40060 + n * 0x100 + i * 8
abbrev fPART_WIN_BASE_BASE (n : Nat) (i : Nat) : Fld := ⟨rPART_WIN_BASE n i, 25, 12⟩
abbrev rPART_WIN_CTRL (n : Nat) (i : Nat) : Nat := 0x40064 + n * 0x100 + i * 8
abbrev fPART_WIN_CTRL_DONE (n : Nat) (i : Nat) : Fld := ⟨rPART_WIN_CTRL n i, 31, 31⟩
abbrev fPART_WIN_CTRL_EPOCH (n : Nat) (i : Nat) : Fld := ⟨rPART_WIN_CTRL n i, 27, 24⟩
abbrev fPART_WIN_CTRL_LIMIT (n : Nat) (i : Nat) : Fld := ⟨rPART_WIN_CTRL n i, 12, 8⟩
abbrev fPART_WIN_CTRL_WR (n : Nat) (i : Nat) : Fld := ⟨rPART_WIN_CTRL n i, 2, 2⟩
abbrev fPART_WIN_CTRL_RD (n : Nat) (i : Nat) : Fld := ⟨rPART_WIN_CTRL n i, 1, 1⟩
abbrev fPART_WIN_CTRL_EN (n : Nat) (i : Nat) : Fld := ⟨rPART_WIN_CTRL n i, 0, 0⟩
abbrev rPART_ROWMAP (n : Nat) (i : Nat) : Nat := 0x40080 + n * 0x100 + i * 4
abbrev fPART_ROWMAP_ROWS (n : Nat) (i : Nat) : Fld := ⟨rPART_ROWMAP n i, 31, 0⟩
abbrev rPART_FAULT_PC (n : Nat) : Nat := 0x400c0 + n * 0x100
abbrev fPART_FAULT_PC_VALID (n : Nat) : Fld := ⟨rPART_FAULT_PC n, 31, 31⟩
abbrev fPART_FAULT_PC_PC (n : Nat) : Fld := ⟨rPART_FAULT_PC n, 15, 0⟩
abbrev rPART_FAULT_FLAGS (n : Nat) : Nat := 0x400c4 + n * 0x100
abbrev fPART_FAULT_FLAGS_SCALAR (n : Nat) : Fld := ⟨rPART_FAULT_FLAGS n, 31, 31⟩
abbrev fPART_FAULT_FLAGS_ROW (n : Nat) : Fld := ⟨rPART_FAULT_FLAGS n, 24, 16⟩
abbrev fPART_FAULT_FLAGS_LANE (n : Nat) : Fld := ⟨rPART_FAULT_FLAGS n, 15, 8⟩
abbrev fPART_FAULT_FLAGS_F (n : Nat) : Fld := ⟨rPART_FAULT_FLAGS n, 4, 0⟩
abbrev rPART_FAULT_RSP (n : Nat) : Nat := 0x400c8 + n * 0x100
abbrev fPART_FAULT_RSP_PAR (n : Nat) : Fld := ⟨rPART_FAULT_RSP n, 7, 7⟩
abbrev fPART_FAULT_RSP_PAR_BAD (n : Nat) : Fld := ⟨rPART_FAULT_RSP n, 6, 6⟩
abbrev fPART_FAULT_RSP_RSP (n : Nat) : Fld := ⟨rPART_FAULT_RSP n, 5, 0⟩
abbrev rPART_FAULT_CAUSE (n : Nat) : Nat := 0x400cc + n * 0x100
abbrev fPART_FAULT_CAUSE_CAUSE (n : Nat) : Fld := ⟨rPART_FAULT_CAUSE n, 7, 0⟩
abbrev rPART_FAULT_LT_LO (n : Nat) : Nat := 0x400d0 + n * 0x100
abbrev fPART_FAULT_LT_LO_LT (n : Nat) : Fld := ⟨rPART_FAULT_LT_LO n, 31, 0⟩
abbrev rPART_FAULT_LT_HI (n : Nat) : Nat := 0x400d4 + n * 0x100
abbrev fPART_FAULT_LT_HI_LT (n : Nat) : Fld := ⟨rPART_FAULT_LT_HI n, 31, 0⟩
abbrev rPART_FAULT_ADDR (n : Nat) : Nat := 0x400d8 + n * 0x100
abbrev fPART_FAULT_ADDR_ADDR (n : Nat) : Fld := ⟨rPART_FAULT_ADDR n, 25, 0⟩

def partRows0 : List RegRow := [
  ⟨0x40000, 0x100, 0x100, 1, 0, 1, 0, [⟨31, 31, .w1s, 0, []⟩, ⟨1, 0, .rw, 1, [(0, 2)]⟩]⟩,
  ⟨0x40004, 0x100, 0x100, 1, 0, 1, 0, [⟨15, 12, .ro, 0, []⟩, ⟨8, 8, .ro, 0, []⟩, ⟨1, 0, .ro, 1, []⟩]⟩,
  ⟨0x40008, 0x100, 0x100, 1, 0, 1, 0, [⟨31, 24, .rw, 0x80, []⟩, ⟨20, 20, .rw, 0, []⟩, ⟨19, 16, .rw, 0, []⟩, ⟨1, 0, .rw, 3, []⟩]⟩,
  ⟨0x4000c, 0x100, 0x100, 1, 0, 1, 0, [⟨31, 31, .rw, 0, []⟩, ⟨27, 16, .rw, 0, []⟩, ⟨12, 0, .rw, 1, [(1, 0x1000)]⟩]⟩,
  ⟨0x40010, 0x100, 0x100, 1, 0, 1, 0, [⟨23, 0, .rw, 0x10, [(0x10, 0xffffff)]⟩]⟩,
  ⟨0x40014, 0x100, 0x100, 1, 0, 1, 0, [⟨31, 24, .ro, 0, []⟩, ⟨12, 0, .ro, 0, []⟩]⟩,
  ⟨0x40018, 0x100, 0x100, 1, 0, 1, 0, [⟨15, 0, .ro, 0, []⟩]⟩,
  ⟨0x4001c, 0x100, 0x100, 1, 0, 1, 0, [⟨22, 16, .rw, 0, [(0, 0x70)]⟩, ⟨13, 0, .rw, 0, []⟩]⟩,
  ⟨0x40020, 0x100, 0x100, 1, 0, 1, 0, [⟨31, 16, .rw, 0x1000, []⟩, ⟨15, 0, .rw, 0x1000, []⟩]⟩,
  ⟨0x40024, 0x100, 0x100, 1, 0, 1, 0, [⟨16, 0, .rw, 0, []⟩]⟩,
  ⟨0x40030, 0x100, 0x100, 2, 4, 1, 0, [⟨25, 16, .rw, 0x3ff, [(0, 0x2ff), (0x3ff, 0x3ff)]⟩, ⟨9, 0, .rw, 0x3ff, [(0, 0x2ff), (0x3ff, 0x3ff)]⟩]⟩,
  ⟨0x40038, 0x100, 0x100, 4, 4, 1, 0, [⟨25, 16, .rw, 0x3ff, [(0, 0x2ff), (0x3ff, 0x3ff)]⟩, ⟨9, 0, .rw, 0x3ff, [(0, 0x2ff), (0x3ff, 0x3ff)]⟩]⟩,
  ⟨0x40048, 0x100, 0x100, 4, 4, 1, 0, [⟨31, 0, .ro, 0, []⟩]⟩,
  ⟨0x40060, 0x100, 0x100, 4, 8, 1, 0, [⟨25, 12, .rw, 0, []⟩]⟩,
  ⟨0x40064, 0x100, 0x100, 4, 8, 1, 0, [⟨31, 31, .ro, 1, []⟩, ⟨27, 24, .ro, 0, []⟩, ⟨12, 8, .rw, 0x10, [(1, 0x10)]⟩, ⟨2, 2, .rw, 0, []⟩, ⟨1, 1, .rw, 0, []⟩, ⟨0, 0, .rw, 0, []⟩]⟩,
  ⟨0x40080, 0x100, 0x100, 0x10, 4, 1, 0, [⟨31, 0, .rw, 0, []⟩]⟩,
  ⟨0x400c0, 0x100, 0x100, 1, 0, 1, 0, [⟨31, 31, .w1c, 0, []⟩, ⟨15, 0, .ro, 0, []⟩]⟩,
  ⟨0x400c4, 0x100, 0x100, 1, 0, 1, 0, [⟨31, 31, .ro, 0, []⟩, ⟨24, 16, .ro, 0, []⟩, ⟨15, 8, .ro, 0, []⟩, ⟨4, 0, .ro, 0, []⟩]⟩,
  ⟨0x400c8, 0x100, 0x100, 1, 0, 1, 0, [⟨7, 7, .ro, 0, []⟩, ⟨6, 6, .ro, 0, []⟩, ⟨5, 0, .ro, 0, []⟩]⟩,
  ⟨0x400cc, 0x100, 0x100, 1, 0, 1, 0, [⟨7, 0, .ro, 0, []⟩]⟩]

def partRows1 : List RegRow := [
  ⟨0x400d0, 0x100, 0x100, 1, 0, 1, 0, [⟨31, 0, .ro, 0, []⟩]⟩,
  ⟨0x400d4, 0x100, 0x100, 1, 0, 1, 0, [⟨31, 0, .ro, 0, []⟩]⟩,
  ⟨0x400d8, 0x100, 0x100, 1, 0, 1, 0, [⟨25, 0, .ro, 0, []⟩]⟩]

/-- The register table of the PART block. -/
def partRows : List RegRow := partRows0 ++ partRows1

/-! ### PARTC block (chapter 03 and 13) -/

abbrev rPART_RULE : Nat := 0x50000
abbrev fPART_RULE_PEND : Fld := ⟨rPART_RULE, 8, 8⟩
abbrev fPART_RULE_EPOCH : Fld := ⟨rPART_RULE, 3, 0⟩
abbrev rPART_ROW_OWNER (n : Nat) : Nat := 0x51000 + n * 4
abbrev fPART_ROW_OWNER_VALID (n : Nat) : Fld := ⟨rPART_ROW_OWNER n, 8, 8⟩
abbrev fPART_ROW_OWNER_PARTITION (n : Nat) : Fld := ⟨rPART_ROW_OWNER n, 7, 0⟩
abbrev rPART_GRF_CFG : Nat := 0x50010
abbrev fPART_GRF_CFG_LOCK : Fld := ⟨rPART_GRF_CFG, 31, 31⟩
abbrev fPART_GRF_CFG_RACK_TMO : Fld := ⟨rPART_GRF_CFG, 9, 0⟩
abbrev rPART_GRF_CPOOL : Nat := 0x50014
abbrev fPART_GRF_CPOOL_SIZE : Fld := ⟨rPART_GRF_CPOOL, 26, 16⟩
abbrev fPART_GRF_CPOOL_BASE : Fld := ⟨rPART_GRF_CPOOL, 10, 0⟩
abbrev rPART_GRF_MPOOL : Nat := 0x50018
abbrev fPART_GRF_MPOOL_SIZE : Fld := ⟨rPART_GRF_MPOOL, 26, 16⟩
abbrev fPART_GRF_MPOOL_BASE : Fld := ⟨rPART_GRF_MPOOL, 10, 0⟩
abbrev rPART_GRF_FREE : Nat := 0x5001c
abbrev fPART_GRF_FREE_LARGEST : Fld := ⟨rPART_GRF_FREE, 28, 16⟩
abbrev fPART_GRF_FREE_TOTAL : Fld := ⟨rPART_GRF_FREE, 12, 0⟩
abbrev rPART_GRF_GROUP : Nat := 0x50020
abbrev fPART_GRF_GROUP_GO : Fld := ⟨rPART_GRF_GROUP, 0, 0⟩
abbrev rPART_GRF_ROWMIG (n : Nat) : Nat := 0x51800 + n * 4
abbrev fPART_GRF_ROWMIG_CURRENT (n : Nat) : Fld := ⟨rPART_GRF_ROWMIG n, 31, 0⟩
abbrev rPART_GRF_CTRL (n : Nat) : Nat := 0x52000 + n * 0x40
abbrev fPART_GRF_CTRL_ARM (n : Nat) : Fld := ⟨rPART_GRF_CTRL n, 31, 31⟩
abbrev fPART_GRF_CTRL_ABORT (n : Nat) : Fld := ⟨rPART_GRF_CTRL n, 30, 30⟩
abbrev fPART_GRF_CTRL_ROLLBACK (n : Nat) : Fld := ⟨rPART_GRF_CTRL n, 29, 29⟩
abbrev fPART_GRF_CTRL_RELEASE (n : Nat) : Fld := ⟨rPART_GRF_CTRL n, 28, 28⟩
abbrev fPART_GRF_CTRL_GROUP (n : Nat) : Fld := ⟨rPART_GRF_CTRL n, 25, 25⟩
abbrev fPART_GRF_CTRL_NOW (n : Nat) : Fld := ⟨rPART_GRF_CTRL n, 24, 24⟩
abbrev fPART_GRF_CTRL_RECIPE (n : Nat) : Fld := ⟨rPART_GRF_CTRL n, 23, 23⟩
abbrev fPART_GRF_CTRL_WIN (n : Nat) : Fld := ⟨rPART_GRF_CTRL n, 11, 0⟩
abbrev rPART_GRF_STAT (n : Nat) : Nat := 0x52004 + n * 0x40
abbrev fPART_GRF_STAT_STATE (n : Nat) : Fld := ⟨rPART_GRF_STAT n, 31, 28⟩
abbrev fPART_GRF_STAT_RESULT (n : Nat) : Fld := ⟨rPART_GRF_STAT n, 27, 23⟩
abbrev fPART_GRF_STAT_ROWS_OLD (n : Nat) : Fld := ⟨rPART_GRF_STAT n, 9, 0⟩
abbrev rPART_GRF_ALLOC (n : Nat) : Nat := 0x52008 + n * 0x40
abbrev fPART_GRF_ALLOC_CODE_KB (n : Nat) : Fld := ⟨rPART_GRF_ALLOC n, 31, 24⟩
abbrev fPART_GRF_ALLOC_CONST_GRAN (n : Nat) : Fld := ⟨rPART_GRF_ALLOC n, 23, 18⟩
abbrev fPART_GRF_ALLOC_MAPS (n : Nat) : Fld := ⟨rPART_GRF_ALLOC n, 17, 16⟩
abbrev rPART_GRF_PEND_CODE (n : Nat) : Nat := 0x5200c + n * 0x40
abbrev fPART_GRF_PEND_CODE_SIZE (n : Nat) : Fld := ⟨rPART_GRF_PEND_CODE n, 31, 24⟩
abbrev fPART_GRF_PEND_CODE_BASE (n : Nat) : Fld := ⟨rPART_GRF_PEND_CODE n, 12, 0⟩
abbrev rPART_GRF_PEND_TBL (n : Nat) : Nat := 0x52010 + n * 0x40
abbrev fPART_GRF_PEND_TBL_MAP_V (n : Nat) : Fld := ⟨rPART_GRF_PEND_TBL n, 31, 31⟩
abbrev fPART_GRF_PEND_TBL_MAP_AT (n : Nat) : Fld := ⟨rPART_GRF_PEND_TBL n, 30, 16⟩
abbrev fPART_GRF_PEND_TBL_CONST_V (n : Nat) : Fld := ⟨rPART_GRF_PEND_TBL n, 15, 15⟩
abbrev fPART_GRF_PEND_TBL_CONST_AT (n : Nat) : Fld := ⟨rPART_GRF_PEND_TBL n, 14, 0⟩
abbrev rPART_GRF_HDR_A (n : Nat) : Nat := 0x52014 + n * 0x40
abbrev fPART_GRF_HDR_A_CONST_LEN (n : Nat) : Fld := ⟨rPART_GRF_HDR_A n, 31, 16⟩
abbrev fPART_GRF_HDR_A_FAULT_ENTRY (n : Nat) : Fld := ⟨rPART_GRF_HDR_A n, 15, 0⟩
abbrev rPART_GRF_HDR_NEWVAR (n : Nat) : Nat := 0x52018 + n * 0x40
abbrev fPART_GRF_HDR_NEWVAR_VALUE (n : Nat) : Fld := ⟨rPART_GRF_HDR_NEWVAR n, 31, 0⟩
abbrev rPART_GRF_HDR_OLDVAR (n : Nat) : Nat := 0x5201c + n * 0x40
abbrev fPART_GRF_HDR_OLDVAR_VALUE (n : Nat) : Fld := ⟨rPART_GRF_HDR_OLDVAR n, 31, 0⟩
abbrev rPART_GRF_HDR_CRC (n : Nat) : Nat := 0x52020 + n * 0x40
abbrev fPART_GRF_HDR_CRC_VALUE (n : Nat) : Fld := ⟨rPART_GRF_HDR_CRC n, 31, 0⟩
abbrev rPART_GRF_VAR (n : Nat) : Nat := 0x52024 + n * 0x40
abbrev fPART_GRF_VAR_VALUE (n : Nat) : Fld := ⟨rPART_GRF_VAR n, 31, 0⟩
abbrev rPART_GRF_COMMIT (n : Nat) : Nat := 0x52028 + n * 0x40
abbrev fPART_GRF_COMMIT_VALUE (n : Nat) : Fld := ⟨rPART_GRF_COMMIT n, 31, 0⟩
abbrev rPART_GRF_WIN (n : Nat) : Nat := 0x5202c + n * 0x40
abbrev fPART_GRF_WIN_LEFT (n : Nat) : Fld := ⟨rPART_GRF_WIN n, 31, 20⟩
abbrev fPART_GRF_WIN_OLD_BANK (n : Nat) : Fld := ⟨rPART_GRF_WIN n, 17, 0⟩

def partcRows0 : List RegRow := [
  ⟨0x50000, 1, 0, 1, 0, 1, 0, [⟨8, 8, .ro, 0, []⟩, ⟨3, 0, .ro, 0, []⟩]⟩,
  ⟨0x51000, 0x200, 4, 1, 0, 1, 0, [⟨8, 8, .ro, 0, []⟩, ⟨7, 0, .ro, 0, []⟩]⟩,
  ⟨0x50010, 1, 0, 1, 0, 1, 0, [⟨31, 31, .w1s, 0, []⟩, ⟨9, 0, .rwl, 0x64, [(1, 0x3e8)]⟩]⟩,
  ⟨0x50014, 1, 0, 1, 0, 1, 0, [⟨26, 16, .rwl, 0x80, []⟩, ⟨10, 0, .rwl, 0x320, []⟩]⟩,
  ⟨0x50018, 1, 0, 1, 0, 1, 0, [⟨26, 16, .rwl, 0x20, []⟩, ⟨10, 0, .rwl, 0x3a0, []⟩]⟩,
  ⟨0x5001c, 1, 0, 1, 0, 1, 0, [⟨28, 16, .ro, 0x1800, []⟩, ⟨12, 0, .ro, 0x1800, []⟩]⟩,
  ⟨0x50020, 1, 0, 1, 0, 1, 0, [⟨0, 0, .wo, 0, []⟩]⟩,
  ⟨0x51800, 0x10, 4, 1, 0, 1, 0, [⟨31, 0, .ro, 0xffffffff, []⟩]⟩,
  ⟨0x52000, 0x100, 0x40, 1, 0, 1, 0, [⟨31, 31, .wo, 0, []⟩, ⟨30, 30, .wo, 0, []⟩, ⟨29, 29, .wo, 0, []⟩, ⟨28, 28, .wo, 0, []⟩, ⟨25, 25, .rw, 0, []⟩, ⟨24, 24, .rw, 0, []⟩, ⟨23, 23, .rw, 0, []⟩, ⟨11, 0, .rw, 0x12c, []⟩]⟩,
  ⟨0x52004, 0x100, 0x40, 1, 0, 1, 0, [⟨31, 28, .ro, 0, []⟩, ⟨27, 23, .ro, 0, []⟩, ⟨9, 0, .ro, 0, []⟩]⟩,
  ⟨0x52008, 0x100, 0x40, 1, 0, 1, 0, [⟨31, 24, .rw, 0, [(0, 0x80)]⟩, ⟨23, 18, .rw, 0, [(0, 0x2f)]⟩, ⟨17, 16, .rw, 0, [(0, 2)]⟩]⟩,
  ⟨0x5200c, 0x100, 0x40, 1, 0, 1, 0, [⟨31, 24, .ro, 0, []⟩, ⟨12, 0, .ro, 0, []⟩]⟩,
  ⟨0x52010, 0x100, 0x40, 1, 0, 1, 0, [⟨31, 31, .ro, 0, []⟩, ⟨30, 16, .ro, 0, []⟩, ⟨15, 15, .ro, 0, []⟩, ⟨14, 0, .ro, 0, []⟩]⟩,
  ⟨0x52014, 0x100, 0x40, 1, 0, 1, 0, [⟨31, 16, .rw, 0, [(0, 0x2f00)]⟩, ⟨15, 0, .rw, 0, []⟩]⟩,
  ⟨0x52018, 0x100, 0x40, 1, 0, 1, 0, [⟨31, 0, .rw, 0, []⟩]⟩,
  ⟨0x5201c, 0x100, 0x40, 1, 0, 1, 0, [⟨31, 0, .rw, 0, []⟩]⟩,
  ⟨0x52020, 0x100, 0x40, 1, 0, 1, 0, [⟨31, 0, .rw, 0, []⟩]⟩,
  ⟨0x52024, 0x100, 0x40, 1, 0, 1, 0, [⟨31, 0, .ro, 0, []⟩]⟩,
  ⟨0x52028, 0x100, 0x40, 1, 0, 1, 0, [⟨31, 0, .ro, 0, []⟩]⟩,
  ⟨0x5202c, 0x100, 0x40, 1, 0, 1, 0, [⟨31, 20, .ro, 0, []⟩, ⟨17, 0, .ro, 0, []⟩]⟩]

/-- The register table of the PARTC block. -/
def partcRows : List RegRow := partcRows0

/-! ### PRESS block (chapter 04 R159 and 12) -/

abbrev rPAIR_STAT (pg : Nat) : Nat := pg + 0
abbrev fPAIR_STAT_STATE (pg : Nat) : Fld := ⟨rPAIR_STAT pg, 31, 28⟩
abbrev rPAIR_FRAME (pg : Nat) : Nat := pg + 4
abbrev fPAIR_FRAME_V1 (pg : Nat) : Fld := ⟨rPAIR_FRAME pg, 31, 31⟩
abbrev fPAIR_FRAME_ACT1 (pg : Nat) : Fld := ⟨rPAIR_FRAME pg, 30, 30⟩
abbrev fPAIR_FRAME_ROW1 (pg : Nat) : Fld := ⟨rPAIR_FRAME pg, 24, 16⟩
abbrev fPAIR_FRAME_V0 (pg : Nat) : Fld := ⟨rPAIR_FRAME pg, 15, 15⟩
abbrev fPAIR_FRAME_ACT0 (pg : Nat) : Fld := ⟨rPAIR_FRAME pg, 14, 14⟩
abbrev fPAIR_FRAME_ROW0 (pg : Nat) : Fld := ⟨rPAIR_FRAME pg, 8, 0⟩
abbrev rPAIR_EXEC_PC (pg : Nat) : Nat := pg + 8
abbrev fPAIR_EXEC_PC_PARTITION (pg : Nat) : Fld := ⟨rPAIR_EXEC_PC pg, 31, 24⟩
abbrev fPAIR_EXEC_PC_VALID (pg : Nat) : Fld := ⟨rPAIR_EXEC_PC pg, 23, 23⟩
abbrev fPAIR_EXEC_PC_HANDLER (pg : Nat) : Fld := ⟨rPAIR_EXEC_PC pg, 22, 22⟩
abbrev fPAIR_EXEC_PC_PC (pg : Nat) : Fld := ⟨rPAIR_EXEC_PC pg, 15, 0⟩
abbrev rPAIR_CNT_EXEC (pg : Nat) : Nat := pg + 0x10
abbrev fPAIR_CNT_EXEC_COUNT (pg : Nat) : Fld := ⟨rPAIR_CNT_EXEC pg, 31, 0⟩
abbrev rPAIR_CNT_CLK (pg : Nat) : Nat := pg + 0x14
abbrev fPAIR_CNT_CLK_CLOCKS (pg : Nat) : Fld := ⟨rPAIR_CNT_CLK pg, 31, 0⟩
abbrev rPAIR_CNT_STALL (pg : Nat) : Nat := pg + 0x18
abbrev fPAIR_CNT_STALL_CLOCKS (pg : Nat) : Fld := ⟨rPAIR_CNT_STALL pg, 31, 0⟩
abbrev rPAIR_CNT_EXC (pg : Nat) : Nat := pg + 0x1c
abbrev fPAIR_CNT_EXC_COUNT (pg : Nat) : Fld := ⟨rPAIR_CNT_EXC pg, 31, 0⟩
abbrev rPAIR_LAST_EXC (pg : Nat) : Nat := pg + 0x20
abbrev fPAIR_LAST_EXC_CAUSE (pg : Nat) : Fld := ⟨rPAIR_LAST_EXC pg, 31, 24⟩
abbrev fPAIR_LAST_EXC_PARTITION (pg : Nat) : Fld := ⟨rPAIR_LAST_EXC pg, 23, 16⟩
abbrev fPAIR_LAST_EXC_PC (pg : Nat) : Fld := ⟨rPAIR_LAST_EXC pg, 15, 0⟩
abbrev rPAIR_CNT_CLR (pg : Nat) : Nat := pg + 0x2c
abbrev fPAIR_CNT_CLR_CLR (pg : Nat) : Fld := ⟨rPAIR_CNT_CLR pg, 0, 0⟩
abbrev rTWIN_STAT (pg : Nat) : Nat := pg + 0x800
abbrev fTWIN_STAT_CAUSE (pg : Nat) : Fld := ⟨rTWIN_STAT pg, 31, 28⟩
abbrev fTWIN_STAT_CAPTURED (pg : Nat) : Fld := ⟨rTWIN_STAT pg, 27, 27⟩
abbrev fTWIN_STAT_PROOFS (pg : Nat) : Fld := ⟨rTWIN_STAT pg, 15, 0⟩
abbrev rTWIN_MISMATCH (pg : Nat) : Nat := pg + 0x804
abbrev fTWIN_MISMATCH_GROUP (pg : Nat) : Fld := ⟨rTWIN_MISMATCH pg, 31, 28⟩
abbrev fTWIN_MISMATCH_BIT (pg : Nat) : Fld := ⟨rTWIN_MISMATCH pg, 24, 16⟩
abbrev fTWIN_MISMATCH_LANE (pg : Nat) : Fld := ⟨rTWIN_MISMATCH pg, 7, 0⟩
abbrev rTWIN_WHERE (pg : Nat) : Nat := pg + 0x808
abbrev fTWIN_WHERE_PARTITION (pg : Nat) : Fld := ⟨rTWIN_WHERE pg, 31, 24⟩
abbrev fTWIN_WHERE_VALID (pg : Nat) : Fld := ⟨rTWIN_WHERE pg, 23, 23⟩
abbrev fTWIN_WHERE_PC (pg : Nat) : Fld := ⟨rTWIN_WHERE pg, 15, 0⟩
abbrev rTWIN_ROW (pg : Nat) : Nat := pg + 0x80c
abbrev fTWIN_ROW_LATE (pg : Nat) : Fld := ⟨rTWIN_ROW pg, 31, 31⟩
abbrev fTWIN_ROW_ROW (pg : Nat) : Fld := ⟨rTWIN_ROW pg, 24, 16⟩
abbrev fTWIN_ROW_CYCLE (pg : Nat) : Fld := ⟨rTWIN_ROW pg, 15, 0⟩
abbrev rTWIN_LT_LO (pg : Nat) : Nat := pg + 0x810
abbrev fTWIN_LT_LO_LT (pg : Nat) : Fld := ⟨rTWIN_LT_LO pg, 31, 0⟩
abbrev rTWIN_LT_HI (pg : Nat) : Nat := pg + 0x814
abbrev fTWIN_LT_HI_LT (pg : Nat) : Fld := ⟨rTWIN_LT_HI pg, 31, 0⟩
abbrev rTWIN_RELEASED (pg : Nat) : Nat := pg + 0x818
abbrev fTWIN_RELEASED_COUNT (pg : Nat) : Fld := ⟨rTWIN_RELEASED pg, 15, 0⟩
abbrev rTWIN_TEST (pg : Nat) : Nat := pg + 0x81c
abbrev fTWIN_TEST_PASS (pg : Nat) : Fld := ⟨rTWIN_TEST pg, 31, 31⟩
abbrev fTWIN_TEST_RAN (pg : Nat) : Fld := ⟨rTWIN_TEST pg, 30, 30⟩
abbrev fTWIN_TEST_FIRST_FAIL (pg : Nat) : Fld := ⟨rTWIN_TEST pg, 19, 10⟩
abbrev fTWIN_TEST_FAILS (pg : Nat) : Fld := ⟨rTWIN_TEST pg, 9, 0⟩
abbrev rTWIN_LANES (pg : Nat) (i : Nat) : Nat := pg + 0x820 + i * 4
abbrev fTWIN_LANES_LANES (pg : Nat) (i : Nat) : Fld := ⟨rTWIN_LANES pg i, 31, 0⟩
abbrev rTWIN_CMD (pg : Nat) : Nat := pg + 0x840
abbrev fTWIN_CMD_PAIR (pg : Nat) : Fld := ⟨rTWIN_CMD pg, 13, 8⟩
abbrev fTWIN_CMD_FENCE (pg : Nat) : Fld := ⟨rTWIN_CMD pg, 1, 1⟩
abbrev fTWIN_CMD_PROOF (pg : Nat) : Fld := ⟨rTWIN_CMD pg, 0, 0⟩

def pressRows0 : List RegRow := [
  ⟨0x100000, 0x20, 0x1000, 1, 0, 1, 0, [⟨31, 28, .ro, 6, []⟩]⟩,
  ⟨0x100004, 0x20, 0x1000, 1, 0, 1, 0, [⟨31, 31, .ro, 0, []⟩, ⟨30, 30, .ro, 0, []⟩, ⟨24, 16, .ro, 0, []⟩, ⟨15, 15, .ro, 0, []⟩, ⟨14, 14, .ro, 0, []⟩, ⟨8, 0, .ro, 0, []⟩]⟩,
  ⟨0x100008, 0x20, 0x1000, 1, 0, 1, 0, [⟨31, 24, .ro, 0, []⟩, ⟨23, 23, .ro, 0, []⟩, ⟨22, 22, .ro, 0, []⟩, ⟨15, 0, .ro, 0, []⟩]⟩,
  ⟨0x100010, 0x20, 0x1000, 1, 0, 1, 0, [⟨31, 0, .ro, 0, []⟩]⟩,
  ⟨0x100014, 0x20, 0x1000, 1, 0, 1, 0, [⟨31, 0, .ro, 0, []⟩]⟩,
  ⟨0x100018, 0x20, 0x1000, 1, 0, 1, 0, [⟨31, 0, .ro, 0, []⟩]⟩,
  ⟨0x10001c, 0x20, 0x1000, 1, 0, 1, 0, [⟨31, 0, .ro, 0, []⟩]⟩,
  ⟨0x100020, 0x20, 0x1000, 1, 0, 1, 0, [⟨31, 24, .ro, 0, []⟩, ⟨23, 16, .ro, 0, []⟩, ⟨15, 0, .ro, 0, []⟩]⟩,
  ⟨0x10002c, 0x20, 0x1000, 1, 0, 1, 0, [⟨0, 0, .wo, 0, []⟩]⟩,
  ⟨0x100800, 0x20, 0x1000, 1, 0, 1, 0, [⟨31, 28, .ro, 0, []⟩, ⟨27, 27, .ro, 0, []⟩, ⟨15, 0, .ro, 0, []⟩]⟩,
  ⟨0x100804, 0x20, 0x1000, 1, 0, 1, 0, [⟨31, 28, .ro, 0, []⟩, ⟨24, 16, .ro, 0, []⟩, ⟨7, 0, .ro, 0, []⟩]⟩,
  ⟨0x100808, 0x20, 0x1000, 1, 0, 1, 0, [⟨31, 24, .ro, 0, []⟩, ⟨23, 23, .ro, 0, []⟩, ⟨15, 0, .ro, 0, []⟩]⟩,
  ⟨0x10080c, 0x20, 0x1000, 1, 0, 1, 0, [⟨31, 31, .ro, 0, []⟩, ⟨24, 16, .ro, 0, []⟩, ⟨15, 0, .ro, 0, []⟩]⟩,
  ⟨0x100810, 0x20, 0x1000, 1, 0, 1, 0, [⟨31, 0, .ro, 0, []⟩]⟩,
  ⟨0x100814, 0x20, 0x1000, 1, 0, 1, 0, [⟨31, 0, .ro, 0, []⟩]⟩,
  ⟨0x100818, 0x20, 0x1000, 1, 0, 1, 0, [⟨15, 0, .ro, 0, []⟩]⟩,
  ⟨0x10081c, 0x20, 0x1000, 1, 0, 1, 0, [⟨31, 31, .ro, 0, []⟩, ⟨30, 30, .ro, 0, []⟩, ⟨19, 10, .ro, 0, []⟩, ⟨9, 0, .ro, 0, []⟩]⟩,
  ⟨0x100820, 0x20, 0x1000, 8, 4, 1, 0, [⟨31, 0, .ro, 0, []⟩]⟩,
  ⟨0x100840, 0x20, 0x1000, 1, 0, 1, 0, [⟨13, 8, .wo, 0, []⟩, ⟨1, 1, .wo, 0, []⟩, ⟨0, 0, .wo, 0, []⟩]⟩]

/-- The register table of the PRESS block. -/
def pressRows : List RegRow := pressRows0

def press2Rows0 : List RegRow := [
  ⟨0x13e000, 2, 0x1000, 1, 0, 1, 0, [⟨31, 28, .ro, 6, []⟩]⟩,
  ⟨0x13e004, 2, 0x1000, 1, 0, 1, 0, [⟨31, 31, .ro, 0, []⟩, ⟨30, 30, .ro, 0, []⟩, ⟨24, 16, .ro, 0, []⟩, ⟨15, 15, .ro, 0, []⟩, ⟨14, 14, .ro, 0, []⟩, ⟨8, 0, .ro, 0, []⟩]⟩,
  ⟨0x13e008, 2, 0x1000, 1, 0, 1, 0, [⟨31, 24, .ro, 0, []⟩, ⟨23, 23, .ro, 0, []⟩, ⟨22, 22, .ro, 0, []⟩, ⟨15, 0, .ro, 0, []⟩]⟩,
  ⟨0x13e010, 2, 0x1000, 1, 0, 1, 0, [⟨31, 0, .ro, 0, []⟩]⟩,
  ⟨0x13e014, 2, 0x1000, 1, 0, 1, 0, [⟨31, 0, .ro, 0, []⟩]⟩,
  ⟨0x13e018, 2, 0x1000, 1, 0, 1, 0, [⟨31, 0, .ro, 0, []⟩]⟩,
  ⟨0x13e01c, 2, 0x1000, 1, 0, 1, 0, [⟨31, 0, .ro, 0, []⟩]⟩,
  ⟨0x13e020, 2, 0x1000, 1, 0, 1, 0, [⟨31, 24, .ro, 0, []⟩, ⟨23, 16, .ro, 0, []⟩, ⟨15, 0, .ro, 0, []⟩]⟩,
  ⟨0x13e02c, 2, 0x1000, 1, 0, 1, 0, [⟨0, 0, .wo, 0, []⟩]⟩,
  ⟨0x13e800, 2, 0x1000, 1, 0, 1, 0, [⟨31, 28, .ro, 0, []⟩, ⟨27, 27, .ro, 0, []⟩, ⟨15, 0, .ro, 0, []⟩]⟩,
  ⟨0x13e804, 2, 0x1000, 1, 0, 1, 0, [⟨31, 28, .ro, 0, []⟩, ⟨24, 16, .ro, 0, []⟩, ⟨7, 0, .ro, 0, []⟩]⟩,
  ⟨0x13e808, 2, 0x1000, 1, 0, 1, 0, [⟨31, 24, .ro, 0, []⟩, ⟨23, 23, .ro, 0, []⟩, ⟨15, 0, .ro, 0, []⟩]⟩,
  ⟨0x13e80c, 2, 0x1000, 1, 0, 1, 0, [⟨31, 31, .ro, 0, []⟩, ⟨24, 16, .ro, 0, []⟩, ⟨15, 0, .ro, 0, []⟩]⟩,
  ⟨0x13e810, 2, 0x1000, 1, 0, 1, 0, [⟨31, 0, .ro, 0, []⟩]⟩,
  ⟨0x13e814, 2, 0x1000, 1, 0, 1, 0, [⟨31, 0, .ro, 0, []⟩]⟩,
  ⟨0x13e818, 2, 0x1000, 1, 0, 1, 0, [⟨15, 0, .ro, 0, []⟩]⟩,
  ⟨0x13e81c, 2, 0x1000, 1, 0, 1, 0, [⟨31, 31, .ro, 0, []⟩, ⟨30, 30, .ro, 0, []⟩, ⟨19, 10, .ro, 0, []⟩, ⟨9, 0, .ro, 0, []⟩]⟩,
  ⟨0x13e820, 2, 0x1000, 8, 4, 1, 0, [⟨31, 0, .ro, 0, []⟩]⟩,
  ⟨0x13e840, 2, 0x1000, 1, 0, 1, 0, [⟨13, 8, .wo, 0, []⟩, ⟨1, 1, .wo, 0, []⟩, ⟨0, 0, .wo, 0, []⟩]⟩]

/-- The register table of the PRESS2 block. -/
def press2Rows : List RegRow := press2Rows0

def scalarRows0 : List RegRow := [
  ⟨0x120000, 0x10, 0x1000, 1, 0, 1, 0, [⟨31, 28, .ro, 6, []⟩]⟩,
  ⟨0x120004, 0x10, 0x1000, 1, 0, 1, 0, [⟨31, 31, .ro, 0, []⟩, ⟨16, 0, .ro, 0, []⟩]⟩,
  ⟨0x120008, 0x10, 0x1000, 1, 0, 1, 0, [⟨31, 24, .ro, 0, []⟩, ⟨23, 23, .ro, 0, []⟩, ⟨22, 22, .ro, 0, []⟩, ⟨15, 0, .ro, 0, []⟩]⟩,
  ⟨0x120010, 0x10, 0x1000, 1, 0, 1, 0, [⟨31, 0, .ro, 0, []⟩]⟩,
  ⟨0x120014, 0x10, 0x1000, 1, 0, 1, 0, [⟨31, 0, .ro, 0, []⟩]⟩,
  ⟨0x120018, 0x10, 0x1000, 1, 0, 1, 0, [⟨31, 0, .ro, 0, []⟩]⟩,
  ⟨0x12001c, 0x10, 0x1000, 1, 0, 1, 0, [⟨31, 0, .ro, 0, []⟩]⟩,
  ⟨0x120020, 0x10, 0x1000, 1, 0, 1, 0, [⟨31, 24, .ro, 0, []⟩, ⟨23, 16, .ro, 0, []⟩, ⟨15, 0, .ro, 0, []⟩]⟩,
  ⟨0x12002c, 0x10, 0x1000, 1, 0, 1, 0, [⟨0, 0, .wo, 0, []⟩]⟩,
  ⟨0x120800, 0x10, 0x1000, 1, 0, 1, 0, [⟨31, 28, .ro, 0, []⟩, ⟨27, 27, .ro, 0, []⟩, ⟨15, 0, .ro, 0, []⟩]⟩,
  ⟨0x120804, 0x10, 0x1000, 1, 0, 1, 0, [⟨31, 28, .ro, 0, []⟩, ⟨24, 16, .ro, 0, []⟩, ⟨7, 0, .ro, 0, []⟩]⟩,
  ⟨0x120808, 0x10, 0x1000, 1, 0, 1, 0, [⟨31, 24, .ro, 0, []⟩, ⟨23, 23, .ro, 0, []⟩, ⟨15, 0, .ro, 0, []⟩]⟩,
  ⟨0x12080c, 0x10, 0x1000, 1, 0, 1, 0, [⟨31, 31, .ro, 0, []⟩, ⟨24, 16, .ro, 0, []⟩, ⟨15, 0, .ro, 0, []⟩]⟩,
  ⟨0x120810, 0x10, 0x1000, 1, 0, 1, 0, [⟨31, 0, .ro, 0, []⟩]⟩,
  ⟨0x120814, 0x10, 0x1000, 1, 0, 1, 0, [⟨31, 0, .ro, 0, []⟩]⟩,
  ⟨0x120818, 0x10, 0x1000, 1, 0, 1, 0, [⟨15, 0, .ro, 0, []⟩]⟩,
  ⟨0x12081c, 0x10, 0x1000, 1, 0, 1, 0, [⟨31, 31, .ro, 0, []⟩, ⟨30, 30, .ro, 0, []⟩, ⟨19, 10, .ro, 0, []⟩, ⟨9, 0, .ro, 0, []⟩]⟩,
  ⟨0x120820, 0x10, 0x1000, 8, 4, 1, 0, [⟨31, 0, .ro, 0, []⟩]⟩]

/-- The register table of the SCALAR block. -/
def scalarRows : List RegRow := scalarRows0

/-! ### PRESSC block (chapter 04) -/

abbrev rPRESS_CMN_EXC (n : Nat) : Nat := 0x13d000 + n * 4
abbrev fPRESS_CMN_EXC_COUNT (n : Nat) : Fld := ⟨rPRESS_CMN_EXC n, 31, 0⟩
abbrev rPRESS_CMN_CLR : Nat := 0x13d040
abbrev fPRESS_CMN_CLR_CLR : Fld := ⟨rPRESS_CMN_CLR, 0, 0⟩

def presscRows0 : List RegRow := [
  ⟨0x13d000, 0x10, 4, 1, 0, 1, 0, [⟨31, 0, .ro, 0, []⟩]⟩,
  ⟨0x13d040, 1, 0, 1, 0, 1, 0, [⟨0, 0, .wo, 0, []⟩]⟩]

/-- The register table of the PRESSC block. -/
def presscRows : List RegRow := presscRows0

/-! ### SCALARC block (chapter 04 R159) -/

abbrev rSCALAR_CMN_EXC (n : Nat) : Nat := 0x130000 + n * 4
abbrev fSCALAR_CMN_EXC_COUNT (n : Nat) : Fld := ⟨rSCALAR_CMN_EXC n, 31, 0⟩
abbrev rSCALAR_CMN_CLR : Nat := 0x130040
abbrev fSCALAR_CMN_CLR_CLR : Fld := ⟨rSCALAR_CMN_CLR, 0, 0⟩

def scalarcRows0 : List RegRow := [
  ⟨0x130000, 0x10, 4, 1, 0, 1, 0, [⟨31, 0, .ro, 0, []⟩]⟩,
  ⟨0x130040, 1, 0, 1, 0, 1, 0, [⟨0, 0, .wo, 0, []⟩]⟩]

/-- The register table of the SCALARC block. -/
def scalarcRows : List RegRow := scalarcRows0

/-! ### FAB block (chapter 03) -/

abbrev rFAB_CTRL : Nat := 0x140000
abbrev fFAB_CTRL_LOCK : Fld := ⟨rFAB_CTRL, 31, 31⟩
abbrev fFAB_CTRL_AGE : Fld := ⟨rFAB_CTRL, 9, 0⟩
abbrev rFAB_STAT : Nat := 0x140004
abbrev fFAB_STAT_AGED : Fld := ⟨rFAB_STAT, 4, 4⟩
abbrev fFAB_STAT_STALE : Fld := ⟨rFAB_STAT, 3, 3⟩
abbrev fFAB_STAT_PARITY : Fld := ⟨rFAB_STAT, 2, 2⟩
abbrev fFAB_STAT_DECERR : Fld := ⟨rFAB_STAT, 1, 1⟩
abbrev fFAB_STAT_DENIED : Fld := ⟨rFAB_STAT, 0, 0⟩
abbrev rFAB_TAGS : Nat := 0x140008
abbrev fFAB_TAGS_HWM : Fld := ⟨rFAB_TAGS, 25, 16⟩
abbrev fFAB_TAGS_IN_USE : Fld := ⟨rFAB_TAGS, 9, 0⟩
abbrev rFAB_ERR_ADDR : Nat := 0x14000c
abbrev fFAB_ERR_ADDR_ADDR : Fld := ⟨rFAB_ERR_ADDR, 25, 0⟩
abbrev rFAB_ERR_INFO : Nat := 0x140010
abbrev fFAB_ERR_INFO_RESP : Fld := ⟨rFAB_ERR_INFO, 31, 29⟩
abbrev fFAB_ERR_INFO_WRITE : Fld := ⟨rFAB_ERR_INFO, 28, 28⟩
abbrev fFAB_ERR_INFO_RULE_EPOCH : Fld := ⟨rFAB_ERR_INFO, 27, 24⟩
abbrev fFAB_ERR_INFO_MASTER : Fld := ⟨rFAB_ERR_INFO, 9, 0⟩
abbrev rFAB_CNT_DENIED : Nat := 0x140020
abbrev fFAB_CNT_DENIED_COUNT : Fld := ⟨rFAB_CNT_DENIED, 31, 0⟩
abbrev rFAB_CNT_DECERR : Nat := 0x140024
abbrev fFAB_CNT_DECERR_COUNT : Fld := ⟨rFAB_CNT_DECERR, 31, 0⟩
abbrev rFAB_CNT_ISLRST : Nat := 0x140028
abbrev fFAB_CNT_ISLRST_COUNT : Fld := ⟨rFAB_CNT_ISLRST, 31, 0⟩
abbrev rFAB_CNT_STALE : Nat := 0x14002c
abbrev fFAB_CNT_STALE_COUNT : Fld := ⟨rFAB_CNT_STALE, 31, 0⟩
abbrev rFAB_CNT_AGED : Nat := 0x140030
abbrev fFAB_CNT_AGED_COUNT : Fld := ⟨rFAB_CNT_AGED, 31, 0⟩
abbrev rFAB_CNT_PARITY : Nat := 0x140034
abbrev fFAB_CNT_PARITY_COUNT : Fld := ⟨rFAB_CNT_PARITY, 31, 0⟩
abbrev rFAB_UTIL : Nat := 0x140040
abbrev fFAB_UTIL_LINES : Fld := ⟨rFAB_UTIL, 31, 0⟩
abbrev rFAB_CNT_CLR : Nat := 0x140044
abbrev fFAB_CNT_CLR_CLR : Fld := ⟨rFAB_CNT_CLR, 0, 0⟩

def fabRows0 : List RegRow := [
  ⟨0x140000, 1, 0, 1, 0, 1, 0, [⟨31, 31, .w1s, 0, []⟩, ⟨9, 0, .rwl, 0x3e8, [(0xfa, 0x3e8)]⟩]⟩,
  ⟨0x140004, 1, 0, 1, 0, 1, 0, [⟨4, 4, .w1c, 0, []⟩, ⟨3, 3, .w1c, 0, []⟩, ⟨2, 2, .w1c, 0, []⟩, ⟨1, 1, .w1c, 0, []⟩, ⟨0, 0, .w1c, 0, []⟩]⟩,
  ⟨0x140008, 1, 0, 1, 0, 1, 0, [⟨25, 16, .ro, 0, []⟩, ⟨9, 0, .ro, 0, []⟩]⟩,
  ⟨0x14000c, 1, 0, 1, 0, 1, 0, [⟨25, 0, .ro, 0, []⟩]⟩,
  ⟨0x140010, 1, 0, 1, 0, 1, 0, [⟨31, 29, .ro, 0, []⟩, ⟨28, 28, .ro, 0, []⟩, ⟨27, 24, .ro, 0, []⟩, ⟨9, 0, .ro, 0, []⟩]⟩,
  ⟨0x140020, 1, 0, 1, 0, 1, 0, [⟨31, 0, .ro, 0, []⟩]⟩,
  ⟨0x140024, 1, 0, 1, 0, 1, 0, [⟨31, 0, .ro, 0, []⟩]⟩,
  ⟨0x140028, 1, 0, 1, 0, 1, 0, [⟨31, 0, .ro, 0, []⟩]⟩,
  ⟨0x14002c, 1, 0, 1, 0, 1, 0, [⟨31, 0, .ro, 0, []⟩]⟩,
  ⟨0x140030, 1, 0, 1, 0, 1, 0, [⟨31, 0, .ro, 0, []⟩]⟩,
  ⟨0x140034, 1, 0, 1, 0, 1, 0, [⟨31, 0, .ro, 0, []⟩]⟩,
  ⟨0x140040, 1, 0, 1, 0, 1, 0, [⟨31, 0, .ro, 0, []⟩]⟩,
  ⟨0x140044, 1, 0, 1, 0, 1, 0, [⟨0, 0, .wo, 0, []⟩]⟩]

/-- The register table of the FAB block. -/
def fabRows : List RegRow := fabRows0

/-! ### STEP block (chapter 07) -/

abbrev rSTEP_CTRL : Nat := 0x160000
abbrev fSTEP_CTRL_LOCK : Fld := ⟨rSTEP_CTRL, 31, 31⟩
abbrev rSTEP_STAT : Nat := 0x160004
abbrev fSTEP_STAT_SAT : Fld := ⟨rSTEP_STAT, 3, 3⟩
abbrev fSTEP_STAT_STALE : Fld := ⟨rSTEP_STAT, 2, 2⟩
abbrev fSTEP_STAT_BADCMD : Fld := ⟨rSTEP_STAT, 1, 1⟩
abbrev fSTEP_STAT_FAULT_TABLE : Fld := ⟨rSTEP_STAT, 0, 0⟩
abbrev rSTEP_TBL_STEP (n : Nat) : Nat := 0x160010 + n * 4
abbrev fSTEP_TBL_STEP_BASE (n : Nat) : Fld := ⟨rSTEP_TBL_STEP n, 6, 0⟩
abbrev rSTEP_TBL_LIM (n : Nat) : Nat := 0x160018 + n * 4
abbrev fSTEP_TBL_LIM_BASE (n : Nat) : Fld := ⟨rSTEP_TBL_LIM n, 10, 0⟩
abbrev rSTEP_HOST_CH : Nat := 0x160020
abbrev fSTEP_HOST_CH_CH : Fld := ⟨rSTEP_HOST_CH, 16, 0⟩
abbrev rSTEP_HOST_ARG : Nat := 0x160024
abbrev fSTEP_HOST_ARG_EXPECT : Fld := ⟨rSTEP_HOST_ARG, 31, 16⟩
abbrev fSTEP_HOST_ARG_ARG16 : Fld := ⟨rSTEP_HOST_ARG, 14, 0⟩
abbrev rSTEP_HOST_CMD : Nat := 0x160028
abbrev fSTEP_HOST_CMD_BUSY : Fld := ⟨rSTEP_HOST_CMD, 31, 31⟩
abbrev fSTEP_HOST_CMD_ARG8 : Fld := ⟨rSTEP_HOST_CMD, 15, 8⟩
abbrev fSTEP_HOST_CMD_CMD : Fld := ⟨rSTEP_HOST_CMD, 7, 0⟩
abbrev rSTEP_CNT_FAULT : Nat := 0x160030
abbrev fSTEP_CNT_FAULT_COUNT : Fld := ⟨rSTEP_CNT_FAULT, 31, 0⟩
abbrev rSTEP_CNT_BADCMD : Nat := 0x160034
abbrev fSTEP_CNT_BADCMD_COUNT : Fld := ⟨rSTEP_CNT_BADCMD, 31, 0⟩
abbrev rSTEP_CNT_STALE : Nat := 0x160038
abbrev fSTEP_CNT_STALE_COUNT : Fld := ⟨rSTEP_CNT_STALE, 31, 0⟩
abbrev rSTEP_CNT_RESULT : Nat := 0x16003c
abbrev fSTEP_CNT_RESULT_COUNT : Fld := ⟨rSTEP_CNT_RESULT, 31, 0⟩
abbrev rSTEP_CNT_SAT : Nat := 0x160040
abbrev fSTEP_CNT_SAT_COUNT : Fld := ⟨rSTEP_CNT_SAT, 31, 0⟩
abbrev rSTEP_LAST_FAULT : Nat := 0x160044
abbrev fSTEP_LAST_FAULT_WHY : Fld := ⟨rSTEP_LAST_FAULT, 31, 24⟩
abbrev fSTEP_LAST_FAULT_CH : Fld := ⟨rSTEP_LAST_FAULT, 16, 0⟩
abbrev rSTEP_LAST_FAULT_STEP : Nat := 0x160048
abbrev fSTEP_LAST_FAULT_STEP_STEP : Fld := ⟨rSTEP_LAST_FAULT_STEP, 15, 0⟩
abbrev rSTEP_CNT_CLR : Nat := 0x16004c
abbrev fSTEP_CNT_CLR_CLR : Fld := ⟨rSTEP_CNT_CLR, 0, 0⟩
abbrev rSTEP_PART_RANGE (n : Nat) : Nat := 0x161000 + n * 0x10
abbrev fSTEP_PART_RANGE_LEN (n : Nat) : Fld := ⟨rSTEP_PART_RANGE n, 30, 16⟩
abbrev fSTEP_PART_RANGE_BASE (n : Nat) : Fld := ⟨rSTEP_PART_RANGE n, 14, 0⟩
abbrev rSTEP_PART_LIM (n : Nat) : Nat := 0x161004 + n * 0x10
abbrev fSTEP_PART_LIM_COUNT (n : Nat) : Fld := ⟨rSTEP_PART_LIM n, 26, 16⟩
abbrev fSTEP_PART_LIM_BASE (n : Nat) : Fld := ⟨rSTEP_PART_LIM n, 9, 0⟩
abbrev rSTEP_PART_BANK (n : Nat) : Nat := 0x161008 + n * 0x10
abbrev fSTEP_PART_BANK_ACTIVE (n : Nat) : Fld := ⟨rSTEP_PART_BANK n, 0, 0⟩
abbrev rSTEP_PART_CNT_END (n : Nat) : Nat := 0x16100c + n * 0x10
abbrev fSTEP_PART_CNT_END_COUNT (n : Nat) : Fld := ⟨rSTEP_PART_CNT_END n, 31, 0⟩
abbrev rSTEP_ROW_PASS (n : Nat) : Nat := 0x163000 + n * 4
abbrev fSTEP_ROW_PASS_CYCLE (n : Nat) : Fld := ⟨rSTEP_ROW_PASS n, 31, 0⟩

def stepRows0 : List RegRow := [
  ⟨0x160000, 1, 0, 1, 0, 1, 0, [⟨31, 31, .w1s, 0, []⟩]⟩,
  ⟨0x160004, 1, 0, 1, 0, 1, 0, [⟨3, 3, .w1c, 0, []⟩, ⟨2, 2, .w1c, 0, []⟩, ⟨1, 1, .w1c, 0, []⟩, ⟨0, 0, .w1c, 0, []⟩]⟩,
  ⟨0x160010, 2, 4, 1, 0, 1, 0, [⟨6, 0, .rwl, 0, [(0, 0x70)]⟩]⟩,
  ⟨0x160018, 2, 4, 1, 0, 1, 0, [⟨10, 0, .rwl, 0x200, [(0, 0x7fc)]⟩]⟩,
  ⟨0x160020, 1, 0, 1, 0, 1, 0, [⟨16, 0, .rw, 0, []⟩]⟩,
  ⟨0x160024, 1, 0, 1, 0, 1, 0, [⟨31, 16, .rw, 0xffff, []⟩, ⟨14, 0, .rw, 0, []⟩]⟩,
  ⟨0x160028, 1, 0, 1, 0, 1, 0, [⟨31, 31, .ro, 0, []⟩, ⟨15, 8, .rw, 0, []⟩, ⟨7, 0, .rw, 0, [(0, 0xa)]⟩]⟩,
  ⟨0x160030, 1, 0, 1, 0, 1, 0, [⟨31, 0, .ro, 0, []⟩]⟩,
  ⟨0x160034, 1, 0, 1, 0, 1, 0, [⟨31, 0, .ro, 0, []⟩]⟩,
  ⟨0x160038, 1, 0, 1, 0, 1, 0, [⟨31, 0, .ro, 0, []⟩]⟩,
  ⟨0x16003c, 1, 0, 1, 0, 1, 0, [⟨31, 0, .ro, 0, []⟩]⟩,
  ⟨0x160040, 1, 0, 1, 0, 1, 0, [⟨31, 0, .ro, 0, []⟩]⟩,
  ⟨0x160044, 1, 0, 1, 0, 1, 0, [⟨31, 24, .ro, 0, []⟩, ⟨16, 0, .ro, 0, []⟩]⟩,
  ⟨0x160048, 1, 0, 1, 0, 1, 0, [⟨15, 0, .ro, 0, []⟩]⟩,
  ⟨0x16004c, 1, 0, 1, 0, 1, 0, [⟨0, 0, .wo, 0, []⟩]⟩,
  ⟨0x161000, 0x100, 0x10, 1, 0, 1, 0, [⟨30, 16, .rw, 0, []⟩, ⟨14, 0, .rw, 0, []⟩]⟩,
  ⟨0x161004, 0x100, 0x10, 1, 0, 1, 0, [⟨26, 16, .rw, 0, [(0, 0x100)]⟩, ⟨9, 0, .rw, 0, []⟩]⟩,
  ⟨0x161008, 0x100, 0x10, 1, 0, 1, 0, [⟨0, 0, .ro, 0, []⟩]⟩,
  ⟨0x16100c, 0x100, 0x10, 1, 0, 1, 0, [⟨31, 0, .ro, 0, []⟩]⟩,
  ⟨0x163000, 0x200, 4, 1, 0, 1, 0, [⟨31, 0, .ro, 0, []⟩]⟩]

/-- The register table of the STEP block. -/
def stepRows : List RegRow := stepRows0

/-! ### CONV block (chapter 08) -/

abbrev rCONV_CTRL : Nat := 0x180000
abbrev fCONV_CTRL_LOCK : Fld := ⟨rCONV_CTRL, 31, 31⟩
abbrev fCONV_CTRL_TASTE_ON : Fld := ⟨rCONV_CTRL, 8, 8⟩
abbrev fCONV_CTRL_FILT : Fld := ⟨rCONV_CTRL, 2, 0⟩
abbrev rCONV_EVERY : Nat := 0x180004
abbrev fCONV_EVERY_CYCLES : Fld := ⟨rCONV_EVERY, 15, 0⟩
abbrev rCONV_STAT : Nat := 0x180008
abbrev fCONV_STAT_STAGE_BAD : Fld := ⟨rCONV_STAT, 8, 8⟩
abbrev fCONV_STAT_SAT : Fld := ⟨rCONV_STAT, 7, 7⟩
abbrev fCONV_STAT_CURVE_ERR : Fld := ⟨rCONV_STAT, 6, 6⟩
abbrev fCONV_STAT_COEF_ECC : Fld := ⟨rCONV_STAT, 5, 5⟩
abbrev fCONV_STAT_SAMPLE_BAD : Fld := ⟨rCONV_STAT, 4, 4⟩
abbrev fCONV_STAT_SEQ : Fld := ⟨rCONV_STAT, 3, 3⟩
abbrev fCONV_STAT_UNPLANNED : Fld := ⟨rCONV_STAT, 2, 2⟩
abbrev fCONV_STAT_MISSED : Fld := ⟨rCONV_STAT, 1, 1⟩
abbrev fCONV_STAT_DRIFT : Fld := ⟨rCONV_STAT, 0, 0⟩
abbrev rCONV_EPOCH : Nat := 0x18000c
abbrev fCONV_EPOCH_REQ : Fld := ⟨rCONV_EPOCH, 31, 31⟩
abbrev fCONV_EPOCH_BUSY : Fld := ⟨rCONV_EPOCH, 30, 30⟩
abbrev fCONV_EPOCH_HELD : Fld := ⟨rCONV_EPOCH, 29, 29⟩
abbrev fCONV_EPOCH_CUR : Fld := ⟨rCONV_EPOCH, 15, 0⟩
abbrev rCONV_TBL_COEF : Nat := 0x180010
abbrev fCONV_TBL_COEF_BASE : Fld := ⟨rCONV_TBL_COEF, 6, 0⟩
abbrev rCONV_TBL_CURVE : Nat := 0x180014
abbrev fCONV_TBL_CURVE_BASE : Fld := ⟨rCONV_TBL_CURVE, 10, 0⟩
abbrev rCONV_TBL_STAGE : Nat := 0x180018
abbrev fCONV_TBL_STAGE_BASE : Fld := ⟨rCONV_TBL_STAGE, 10, 0⟩
abbrev rCONV_STAGE_CNT : Nat := 0x18001c
abbrev fCONV_STAGE_CNT_COUNT : Fld := ⟨rCONV_STAGE_CNT, 12, 0⟩
abbrev rCONV_LIM_G : Nat := 0x180020
abbrev fCONV_LIM_G_ABS : Fld := ⟨rCONV_LIM_G, 31, 16⟩
abbrev fCONV_LIM_G_STEP : Fld := ⟨rCONV_LIM_G, 15, 0⟩
abbrev rCONV_LIM_O : Nat := 0x180024
abbrev fCONV_LIM_O_ABS : Fld := ⟨rCONV_LIM_O, 31, 16⟩
abbrev fCONV_LIM_O_STEP : Fld := ⟨rCONV_LIM_O, 15, 0⟩
abbrev rCONV_PERSIST : Nat := 0x180028
abbrev fCONV_PERSIST_SAVE : Fld := ⟨rCONV_PERSIST, 31, 31⟩
abbrev fCONV_PERSIST_BUSY : Fld := ⟨rCONV_PERSIST, 30, 30⟩
abbrev fCONV_PERSIST_RESTORED : Fld := ⟨rCONV_PERSIST, 29, 29⟩
abbrev fCONV_PERSIST_PERIOD : Fld := ⟨rCONV_PERSIST, 15, 0⟩
abbrev rCONV_PERSIST_STAT : Nat := 0x18002c
abbrev fCONV_PERSIST_STAT_EPOCH : Fld := ⟨rCONV_PERSIST_STAT, 31, 16⟩
abbrev fCONV_PERSIST_STAT_RESULT : Fld := ⟨rCONV_PERSIST_STAT, 15, 12⟩
abbrev fCONV_PERSIST_STAT_BAD_ROWS : Fld := ⟨rCONV_PERSIST_STAT, 9, 0⟩
abbrev rCONV_CNT_TASTE : Nat := 0x180030
abbrev fCONV_CNT_TASTE_COUNT : Fld := ⟨rCONV_CNT_TASTE, 31, 0⟩
abbrev rCONV_CNT_MISSED : Nat := 0x180034
abbrev fCONV_CNT_MISSED_COUNT : Fld := ⟨rCONV_CNT_MISSED, 31, 0⟩
abbrev rCONV_CNT_UNPLANNED : Nat := 0x180038
abbrev fCONV_CNT_UNPLANNED_COUNT : Fld := ⟨rCONV_CNT_UNPLANNED, 31, 0⟩
abbrev rCONV_CNT_IDLE : Nat := 0x18003c
abbrev fCONV_CNT_IDLE_COUNT : Fld := ⟨rCONV_CNT_IDLE, 31, 0⟩
abbrev rCONV_CNT_SEQ : Nat := 0x180040
abbrev fCONV_CNT_SEQ_COUNT : Fld := ⟨rCONV_CNT_SEQ, 31, 0⟩
abbrev rCONV_CNT_BAD : Nat := 0x180044
abbrev fCONV_CNT_BAD_COUNT : Fld := ⟨rCONV_CNT_BAD, 31, 0⟩
abbrev rCONV_CNT_DRIFT : Nat := 0x180048
abbrev fCONV_CNT_DRIFT_COUNT : Fld := ⟨rCONV_CNT_DRIFT, 31, 0⟩
abbrev rCONV_CNT_CURVE : Nat := 0x18004c
abbrev fCONV_CNT_CURVE_COUNT : Fld := ⟨rCONV_CNT_CURVE, 31, 0⟩
abbrev rCONV_CNT_SAT : Nat := 0x180050
abbrev fCONV_CNT_SAT_COUNT : Fld := ⟨rCONV_CNT_SAT, 31, 0⟩
abbrev rCONV_CNT_COMMIT : Nat := 0x180054
abbrev fCONV_CNT_COMMIT_COUNT : Fld := ⟨rCONV_CNT_COMMIT, 31, 0⟩
abbrev rCONV_CNT_STAGE_BAD : Nat := 0x180058
abbrev fCONV_CNT_STAGE_BAD_COUNT : Fld := ⟨rCONV_CNT_STAGE_BAD, 31, 0⟩
abbrev rCONV_LAST_DRIFT : Nat := 0x18005c
abbrev fCONV_LAST_DRIFT_WHY : Fld := ⟨rCONV_LAST_DRIFT, 31, 24⟩
abbrev fCONV_LAST_DRIFT_CH : Fld := ⟨rCONV_LAST_DRIFT, 16, 0⟩
abbrev rCONV_CNT_CLR : Nat := 0x180060
abbrev fCONV_CNT_CLR_CLR : Fld := ⟨rCONV_CNT_CLR, 0, 0⟩
abbrev rCONV_PART (n : Nat) : Nat := 0x181000 + n * 4
abbrev fCONV_PART_INHIBIT (n : Nat) : Fld := ⟨rCONV_PART n, 0, 0⟩
abbrev rCONV_PORT_SWEEP (n : Nat) : Nat := 0x182000 + n * 0x10
abbrev fCONV_PORT_SWEEP_SWEEPS (n : Nat) : Fld := ⟨rCONV_PORT_SWEEP n, 31, 16⟩
abbrev fCONV_PORT_SWEEP_INDEX (n : Nat) : Fld := ⟨rCONV_PORT_SWEEP n, 11, 0⟩
abbrev rCONV_PORT_PLAN (n : Nat) : Nat := 0x182004 + n * 0x10
abbrev fCONV_PORT_PLAN_VALID (n : Nat) : Fld := ⟨rCONV_PORT_PLAN n, 31, 31⟩
abbrev fCONV_PORT_PLAN_POINT (n : Nat) : Fld := ⟨rCONV_PORT_PLAN n, 29, 28⟩
abbrev fCONV_PORT_PLAN_ROW (n : Nat) : Fld := ⟨rCONV_PORT_PLAN n, 24, 16⟩
abbrev fCONV_PORT_PLAN_LANE (n : Nat) : Fld := ⟨rCONV_PORT_PLAN n, 7, 0⟩
abbrev rCONV_PORT_LEN (n : Nat) : Nat := 0x182008 + n * 0x10
abbrev fCONV_PORT_LEN_CYCLES (n : Nat) : Fld := ⟨rCONV_PORT_LEN n, 12, 0⟩
abbrev rCONV_ROW_VSCALE (n : Nat) : Nat := 0x184000 + n * 0x40
abbrev fCONV_ROW_VSCALE_V (n : Nat) : Fld := ⟨rCONV_ROW_VSCALE n, 31, 0⟩
abbrev rCONV_ROW_ISCALE (n : Nat) : Nat := 0x184004 + n * 0x40
abbrev fCONV_ROW_ISCALE_V (n : Nat) : Fld := ⟨rCONV_ROW_ISCALE n, 31, 0⟩
abbrev rCONV_ROW_TSCALE (n : Nat) : Nat := 0x184008 + n * 0x40
abbrev fCONV_ROW_TSCALE_V (n : Nat) : Fld := ⟨rCONV_ROW_TSCALE n, 31, 0⟩
abbrev rCONV_ROW_TCFG (n : Nat) : Nat := 0x18400c + n * 0x40
abbrev fCONV_ROW_TCFG_T_OFS (n : Nat) : Fld := ⟨rCONV_ROW_TCFG n, 31, 16⟩
abbrev fCONV_ROW_TCFG_T_CURVE_EN (n : Nat) : Fld := ⟨rCONV_ROW_TCFG n, 15, 15⟩
abbrev fCONV_ROW_TCFG_T_CURVE (n : Nat) : Fld := ⟨rCONV_ROW_TCFG n, 7, 0⟩
abbrev rCONV_ROW_AUXCFG (n : Nat) : Nat := 0x184010 + n * 0x40
abbrev fCONV_ROW_AUXCFG_AUX_CURVE_EN (n : Nat) : Fld := ⟨rCONV_ROW_AUXCFG n, 15, 15⟩
abbrev fCONV_ROW_AUXCFG_AUX_CURVE (n : Nat) : Fld := ⟨rCONV_ROW_AUXCFG n, 7, 0⟩
abbrev rCONV_ROW_REF_VLO (n : Nat) : Nat := 0x184014 + n * 0x40
abbrev fCONV_ROW_REF_VLO_V (n : Nat) : Fld := ⟨rCONV_ROW_REF_VLO n, 31, 0⟩
abbrev rCONV_ROW_REF_VHI (n : Nat) : Nat := 0x184018 + n * 0x40
abbrev fCONV_ROW_REF_VHI_V (n : Nat) : Fld := ⟨rCONV_ROW_REF_VHI n, 31, 0⟩
abbrev rCONV_ROW_REF_ILO (n : Nat) : Nat := 0x18401c + n * 0x40
abbrev fCONV_ROW_REF_ILO_V (n : Nat) : Fld := ⟨rCONV_ROW_REF_ILO n, 31, 0⟩
abbrev rCONV_ROW_REF_IHI (n : Nat) : Nat := 0x184020 + n * 0x40
abbrev fCONV_ROW_REF_IHI_V (n : Nat) : Fld := ⟨rCONV_ROW_REF_IHI n, 31, 0⟩

def convRows0 : List RegRow := [
  ⟨0x180000, 1, 0, 1, 0, 1, 0, [⟨31, 31, .w1s, 0, []⟩, ⟨8, 8, .rw, 1, []⟩, ⟨2, 0, .rw, 2, []⟩]⟩,
  ⟨0x180004, 1, 0, 1, 0, 1, 0, [⟨15, 0, .rw, 0x40, [(1, 0xffff)]⟩]⟩,
  ⟨0x180008, 1, 0, 1, 0, 1, 0, [⟨8, 8, .w1c, 0, []⟩, ⟨7, 7, .w1c, 0, []⟩, ⟨6, 6, .w1c, 0, []⟩, ⟨5, 5, .w1c, 0, []⟩, ⟨4, 4, .w1c, 0, []⟩, ⟨3, 3, .w1c, 0, []⟩, ⟨2, 2, .w1c, 0, []⟩, ⟨1, 1, .w1c, 0, []⟩, ⟨0, 0, .w1c, 0, []⟩]⟩,
  ⟨0x18000c, 1, 0, 1, 0, 1, 0, [⟨31, 31, .w1s, 0, []⟩, ⟨30, 30, .ro, 0, []⟩, ⟨29, 29, .ro, 0, []⟩, ⟨15, 0, .ro, 0, []⟩]⟩,
  ⟨0x180010, 1, 0, 1, 0, 1, 0, [⟨6, 0, .rwl, 0x40, [(0, 0x40)]⟩]⟩,
  ⟨0x180014, 1, 0, 1, 0, 1, 0, [⟨10, 0, .rwl, 0x300, []⟩]⟩,
  ⟨0x180018, 1, 0, 1, 0, 1, 0, [⟨10, 0, .rwl, 0x310, [(0, 0x7f0)]⟩]⟩,
  ⟨0x18001c, 1, 0, 1, 0, 1, 0, [⟨12, 0, .rw, 0, [(0, 0x1000)]⟩]⟩,
  ⟨0x180020, 1, 0, 1, 0, 1, 0, [⟨31, 16, .rw, 0x2000, []⟩, ⟨15, 0, .rw, 0x40, []⟩]⟩,
  ⟨0x180024, 1, 0, 1, 0, 1, 0, [⟨31, 16, .rw, 0x7d0, []⟩, ⟨15, 0, .rw, 0x32, []⟩]⟩,
  ⟨0x180028, 1, 0, 1, 0, 1, 0, [⟨31, 31, .w1s, 0, []⟩, ⟨30, 30, .ro, 0, []⟩, ⟨29, 29, .ro, 0, []⟩, ⟨15, 0, .rw, 0x3c, [(0, 0x5a0)]⟩]⟩,
  ⟨0x18002c, 1, 0, 1, 0, 1, 0, [⟨31, 16, .ro, 0, []⟩, ⟨15, 12, .ro, 0, []⟩, ⟨9, 0, .ro, 0, []⟩]⟩,
  ⟨0x180030, 1, 0, 1, 0, 1, 0, [⟨31, 0, .ro, 0, []⟩]⟩,
  ⟨0x180034, 1, 0, 1, 0, 1, 0, [⟨31, 0, .ro, 0, []⟩]⟩,
  ⟨0x180038, 1, 0, 1, 0, 1, 0, [⟨31, 0, .ro, 0, []⟩]⟩,
  ⟨0x18003c, 1, 0, 1, 0, 1, 0, [⟨31, 0, .ro, 0, []⟩]⟩,
  ⟨0x180040, 1, 0, 1, 0, 1, 0, [⟨31, 0, .ro, 0, []⟩]⟩,
  ⟨0x180044, 1, 0, 1, 0, 1, 0, [⟨31, 0, .ro, 0, []⟩]⟩,
  ⟨0x180048, 1, 0, 1, 0, 1, 0, [⟨31, 0, .ro, 0, []⟩]⟩,
  ⟨0x18004c, 1, 0, 1, 0, 1, 0, [⟨31, 0, .ro, 0, []⟩]⟩]

def convRows1 : List RegRow := [
  ⟨0x180050, 1, 0, 1, 0, 1, 0, [⟨31, 0, .ro, 0, []⟩]⟩,
  ⟨0x180054, 1, 0, 1, 0, 1, 0, [⟨31, 0, .ro, 0, []⟩]⟩,
  ⟨0x180058, 1, 0, 1, 0, 1, 0, [⟨31, 0, .ro, 0, []⟩]⟩,
  ⟨0x18005c, 1, 0, 1, 0, 1, 0, [⟨31, 24, .ro, 0, []⟩, ⟨16, 0, .ro, 0, []⟩]⟩,
  ⟨0x180060, 1, 0, 1, 0, 1, 0, [⟨0, 0, .wo, 0, []⟩]⟩,
  ⟨0x181000, 0x100, 4, 1, 0, 1, 0, [⟨0, 0, .rw, 0, []⟩]⟩,
  ⟨0x182000, 0x20, 0x10, 1, 0, 1, 0, [⟨31, 16, .ro, 0, []⟩, ⟨11, 0, .ro, 0, []⟩]⟩,
  ⟨0x182004, 0x20, 0x10, 1, 0, 1, 0, [⟨31, 31, .ro, 0, []⟩, ⟨29, 28, .ro, 0, []⟩, ⟨24, 16, .ro, 0, []⟩, ⟨7, 0, .ro, 0, []⟩]⟩,
  ⟨0x182008, 0x20, 0x10, 1, 0, 1, 0, [⟨12, 0, .ro, 0x1000, []⟩]⟩,
  ⟨0x184000, 0x200, 0x40, 1, 0, 1, 0, [⟨31, 0, .rw, 0, []⟩]⟩,
  ⟨0x184004, 0x200, 0x40, 1, 0, 1, 0, [⟨31, 0, .rw, 0, []⟩]⟩,
  ⟨0x184008, 0x200, 0x40, 1, 0, 1, 0, [⟨31, 0, .rw, 0, []⟩]⟩,
  ⟨0x18400c, 0x200, 0x40, 1, 0, 1, 0, [⟨31, 16, .rw, 0, []⟩, ⟨15, 15, .rw, 0, []⟩, ⟨7, 0, .rw, 0, []⟩]⟩,
  ⟨0x184010, 0x200, 0x40, 1, 0, 1, 0, [⟨15, 15, .rw, 0, []⟩, ⟨7, 0, .rw, 0, []⟩]⟩,
  ⟨0x184014, 0x200, 0x40, 1, 0, 1, 0, [⟨31, 0, .rw, 0, []⟩]⟩,
  ⟨0x184018, 0x200, 0x40, 1, 0, 1, 0, [⟨31, 0, .rw, 0, []⟩]⟩,
  ⟨0x18401c, 0x200, 0x40, 1, 0, 1, 0, [⟨31, 0, .rw, 0, []⟩]⟩,
  ⟨0x184020, 0x200, 0x40, 1, 0, 1, 0, [⟨31, 0, .rw, 0, []⟩]⟩]

/-- The register table of the CONV block. -/
def convRows : List RegRow := convRows0 ++ convRows1

/-! ### LEDG block (chapter 09) -/

abbrev rLEDG_CTRL : Nat := 0x1a0000
abbrev fLEDG_CTRL_LOCK : Fld := ⟨rLEDG_CTRL, 31, 31⟩
abbrev rLEDG_STAT : Nat := 0x1a0004
abbrev fLEDG_STAT_OVER_BOOKED : Fld := ⟨rLEDG_STAT, 4, 4⟩
abbrev fLEDG_STAT_REVOKED : Fld := ⟨rLEDG_STAT, 3, 3⟩
abbrev fLEDG_STAT_QUEUE_FULL : Fld := ⟨rLEDG_STAT, 2, 2⟩
abbrev fLEDG_STAT_SHED : Fld := ⟨rLEDG_STAT, 1, 1⟩
abbrev fLEDG_STAT_REFUSED : Fld := ⟨rLEDG_STAT, 0, 0⟩
abbrev rLEDG_QUEUE : Nat := 0x1a0008
abbrev fLEDG_QUEUE_HWM : Fld := ⟨rLEDG_QUEUE, 29, 16⟩
abbrev fLEDG_QUEUE_IN_USE : Fld := ⟨rLEDG_QUEUE, 13, 0⟩
abbrev rLEDG_TBL_CH : Nat := 0x1a000c
abbrev fLEDG_TBL_CH_BASE : Fld := ⟨rLEDG_TBL_CH, 10, 0⟩
abbrev rLEDG_CH_SEL : Nat := 0x1a0010
abbrev fLEDG_CH_SEL_CH : Fld := ⟨rLEDG_CH_SEL, 16, 0⟩
abbrev rLEDG_CH_STAT : Nat := 0x1a0014
abbrev fLEDG_CH_STAT_CAUSE : Fld := ⟨rLEDG_CH_STAT, 31, 27⟩
abbrev fLEDG_CH_STAT_STATE : Fld := ⟨rLEDG_CH_STAT, 26, 24⟩
abbrev fLEDG_CH_STAT_BOOKED : Fld := ⟨rLEDG_CH_STAT, 23, 0⟩
abbrev rLEDG_CH_REQ : Nat := 0x1a0018
abbrev fLEDG_CH_REQ_VALID : Fld := ⟨rLEDG_CH_REQ, 31, 31⟩
abbrev fLEDG_CH_REQ_CLASS : Fld := ⟨rLEDG_CH_REQ, 30, 29⟩
abbrev fLEDG_CH_REQ_AMOUNT : Fld := ⟨rLEDG_CH_REQ, 23, 0⟩
abbrev rLEDG_CH_AGE : Nat := 0x1a001c
abbrev fLEDG_CH_AGE_CYCLE : Fld := ⟨rLEDG_CH_AGE, 31, 0⟩
abbrev rLEDG_CNT_ADMIT : Nat := 0x1a0020
abbrev fLEDG_CNT_ADMIT_COUNT : Fld := ⟨rLEDG_CNT_ADMIT, 31, 0⟩
abbrev rLEDG_CNT_WAIT : Nat := 0x1a0024
abbrev fLEDG_CNT_WAIT_COUNT : Fld := ⟨rLEDG_CNT_WAIT, 31, 0⟩
abbrev rLEDG_CNT_REFUSED : Nat := 0x1a0028
abbrev fLEDG_CNT_REFUSED_COUNT : Fld := ⟨rLEDG_CNT_REFUSED, 31, 0⟩
abbrev rLEDG_CNT_PAUSED : Nat := 0x1a002c
abbrev fLEDG_CNT_PAUSED_COUNT : Fld := ⟨rLEDG_CNT_PAUSED, 31, 0⟩
abbrev rLEDG_CNT_TENT : Nat := 0x1a0030
abbrev fLEDG_CNT_TENT_COUNT : Fld := ⟨rLEDG_CNT_TENT, 31, 0⟩
abbrev rLEDG_CNT_TENT_USED : Nat := 0x1a0034
abbrev fLEDG_CNT_TENT_USED_COUNT : Fld := ⟨rLEDG_CNT_TENT_USED, 31, 0⟩
abbrev rLEDG_CNT_REVOKED : Nat := 0x1a0038
abbrev fLEDG_CNT_REVOKED_COUNT : Fld := ⟨rLEDG_CNT_REVOKED, 31, 0⟩
abbrev rLEDG_CNT_CLR : Nat := 0x1a003c
abbrev fLEDG_CNT_CLR_CLR : Fld := ⟨rLEDG_CNT_CLR, 0, 0⟩
abbrev rLEDG_BUS_CFG (n : Nat) : Nat := 0x1a1000 + n * 0x40
abbrev fLEDG_BUS_CFG_EN (n : Nat) : Fld := ⟨rLEDG_BUS_CFG n, 31, 31⟩
abbrev fLEDG_BUS_CFG_HOLDOFF (n : Nat) : Fld := ⟨rLEDG_BUS_CFG n, 23, 16⟩
abbrev fLEDG_BUS_CFG_CONFIRM (n : Nat) : Fld := ⟨rLEDG_BUS_CFG n, 11, 8⟩
abbrev rLEDG_BUS_K (n : Nat) : Nat := 0x1a1004 + n * 0x40
abbrev fLEDG_BUS_K_K_EXP (n : Nat) : Fld := ⟨rLEDG_BUS_K n, 26, 16⟩
abbrev fLEDG_BUS_K_K_IMP (n : Nat) : Fld := ⟨rLEDG_BUS_K n, 10, 0⟩
abbrev rLEDG_BUS_IMP_BUDGET (n : Nat) : Nat := 0x1a1008 + n * 0x40
abbrev fLEDG_BUS_IMP_BUDGET_MW (n : Nat) : Fld := ⟨rLEDG_BUS_IMP_BUDGET n, 31, 0⟩
abbrev rLEDG_BUS_EXP_BUDGET (n : Nat) : Nat := 0x1a100c + n * 0x40
abbrev fLEDG_BUS_EXP_BUDGET_MW (n : Nat) : Fld := ⟨rLEDG_BUS_EXP_BUDGET n, 31, 0⟩
abbrev rLEDG_BUS_IMP_SHED (n : Nat) : Nat := 0x1a1010 + n * 0x40
abbrev fLEDG_BUS_IMP_SHED_MW (n : Nat) : Fld := ⟨rLEDG_BUS_IMP_SHED n, 31, 0⟩
abbrev rLEDG_BUS_EXP_SHED (n : Nat) : Nat := 0x1a1014 + n * 0x40
abbrev fLEDG_BUS_EXP_SHED_MW (n : Nat) : Fld := ⟨rLEDG_BUS_EXP_SHED n, 31, 0⟩
abbrev rLEDG_BUS_IMP_BOOKED (n : Nat) : Nat := 0x1a1018 + n * 0x40
abbrev fLEDG_BUS_IMP_BOOKED_MW (n : Nat) : Fld := ⟨rLEDG_BUS_IMP_BOOKED n, 31, 0⟩
abbrev rLEDG_BUS_EXP_BOOKED (n : Nat) : Nat := 0x1a101c + n * 0x40
abbrev fLEDG_BUS_EXP_BOOKED_MW (n : Nat) : Fld := ⟨rLEDG_BUS_EXP_BOOKED n, 31, 0⟩
abbrev rLEDG_BUS_IMP_TENT (n : Nat) : Nat := 0x1a1020 + n * 0x40
abbrev fLEDG_BUS_IMP_TENT_MW (n : Nat) : Fld := ⟨rLEDG_BUS_IMP_TENT n, 31, 0⟩
abbrev rLEDG_BUS_EXP_TENT (n : Nat) : Nat := 0x1a1024 + n * 0x40
abbrev fLEDG_BUS_EXP_TENT_MW (n : Nat) : Fld := ⟨rLEDG_BUS_EXP_TENT n, 31, 0⟩
abbrev rLEDG_BUS_IMP_MEAS (n : Nat) : Nat := 0x1a1028 + n * 0x40
abbrev fLEDG_BUS_IMP_MEAS_MW (n : Nat) : Fld := ⟨rLEDG_BUS_IMP_MEAS n, 31, 0⟩
abbrev rLEDG_BUS_EXP_MEAS (n : Nat) : Nat := 0x1a102c + n * 0x40
abbrev fLEDG_BUS_EXP_MEAS_MW (n : Nat) : Fld := ⟨rLEDG_BUS_EXP_MEAS n, 31, 0⟩
abbrev rLEDG_BUS_STAT (n : Nat) : Nat := 0x1a1030 + n * 0x40
abbrev fLEDG_BUS_STAT_OVL_IMP (n : Nat) : Fld := ⟨rLEDG_BUS_STAT n, 31, 31⟩
abbrev fLEDG_BUS_STAT_OVL_EXP (n : Nat) : Fld := ⟨rLEDG_BUS_STAT n, 30, 30⟩
abbrev fLEDG_BUS_STAT_HOLDOFF (n : Nat) : Fld := ⟨rLEDG_BUS_STAT n, 29, 29⟩
abbrev fLEDG_BUS_STAT_PAUSED (n : Nat) : Fld := ⟨rLEDG_BUS_STAT n, 27, 14⟩
abbrev fLEDG_BUS_STAT_WAITING (n : Nat) : Fld := ⟨rLEDG_BUS_STAT n, 13, 0⟩
abbrev rLEDG_BUS_CNT_SHED (n : Nat) : Nat := 0x1a1034 + n * 0x40
abbrev fLEDG_BUS_CNT_SHED_COUNT (n : Nat) : Fld := ⟨rLEDG_BUS_CNT_SHED n, 31, 0⟩
abbrev rLEDG_ROW_BUS (n : Nat) : Nat := 0x1a3000 + n * 4
abbrev fLEDG_ROW_BUS_BUS (n : Nat) : Fld := ⟨rLEDG_ROW_BUS n, 5, 0⟩

def ledgRows0 : List RegRow := [
  ⟨0x1a0000, 1, 0, 1, 0, 1, 0, [⟨31, 31, .w1s, 0, []⟩]⟩,
  ⟨0x1a0004, 1, 0, 1, 0, 1, 0, [⟨4, 4, .w1c, 0, []⟩, ⟨3, 3, .w1c, 0, []⟩, ⟨2, 2, .w1c, 0, []⟩, ⟨1, 1, .w1c, 0, []⟩, ⟨0, 0, .w1c, 0, []⟩]⟩,
  ⟨0x1a0008, 1, 0, 1, 0, 1, 0, [⟨29, 16, .ro, 0, []⟩, ⟨13, 0, .ro, 0, []⟩]⟩,
  ⟨0x1a000c, 1, 0, 1, 0, 1, 0, [⟨10, 0, .rwl, 0x240, [(0, 0x780)]⟩]⟩,
  ⟨0x1a0010, 1, 0, 1, 0, 1, 0, [⟨16, 0, .rw, 0, []⟩]⟩,
  ⟨0x1a0014, 1, 0, 1, 0, 1, 0, [⟨31, 27, .ro, 0, []⟩, ⟨26, 24, .ro, 0, []⟩, ⟨23, 0, .ro, 0, []⟩]⟩,
  ⟨0x1a0018, 1, 0, 1, 0, 1, 0, [⟨31, 31, .ro, 0, []⟩, ⟨30, 29, .ro, 0, []⟩, ⟨23, 0, .ro, 0, []⟩]⟩,
  ⟨0x1a001c, 1, 0, 1, 0, 1, 0, [⟨31, 0, .ro, 0, []⟩]⟩,
  ⟨0x1a0020, 1, 0, 1, 0, 1, 0, [⟨31, 0, .ro, 0, []⟩]⟩,
  ⟨0x1a0024, 1, 0, 1, 0, 1, 0, [⟨31, 0, .ro, 0, []⟩]⟩,
  ⟨0x1a0028, 1, 0, 1, 0, 1, 0, [⟨31, 0, .ro, 0, []⟩]⟩,
  ⟨0x1a002c, 1, 0, 1, 0, 1, 0, [⟨31, 0, .ro, 0, []⟩]⟩,
  ⟨0x1a0030, 1, 0, 1, 0, 1, 0, [⟨31, 0, .ro, 0, []⟩]⟩,
  ⟨0x1a0034, 1, 0, 1, 0, 1, 0, [⟨31, 0, .ro, 0, []⟩]⟩,
  ⟨0x1a0038, 1, 0, 1, 0, 1, 0, [⟨31, 0, .ro, 0, []⟩]⟩,
  ⟨0x1a003c, 1, 0, 1, 0, 1, 0, [⟨0, 0, .wo, 0, []⟩]⟩,
  ⟨0x1a1000, 0x40, 0x40, 1, 0, 1, 0, [⟨31, 31, .rw, 0, []⟩, ⟨23, 16, .rw, 0x10, []⟩, ⟨11, 8, .rw, 3, [(1, 0xf)]⟩]⟩,
  ⟨0x1a1004, 0x40, 0x40, 1, 0, 1, 0, [⟨26, 16, .rwl, 0x39a, [(0x200, 0x7ff)]⟩, ⟨10, 0, .rwl, 0x466, [(0x200, 0x7ff)]⟩]⟩,
  ⟨0x1a1008, 0x40, 0x40, 1, 0, 1, 0, [⟨31, 0, .rw, 0, []⟩]⟩,
  ⟨0x1a100c, 0x40, 0x40, 1, 0, 1, 0, [⟨31, 0, .rw, 0, []⟩]⟩]

def ledgRows1 : List RegRow := [
  ⟨0x1a1010, 0x40, 0x40, 1, 0, 1, 0, [⟨31, 0, .rw, 0xffffffff, []⟩]⟩,
  ⟨0x1a1014, 0x40, 0x40, 1, 0, 1, 0, [⟨31, 0, .rw, 0xffffffff, []⟩]⟩,
  ⟨0x1a1018, 0x40, 0x40, 1, 0, 1, 0, [⟨31, 0, .ro, 0, []⟩]⟩,
  ⟨0x1a101c, 0x40, 0x40, 1, 0, 1, 0, [⟨31, 0, .ro, 0, []⟩]⟩,
  ⟨0x1a1020, 0x40, 0x40, 1, 0, 1, 0, [⟨31, 0, .ro, 0, []⟩]⟩,
  ⟨0x1a1024, 0x40, 0x40, 1, 0, 1, 0, [⟨31, 0, .ro, 0, []⟩]⟩,
  ⟨0x1a1028, 0x40, 0x40, 1, 0, 1, 0, [⟨31, 0, .ro, 0, []⟩]⟩,
  ⟨0x1a102c, 0x40, 0x40, 1, 0, 1, 0, [⟨31, 0, .ro, 0, []⟩]⟩,
  ⟨0x1a1030, 0x40, 0x40, 1, 0, 1, 0, [⟨31, 31, .ro, 0, []⟩, ⟨30, 30, .ro, 0, []⟩, ⟨29, 29, .ro, 0, []⟩, ⟨27, 14, .ro, 0, []⟩, ⟨13, 0, .ro, 0, []⟩]⟩,
  ⟨0x1a1034, 0x40, 0x40, 1, 0, 1, 0, [⟨31, 0, .ro, 0, []⟩]⟩,
  ⟨0x1a3000, 0x200, 4, 1, 0, 1, 0, [⟨5, 0, .rw, 0, []⟩]⟩]

/-- The register table of the LEDG block. -/
def ledgRows : List RegRow := ledgRows0 ++ ledgRows1

/-! ### TRLC block (chapter 10 and 11) -/

abbrev rTRL_CTRL : Nat := 0x1f0000
abbrev fTRL_CTRL_LOCK : Fld := ⟨rTRL_CTRL, 31, 31⟩
abbrev fTRL_CTRL_SPLIT_EN : Fld := ⟨rTRL_CTRL, 16, 16⟩
abbrev fTRL_CTRL_LOSS_CYCLES : Fld := ⟨rTRL_CTRL, 14, 8⟩
abbrev fTRL_CTRL_TRIP_REPEAT : Fld := ⟨rTRL_CTRL, 1, 0⟩
abbrev rTRL_GEN : Nat := 0x1f0004
abbrev fTRL_GEN_GEN : Fld := ⟨rTRL_GEN, 15, 0⟩
abbrev rTRL_MAC_LO : Nat := 0x1f0008
abbrev fTRL_MAC_LO_MAC : Fld := ⟨rTRL_MAC_LO, 31, 0⟩
abbrev rTRL_MAC_HI : Nat := 0x1f000c
abbrev fTRL_MAC_HI_MAC : Fld := ⟨rTRL_MAC_HI, 15, 0⟩
abbrev rTRL_TBL_SCHED : Nat := 0x1f0010
abbrev fTRL_TBL_SCHED_BASE : Fld := ⟨rTRL_TBL_SCHED, 10, 0⟩
abbrev rTRL_SCHED_COMMIT : Nat := 0x1f0014
abbrev fTRL_SCHED_COMMIT_PORT : Fld := ⟨rTRL_SCHED_COMMIT, 31, 0⟩
abbrev rTRL_SCHED_RESULT : Nat := 0x1f0018
abbrev fTRL_SCHED_RESULT_RESULT : Fld := ⟨rTRL_SCHED_RESULT, 31, 28⟩
abbrev fTRL_SCHED_RESULT_PORT : Fld := ⟨rTRL_SCHED_RESULT, 20, 16⟩
abbrev rTRL_DELAY_CFG : Nat := 0x1f001c
abbrev fTRL_DELAY_CFG_EVERY : Fld := ⟨rTRL_DELAY_CFG, 15, 0⟩
abbrev rTRL_SPLIT_CFG : Nat := 0x1f0020
abbrev fTRL_SPLIT_CFG_DETECT : Fld := ⟨rTRL_SPLIT_CFG, 7, 0⟩
abbrev rTRL_SPLIT_STAT : Nat := 0x1f0024
abbrev fTRL_SPLIT_STAT_SPLIT : Fld := ⟨rTRL_SPLIT_STAT, 31, 0⟩
abbrev rTRL_STAT : Nat := 0x1f0028
abbrev fTRL_STAT_GEN : Fld := ⟨rTRL_STAT, 3, 3⟩
abbrev fTRL_STAT_DELAY_BAD : Fld := ⟨rTRL_STAT, 2, 2⟩
abbrev fTRL_STAT_SPLIT_REFUSED : Fld := ⟨rTRL_STAT, 1, 1⟩
abbrev fTRL_STAT_SCHED_BAD : Fld := ⟨rTRL_STAT, 0, 0⟩
abbrev rTRL_RFX_CTRL : Nat := 0x1f0100
abbrev fTRL_RFX_CTRL_LOCK : Fld := ⟨rTRL_RFX_CTRL, 31, 31⟩
abbrev fTRL_RFX_CTRL_TBL : Fld := ⟨rTRL_RFX_CTRL, 10, 0⟩
abbrev rTRL_RFX_STAT : Nat := 0x1f0104
abbrev fTRL_RFX_STAT_RELAY : Fld := ⟨rTRL_RFX_STAT, 2, 2⟩
abbrev fTRL_RFX_STAT_DROP : Fld := ⟨rTRL_RFX_STAT, 1, 1⟩
abbrev fTRL_RFX_STAT_BAD_ENTRY : Fld := ⟨rTRL_RFX_STAT, 0, 0⟩
abbrev rTRL_RFX_LAST : Nat := 0x1f0108
abbrev fTRL_RFX_LAST_ENTRY : Fld := ⟨rTRL_RFX_LAST, 31, 24⟩
abbrev fTRL_RFX_LAST_KIND : Fld := ⟨rTRL_RFX_LAST, 23, 20⟩
abbrev fTRL_RFX_LAST_SCOPE : Fld := ⟨rTRL_RFX_LAST, 17, 16⟩
abbrev fTRL_RFX_LAST_ROW : Fld := ⟨rTRL_RFX_LAST, 9, 0⟩
abbrev rTRL_RFX_LAST_LT_LO : Nat := 0x1f010c
abbrev fTRL_RFX_LAST_LT_LO_LT : Fld := ⟨rTRL_RFX_LAST_LT_LO, 31, 0⟩
abbrev rTRL_RFX_LAST_LT_HI : Nat := 0x1f0110
abbrev fTRL_RFX_LAST_LT_HI_LT : Fld := ⟨rTRL_RFX_LAST_LT_HI, 31, 0⟩
abbrev rTRL_RFX_CLR : Nat := 0x1f0114
abbrev fTRL_RFX_CLR_CLR : Fld := ⟨rTRL_RFX_CLR, 0, 0⟩
abbrev rTRL_RFX_CNT (n : Nat) : Nat := 0x1f0400 + n * 4
abbrev fTRL_RFX_CNT_COUNT (n : Nat) : Fld := ⟨rTRL_RFX_CNT n, 31, 0⟩

def trlcRows0 : List RegRow := [
  ⟨0x1f0000, 1, 0, 1, 0, 1, 0, [⟨31, 31, .w1s, 0, []⟩, ⟨16, 16, .rwl, 1, []⟩, ⟨14, 8, .rw, 0xc, [(2, 0x40)]⟩, ⟨1, 0, .rw, 2, []⟩]⟩,
  ⟨0x1f0004, 1, 0, 1, 0, 1, 0, [⟨15, 0, .ro, 0, []⟩]⟩,
  ⟨0x1f0008, 1, 0, 1, 0, 1, 0, [⟨31, 0, .ro, 0, []⟩]⟩,
  ⟨0x1f000c, 1, 0, 1, 0, 1, 0, [⟨15, 0, .ro, 0x200, []⟩]⟩,
  ⟨0x1f0010, 1, 0, 1, 0, 1, 0, [⟨10, 0, .rwl, 0x2c0, [(0, 0x7fc)]⟩]⟩,
  ⟨0x1f0014, 1, 0, 1, 0, 1, 0, [⟨31, 0, .w1s, 0, []⟩]⟩,
  ⟨0x1f0018, 1, 0, 1, 0, 1, 0, [⟨31, 28, .ro, 0, []⟩, ⟨20, 16, .ro, 0, []⟩]⟩,
  ⟨0x1f001c, 1, 0, 1, 0, 1, 0, [⟨15, 0, .rw, 0x40, [(1, 0xffff)]⟩]⟩,
  ⟨0x1f0020, 1, 0, 1, 0, 1, 0, [⟨7, 0, .rw, 2, [(1, 8)]⟩]⟩,
  ⟨0x1f0024, 1, 0, 1, 0, 1, 0, [⟨31, 0, .ro, 0, []⟩]⟩,
  ⟨0x1f0028, 1, 0, 1, 0, 1, 0, [⟨3, 3, .w1c, 0, []⟩, ⟨2, 2, .w1c, 0, []⟩, ⟨1, 1, .w1c, 0, []⟩, ⟨0, 0, .w1c, 0, []⟩]⟩,
  ⟨0x1f0100, 1, 0, 1, 0, 1, 0, [⟨31, 31, .w1s, 0, []⟩, ⟨10, 0, .rwl, 0x2c8, []⟩]⟩,
  ⟨0x1f0104, 1, 0, 1, 0, 1, 0, [⟨2, 2, .w1c, 0, []⟩, ⟨1, 1, .w1c, 0, []⟩, ⟨0, 0, .w1c, 0, []⟩]⟩,
  ⟨0x1f0108, 1, 0, 1, 0, 1, 0, [⟨31, 24, .ro, 0, []⟩, ⟨23, 20, .ro, 0, []⟩, ⟨17, 16, .ro, 0, []⟩, ⟨9, 0, .ro, 0x3ff, []⟩]⟩,
  ⟨0x1f010c, 1, 0, 1, 0, 1, 0, [⟨31, 0, .ro, 0, []⟩]⟩,
  ⟨0x1f0110, 1, 0, 1, 0, 1, 0, [⟨31, 0, .ro, 0, []⟩]⟩,
  ⟨0x1f0114, 1, 0, 1, 0, 1, 0, [⟨0, 0, .wo, 0, []⟩]⟩,
  ⟨0x1f0400, 0x100, 4, 1, 0, 1, 0, [⟨31, 0, .ro, 0, []⟩]⟩]

/-- The register table of the TRLC block. -/
def trlcRows : List RegRow := trlcRows0

/-! ### TRL block (chapter 10) -/

abbrev rTRL_PORT_CTRL (n : Nat) : Nat := 0x200000 + n * 0x4000
abbrev fTRL_PORT_CTRL_MEDIA (n : Nat) : Fld := ⟨rTRL_PORT_CTRL n, 9, 8⟩
abbrev fTRL_PORT_CTRL_HELLO (n : Nat) : Fld := ⟨rTRL_PORT_CTRL n, 4, 4⟩
abbrev fTRL_PORT_CTRL_DELAY (n : Nat) : Fld := ⟨rTRL_PORT_CTRL n, 3, 3⟩
abbrev fTRL_PORT_CTRL_RETRAIN (n : Nat) : Fld := ⟨rTRL_PORT_CTRL n, 2, 2⟩
abbrev fTRL_PORT_CTRL_RESET (n : Nat) : Fld := ⟨rTRL_PORT_CTRL n, 1, 1⟩
abbrev fTRL_PORT_CTRL_EN (n : Nat) : Fld := ⟨rTRL_PORT_CTRL n, 0, 0⟩
abbrev rTRL_PORT_STAT (n : Nat) : Nat := 0x200004 + n * 0x4000
abbrev fTRL_PORT_STAT_READY (n : Nat) : Fld := ⟨rTRL_PORT_STAT n, 31, 16⟩
abbrev fTRL_PORT_STAT_SPLIT (n : Nat) : Fld := ⟨rTRL_PORT_STAT n, 8, 8⟩
abbrev fTRL_PORT_STAT_LINK (n : Nat) : Fld := ⟨rTRL_PORT_STAT n, 3, 0⟩
abbrev rTRL_PORT_SCHED (n : Nat) : Nat := 0x200008 + n * 0x4000
abbrev fTRL_PORT_SCHED_COPY (n : Nat) : Fld := ⟨rTRL_PORT_SCHED n, 8, 8⟩
abbrev fTRL_PORT_SCHED_BOARDS (n : Nat) : Fld := ⟨rTRL_PORT_SCHED n, 4, 0⟩
abbrev rTRL_POS_STAT (n : Nat) (i : Nat) : Nat := 0x200010 + n * 0x4000 + i * 4
abbrev fTRL_POS_STAT_STATE (n : Nat) (i : Nat) : Fld := ⟨rTRL_POS_STAT n i, 31, 28⟩
abbrev fTRL_POS_STAT_ROW (n : Nat) (i : Nat) : Fld := ⟨rTRL_POS_STAT n i, 24, 16⟩
abbrev fTRL_POS_STAT_SKEW (n : Nat) (i : Nat) : Fld := ⟨rTRL_POS_STAT n i, 15, 0⟩
abbrev rTRL_POS_DN (n : Nat) (i : Nat) : Nat := 0x200050 + n * 0x4000 + i * 4
abbrev fTRL_POS_DN_DELAY (n : Nat) (i : Nat) : Fld := ⟨rTRL_POS_DN n i, 31, 0⟩
abbrev rTRL_POS_UP (n : Nat) (i : Nat) : Nat := 0x200090 + n * 0x4000 + i * 4
abbrev fTRL_POS_UP_DELAY (n : Nat) (i : Nat) : Fld := ⟨rTRL_POS_UP n i, 31, 0⟩
abbrev rTRL_LINE_END (n : Nat) : Nat := 0x2000d0 + n * 0x4000
abbrev fTRL_LINE_END_VALID (n : Nat) : Fld := ⟨rTRL_LINE_END n, 31, 31⟩
abbrev fTRL_LINE_END_DELAY (n : Nat) : Fld := ⟨rTRL_LINE_END n, 30, 0⟩
abbrev rTRL_CNT (n : Nat) (i : Nat) : Nat := 0x200100 + n * 0x4000 + i * 4
abbrev fTRL_CNT_COUNT (n : Nat) (i : Nat) : Fld := ⟨rTRL_CNT n i, 31, 0⟩
abbrev rTRL_CNT_CLR (n : Nat) : Nat := 0x200180 + n * 0x4000
abbrev fTRL_CNT_CLR_CLR (n : Nat) : Fld := ⟨rTRL_CNT_CLR n, 0, 0⟩
abbrev rTRL_MGMT_TX (n : Nat) : Nat := 0x200200 + n * 0x4000
abbrev fTRL_MGMT_TX_BUSY (n : Nat) : Fld := ⟨rTRL_MGMT_TX n, 31, 31⟩
abbrev fTRL_MGMT_TX_GO (n : Nat) : Fld := ⟨rTRL_MGMT_TX n, 30, 30⟩
abbrev fTRL_MGMT_TX_TARGET (n : Nat) : Fld := ⟨rTRL_MGMT_TX n, 27, 24⟩
abbrev fTRL_MGMT_TX_TAG (n : Nat) : Fld := ⟨rTRL_MGMT_TX n, 23, 16⟩
abbrev fTRL_MGMT_TX_LEN (n : Nat) : Fld := ⟨rTRL_MGMT_TX n, 10, 0⟩
abbrev rTRL_MGMT_RX (n : Nat) : Nat := 0x200204 + n * 0x4000
abbrev fTRL_MGMT_RX_VALID (n : Nat) : Fld := ⟨rTRL_MGMT_RX n, 31, 31⟩
abbrev fTRL_MGMT_RX_OVERRUN (n : Nat) : Fld := ⟨rTRL_MGMT_RX n, 30, 30⟩
abbrev fTRL_MGMT_RX_SRC (n : Nat) : Fld := ⟨rTRL_MGMT_RX n, 27, 24⟩
abbrev fTRL_MGMT_RX_TAG (n : Nat) : Fld := ⟨rTRL_MGMT_RX n, 23, 16⟩
abbrev fTRL_MGMT_RX_LEN (n : Nat) : Fld := ⟨rTRL_MGMT_RX n, 10, 0⟩
abbrev rTRL_HELLO (n : Nat) (i : Nat) (j : Nat) : Nat := 0x201000 + n * 0x4000 + i * 0x80 + j * 4
abbrev fTRL_HELLO_BYTES (n : Nat) (i : Nat) (j : Nat) : Fld := ⟨rTRL_HELLO n i j, 31, 0⟩
abbrev rTRL_MGMT_TXBUF (n : Nat) (i : Nat) : Nat := 0x202000 + n * 0x4000 + i * 4
abbrev fTRL_MGMT_TXBUF_DATA (n : Nat) (i : Nat) : Fld := ⟨rTRL_MGMT_TXBUF n i, 31, 0⟩
abbrev rTRL_MGMT_RXBUF (n : Nat) (i : Nat) : Nat := 0x202400 + n * 0x4000 + i * 4
abbrev fTRL_MGMT_RXBUF_DATA (n : Nat) (i : Nat) : Fld := ⟨rTRL_MGMT_RXBUF n i, 31, 0⟩

def trlRows0 : List RegRow := [
  ⟨0x200000, 0x20, 0x4000, 1, 0, 1, 0, [⟨9, 8, .rw, 0, [(0, 2)]⟩, ⟨4, 4, .wo, 0, []⟩, ⟨3, 3, .wo, 0, []⟩, ⟨2, 2, .wo, 0, []⟩, ⟨1, 1, .wo, 0, []⟩, ⟨0, 0, .rw, 0, []⟩]⟩,
  ⟨0x200004, 0x20, 0x4000, 1, 0, 1, 0, [⟨31, 16, .ro, 0, []⟩, ⟨8, 8, .ro, 0, []⟩, ⟨3, 0, .ro, 0, []⟩]⟩,
  ⟨0x200008, 0x20, 0x4000, 1, 0, 1, 0, [⟨8, 8, .ro, 0, []⟩, ⟨4, 0, .ro, 0x10, []⟩]⟩,
  ⟨0x200010, 0x20, 0x4000, 0x10, 4, 1, 0, [⟨31, 28, .ro, 0, []⟩, ⟨24, 16, .ro, 0, []⟩, ⟨15, 0, .ro, 0, []⟩]⟩,
  ⟨0x200050, 0x20, 0x4000, 0x10, 4, 1, 0, [⟨31, 0, .ro, 0, []⟩]⟩,
  ⟨0x200090, 0x20, 0x4000, 0x10, 4, 1, 0, [⟨31, 0, .ro, 0, []⟩]⟩,
  ⟨0x2000d0, 0x20, 0x4000, 1, 0, 1, 0, [⟨31, 31, .ro, 0, []⟩, ⟨30, 0, .ro, 0, []⟩]⟩,
  ⟨0x200100, 0x20, 0x4000, 0x18, 4, 1, 0, [⟨31, 0, .ro, 0, []⟩]⟩,
  ⟨0x200180, 0x20, 0x4000, 1, 0, 1, 0, [⟨0, 0, .wo, 0, []⟩]⟩,
  ⟨0x200200, 0x20, 0x4000, 1, 0, 1, 0, [⟨31, 31, .ro, 0, []⟩, ⟨30, 30, .wo, 0, []⟩, ⟨27, 24, .rw, 0, []⟩, ⟨23, 16, .rw, 0, []⟩, ⟨10, 0, .rw, 0, [(0, 0x400)]⟩]⟩,
  ⟨0x200204, 0x20, 0x4000, 1, 0, 1, 0, [⟨31, 31, .w1c, 0, []⟩, ⟨30, 30, .w1c, 0, []⟩, ⟨27, 24, .ro, 0, []⟩, ⟨23, 16, .ro, 0, []⟩, ⟨10, 0, .ro, 0, []⟩]⟩,
  ⟨0x201000, 0x20, 0x4000, 0x10, 0x80, 0x1e, 4, [⟨31, 0, .ro, 0, []⟩]⟩,
  ⟨0x202000, 0x20, 0x4000, 0x100, 4, 1, 0, [⟨31, 0, .rw, 0, []⟩]⟩,
  ⟨0x202400, 0x20, 0x4000, 0x100, 4, 1, 0, [⟨31, 0, .ro, 0, []⟩]⟩]

/-- The register table of the TRL block. -/
def trlRows : List RegRow := trlRows0

/-! ### RACK block (chapter 14) -/

abbrev rRACK_CTRL : Nat := 0x280000
abbrev fRACK_CTRL_LOCK : Fld := ⟨rRACK_CTRL, 31, 31⟩
abbrev fRACK_CTRL_MEDIA : Fld := ⟨rRACK_CTRL, 9, 8⟩
abbrev rRACK_CFG : Nat := 0x280004
abbrev fRACK_CFG_SWEEP_MAX : Fld := ⟨rRACK_CFG, 31, 16⟩
abbrev fRACK_CFG_BEAT_LOSS : Fld := ⟨rRACK_CFG, 3, 0⟩
abbrev rRACK_STAT : Nat := 0x280008
abbrev fRACK_STAT_ROLE : Fld := ⟨rRACK_STAT, 31, 30⟩
abbrev fRACK_STAT_SYNC : Fld := ⟨rRACK_STAT, 29, 27⟩
abbrev fRACK_STAT_SLOT_ID : Fld := ⟨rRACK_STAT, 23, 23⟩
abbrev fRACK_STAT_PEER_IN : Fld := ⟨rRACK_STAT, 22, 22⟩
abbrev fRACK_STAT_ACTIVE_OUT : Fld := ⟨rRACK_STAT, 21, 21⟩
abbrev fRACK_STAT_GATE : Fld := ⟨rRACK_STAT, 20, 20⟩
abbrev fRACK_STAT_LANES : Fld := ⟨rRACK_STAT, 19, 16⟩
abbrev rRACK_ERR : Nat := 0x28000c
abbrev fRACK_ERR_NOT_SYNCED : Fld := ⟨rRACK_ERR, 5, 5⟩
abbrev fRACK_ERR_WR_HOLD : Fld := ⟨rRACK_ERR, 4, 4⟩
abbrev fRACK_ERR_RESEND : Fld := ⟨rRACK_ERR, 3, 3⟩
abbrev fRACK_ERR_SLOT_CLASH : Fld := ⟨rRACK_ERR, 2, 2⟩
abbrev fRACK_ERR_SWEEP_LONG : Fld := ⟨rRACK_ERR, 1, 1⟩
abbrev fRACK_ERR_PEER_LOST : Fld := ⟨rRACK_ERR, 0, 0⟩
abbrev rRACK_CMD : Nat := 0x280010
abbrev fRACK_CMD_RESYNC : Fld := ⟨rRACK_CMD, 1, 1⟩
abbrev fRACK_CMD_SWAP : Fld := ⟨rRACK_CMD, 0, 0⟩
abbrev rRACK_CMD_RESULT : Nat := 0x280014
abbrev fRACK_CMD_RESULT_RESULT : Fld := ⟨rRACK_CMD_RESULT, 31, 28⟩
abbrev fRACK_CMD_RESULT_W : Fld := ⟨rRACK_CMD_RESULT, 15, 0⟩
abbrev rRACK_GEN_SEED : Nat := 0x280018
abbrev fRACK_GEN_SEED_GEN : Fld := ⟨rRACK_GEN_SEED, 15, 0⟩
abbrev rRACK_TAKE : Nat := 0x28001c
abbrev fRACK_TAKE_CAUSE : Fld := ⟨rRACK_TAKE, 31, 28⟩
abbrev rRACK_TAKE_CYCLE_LO : Nat := 0x280020
abbrev fRACK_TAKE_CYCLE_LO_CYCLE : Fld := ⟨rRACK_TAKE_CYCLE_LO, 31, 0⟩
abbrev rRACK_TAKE_CYCLE_HI : Nat := 0x280024
abbrev fRACK_TAKE_CYCLE_HI_CYCLE : Fld := ⟨rRACK_TAKE_CYCLE_HI, 31, 0⟩
abbrev rRACK_FILL : Nat := 0x280028
abbrev fRACK_FILL_PHASE : Fld := ⟨rRACK_FILL, 31, 28⟩
abbrev fRACK_FILL_PERCENT : Fld := ⟨rRACK_FILL, 6, 0⟩
abbrev rRACK_SWEEP_LAST : Nat := 0x28002c
abbrev fRACK_SWEEP_LAST_US : Fld := ⟨rRACK_SWEEP_LAST, 31, 0⟩
abbrev rRACK_SWEEP_WORST : Nat := 0x280030
abbrev fRACK_SWEEP_WORST_US : Fld := ⟨rRACK_SWEEP_WORST, 31, 0⟩
abbrev rRACK_SWEEP_BYTES : Nat := 0x280034
abbrev fRACK_SWEEP_BYTES_KB : Fld := ⟨rRACK_SWEEP_BYTES, 31, 0⟩
abbrev rRACK_LT_OFS : Nat := 0x280038
abbrev fRACK_LT_OFS_OFS : Fld := ⟨rRACK_LT_OFS, 31, 0⟩
abbrev rRACK_LINK_DELAY : Nat := 0x28003c
abbrev fRACK_LINK_DELAY_DELAY : Fld := ⟨rRACK_LINK_DELAY, 31, 0⟩
abbrev rRACK_PEER_SERIAL_LO : Nat := 0x280040
abbrev fRACK_PEER_SERIAL_LO_SERIAL : Fld := ⟨rRACK_PEER_SERIAL_LO, 31, 0⟩
abbrev rRACK_PEER_SERIAL_HI : Nat := 0x280044
abbrev fRACK_PEER_SERIAL_HI_SERIAL : Fld := ⟨rRACK_PEER_SERIAL_HI, 31, 0⟩
abbrev rRACK_PEER_STAT : Nat := 0x280048
abbrev fRACK_PEER_STAT_ROLE : Fld := ⟨rRACK_PEER_STAT, 31, 30⟩
abbrev fRACK_PEER_STAT_SYNC : Fld := ⟨rRACK_PEER_STAT, 29, 27⟩
abbrev fRACK_PEER_STAT_SLOT_ID : Fld := ⟨rRACK_PEER_STAT, 26, 26⟩
abbrev fRACK_PEER_STAT_GEN : Fld := ⟨rRACK_PEER_STAT, 15, 0⟩
abbrev rRACK_PEER_DIE (n : Nat) (i : Nat) : Nat := 0x280050 + n * 0x10 + i * 4
abbrev fRACK_PEER_DIE_ID (n : Nat) (i : Nat) : Fld := ⟨rRACK_PEER_DIE n i, 31, 0⟩
abbrev rRACK_CNT (n : Nat) : Nat := 0x280080 + n * 4
abbrev fRACK_CNT_COUNT (n : Nat) : Fld := ⟨rRACK_CNT n, 31, 0⟩
abbrev rRACK_CNT_CLR : Nat := 0x2800b0
abbrev fRACK_CNT_CLR_CLR : Fld := ⟨rRACK_CNT_CLR, 0, 0⟩
abbrev rRACK_PART (n : Nat) : Nat := 0x281000 + n * 4
abbrev fRACK_PART_DIV (n : Nat) : Fld := ⟨rRACK_PART n, 9, 8⟩
abbrev fRACK_PART_DATA (n : Nat) : Fld := ⟨rRACK_PART n, 5, 5⟩
abbrev fRACK_PART_SHARED (n : Nat) : Fld := ⟨rRACK_PART n, 4, 4⟩
abbrev fRACK_PART_VARS (n : Nat) : Fld := ⟨rRACK_PART n, 2, 0⟩

def rackRows0 : List RegRow := [
  ⟨0x280000, 1, 0, 1, 0, 1, 0, [⟨31, 31, .w1s, 0, []⟩, ⟨9, 8, .rwl, 0, [(0, 2)]⟩]⟩,
  ⟨0x280004, 1, 0, 1, 0, 1, 0, [⟨31, 16, .rw, 0x3e8, [(0x64, 0xffff)]⟩, ⟨3, 0, .rw, 2, [(1, 0xf)]⟩]⟩,
  ⟨0x280008, 1, 0, 1, 0, 1, 0, [⟨31, 30, .ro, 0, []⟩, ⟨29, 27, .ro, 0, []⟩, ⟨23, 23, .ro, 0, []⟩, ⟨22, 22, .ro, 0, []⟩, ⟨21, 21, .ro, 0, []⟩, ⟨20, 20, .ro, 0, []⟩, ⟨19, 16, .ro, 0, []⟩]⟩,
  ⟨0x28000c, 1, 0, 1, 0, 1, 0, [⟨5, 5, .w1c, 0, []⟩, ⟨4, 4, .w1c, 0, []⟩, ⟨3, 3, .w1c, 0, []⟩, ⟨2, 2, .w1c, 0, []⟩, ⟨1, 1, .w1c, 0, []⟩, ⟨0, 0, .w1c, 0, []⟩]⟩,
  ⟨0x280010, 1, 0, 1, 0, 1, 0, [⟨1, 1, .wo, 0, []⟩, ⟨0, 0, .wo, 0, []⟩]⟩,
  ⟨0x280014, 1, 0, 1, 0, 1, 0, [⟨31, 28, .ro, 0, []⟩, ⟨15, 0, .ro, 0, []⟩]⟩,
  ⟨0x280018, 1, 0, 1, 0, 1, 0, [⟨15, 0, .wo, 0, []⟩]⟩,
  ⟨0x28001c, 1, 0, 1, 0, 1, 0, [⟨31, 28, .ro, 0, []⟩]⟩,
  ⟨0x280020, 1, 0, 1, 0, 1, 0, [⟨31, 0, .ro, 0, []⟩]⟩,
  ⟨0x280024, 1, 0, 1, 0, 1, 0, [⟨31, 0, .ro, 0, []⟩]⟩,
  ⟨0x280028, 1, 0, 1, 0, 1, 0, [⟨31, 28, .ro, 0, []⟩, ⟨6, 0, .ro, 0, []⟩]⟩,
  ⟨0x28002c, 1, 0, 1, 0, 1, 0, [⟨31, 0, .ro, 0, []⟩]⟩,
  ⟨0x280030, 1, 0, 1, 0, 1, 0, [⟨31, 0, .ro, 0, []⟩]⟩,
  ⟨0x280034, 1, 0, 1, 0, 1, 0, [⟨31, 0, .ro, 0x4c00, []⟩]⟩,
  ⟨0x280038, 1, 0, 1, 0, 1, 0, [⟨31, 0, .ro, 0, []⟩]⟩,
  ⟨0x28003c, 1, 0, 1, 0, 1, 0, [⟨31, 0, .ro, 0, []⟩]⟩,
  ⟨0x280040, 1, 0, 1, 0, 1, 0, [⟨31, 0, .ro, 0, []⟩]⟩,
  ⟨0x280044, 1, 0, 1, 0, 1, 0, [⟨31, 0, .ro, 0, []⟩]⟩,
  ⟨0x280048, 1, 0, 1, 0, 1, 0, [⟨31, 30, .ro, 0, []⟩, ⟨29, 27, .ro, 0, []⟩, ⟨26, 26, .ro, 0, []⟩, ⟨15, 0, .ro, 0, []⟩]⟩,
  ⟨0x280050, 2, 0x10, 3, 4, 1, 0, [⟨31, 0, .ro, 0, []⟩]⟩]

def rackRows1 : List RegRow := [
  ⟨0x280080, 0xc, 4, 1, 0, 1, 0, [⟨31, 0, .ro, 0, []⟩]⟩,
  ⟨0x2800b0, 1, 0, 1, 0, 1, 0, [⟨0, 0, .wo, 0, []⟩]⟩,
  ⟨0x281000, 0x100, 4, 1, 0, 1, 0, [⟨9, 8, .rw, 0, []⟩, ⟨5, 5, .rw, 1, []⟩, ⟨4, 4, .rw, 1, []⟩, ⟨2, 0, .rw, 4, [(0, 4)]⟩]⟩]

/-- The register table of the RACK block. -/
def rackRows : List RegRow := rackRows0 ++ rackRows1

/-! ### HOST block (chapter 15) -/

abbrev rHOST_CTRL : Nat := 0x2a0000
abbrev fHOST_CTRL_LOCK : Fld := ⟨rHOST_CTRL, 31, 31⟩
abbrev fHOST_CTRL_AER_EN : Fld := ⟨rHOST_CTRL, 0, 0⟩
abbrev rHOST_STAT : Nat := 0x2a0004
abbrev fHOST_STAT_RETRY : Fld := ⟨rHOST_STAT, 4, 4⟩
abbrev fHOST_STAT_SNAP_SKIP : Fld := ⟨rHOST_STAT, 3, 3⟩
abbrev fHOST_STAT_RQ_LOSS : Fld := ⟨rHOST_STAT, 2, 2⟩
abbrev fHOST_STAT_PWE_WRAP : Fld := ⟨rHOST_STAT, 1, 1⟩
abbrev fHOST_STAT_PWE : Fld := ⟨rHOST_STAT, 0, 0⟩
abbrev rHOST_TBL_STAGE : Nat := 0x2a0008
abbrev fHOST_TBL_STAGE_BASE : Fld := ⟨rHOST_TBL_STAGE, 10, 0⟩
abbrev rHOST_STAGE_USE : Nat := 0x2a000c
abbrev fHOST_STAGE_USE_HWM : Fld := ⟨rHOST_STAGE_USE, 27, 16⟩
abbrev fHOST_STAGE_USE_IN_USE : Fld := ⟨rHOST_STAGE_USE, 11, 0⟩
abbrev rHOST_PWE_STAT : Nat := 0x2a0010
abbrev fHOST_PWE_STAT_COUNT : Fld := ⟨rHOST_PWE_STAT, 31, 16⟩
abbrev fHOST_PWE_STAT_NEXT : Fld := ⟨rHOST_PWE_STAT, 3, 0⟩
abbrev rHOST_PWE_CLR : Nat := 0x2a0014
abbrev fHOST_PWE_CLR_CLR : Fld := ⟨rHOST_PWE_CLR, 0, 0⟩
abbrev rHOST_CNT_RETRY : Nat := 0x2a0018
abbrev fHOST_CNT_RETRY_COUNT : Fld := ⟨rHOST_CNT_RETRY, 31, 0⟩
abbrev rHOST_CNT_CLR : Nat := 0x2a001c
abbrev fHOST_CNT_CLR_CLR : Fld := ⟨rHOST_CNT_CLR, 0, 0⟩
abbrev rHOST_PWE_ADDR (n : Nat) : Nat := 0x2a0100 + n * 0x10
abbrev fHOST_PWE_ADDR_ADDR (n : Nat) : Fld := ⟨rHOST_PWE_ADDR n, 25, 0⟩
abbrev rHOST_PWE_INFO (n : Nat) : Nat := 0x2a0104 + n * 0x10
abbrev fHOST_PWE_INFO_VALID (n : Nat) : Fld := ⟨rHOST_PWE_INFO n, 31, 31⟩
abbrev fHOST_PWE_INFO_REASON (n : Nat) : Fld := ⟨rHOST_PWE_INFO n, 27, 24⟩
abbrev fHOST_PWE_INFO_SEQ (n : Nat) : Fld := ⟨rHOST_PWE_INFO n, 23, 16⟩
abbrev fHOST_PWE_INFO_MASTER (n : Nat) : Fld := ⟨rHOST_PWE_INFO n, 9, 0⟩
abbrev rHOST_PWE_LT_LO (n : Nat) : Nat := 0x2a0108 + n * 0x10
abbrev fHOST_PWE_LT_LO_LT (n : Nat) : Fld := ⟨rHOST_PWE_LT_LO n, 31, 0⟩
abbrev rHOST_PWE_LT_HI (n : Nat) : Nat := 0x2a010c + n * 0x10
abbrev fHOST_PWE_LT_HI_LT (n : Nat) : Fld := ⟨rHOST_PWE_LT_HI n, 31, 0⟩
abbrev rHOST_RQ_ROUTE (n : Nat) : Nat := 0x2a0400 + n * 4
abbrev fHOST_RQ_ROUTE_ROUTE (n : Nat) : Fld := ⟨rHOST_RQ_ROUTE n, 1, 0⟩
abbrev rHOST_RQ_LOST (n : Nat) : Nat := 0x2a0800 + n * 4
abbrev fHOST_RQ_LOST_COUNT (n : Nat) : Fld := ⟨rHOST_RQ_LOST n, 31, 0⟩
abbrev rHOST_RQ_BASE_LO (n : Nat) : Nat := 0x2a1000 + n * 0x40
abbrev fHOST_RQ_BASE_LO_BASE (n : Nat) : Fld := ⟨rHOST_RQ_BASE_LO n, 31, 6⟩
abbrev rHOST_RQ_BASE_HI (n : Nat) : Nat := 0x2a1004 + n * 0x40
abbrev fHOST_RQ_BASE_HI_BASE (n : Nat) : Fld := ⟨rHOST_RQ_BASE_HI n, 31, 0⟩
abbrev rHOST_RQ_CFG (n : Nat) : Nat := 0x2a1008 + n * 0x40
abbrev fHOST_RQ_CFG_EN (n : Nat) : Fld := ⟨rHOST_RQ_CFG n, 31, 31⟩
abbrev fHOST_RQ_CFG_LOG2SIZE (n : Nat) : Fld := ⟨rHOST_RQ_CFG n, 3, 0⟩
abbrev rHOST_RQ_IRQ (n : Nat) : Nat := 0x2a100c + n * 0x40
abbrev fHOST_RQ_IRQ_EN (n : Nat) : Fld := ⟨rHOST_RQ_IRQ n, 31, 31⟩
abbrev fHOST_RQ_IRQ_VECTOR (n : Nat) : Fld := ⟨rHOST_RQ_IRQ n, 25, 16⟩
abbrev fHOST_RQ_IRQ_THRESH (n : Nat) : Fld := ⟨rHOST_RQ_IRQ n, 15, 8⟩
abbrev fHOST_RQ_IRQ_TIMER (n : Nat) : Fld := ⟨rHOST_RQ_IRQ n, 7, 0⟩
abbrev rHOST_RQ_WIDX (n : Nat) : Nat := 0x2a1010 + n * 0x40
abbrev fHOST_RQ_WIDX_IDX (n : Nat) : Fld := ⟨rHOST_RQ_WIDX n, 31, 0⟩
abbrev rHOST_RQ_RIDX (n : Nat) : Nat := 0x2a1014 + n * 0x40
abbrev fHOST_RQ_RIDX_IDX (n : Nat) : Fld := ⟨rHOST_RQ_RIDX n, 31, 0⟩
abbrev rHOST_RQ_WB_LO (n : Nat) : Nat := 0x2a1018 + n * 0x40
abbrev fHOST_RQ_WB_LO_ADDR (n : Nat) : Fld := ⟨rHOST_RQ_WB_LO n, 31, 3⟩
abbrev fHOST_RQ_WB_LO_WB_EN (n : Nat) : Fld := ⟨rHOST_RQ_WB_LO n, 0, 0⟩
abbrev rHOST_RQ_WB_HI (n : Nat) : Nat := 0x2a101c + n * 0x40
abbrev fHOST_RQ_WB_HI_ADDR (n : Nat) : Fld := ⟨rHOST_RQ_WB_HI n, 31, 0⟩
abbrev rHOST_RQ_STAT (n : Nat) : Nat := 0x2a1020 + n * 0x40
abbrev fHOST_RQ_STAT_FULL (n : Nat) : Fld := ⟨rHOST_RQ_STAT n, 31, 31⟩
abbrev fHOST_RQ_STAT_LOSS_PEND (n : Nat) : Fld := ⟨rHOST_RQ_STAT n, 30, 30⟩
abbrev fHOST_RQ_STAT_STAGED (n : Nat) : Fld := ⟨rHOST_RQ_STAT n, 8, 0⟩
abbrev rHOST_SNAP_BASE_LO (n : Nat) : Nat := 0x2a6000 + n * 0x40
abbrev fHOST_SNAP_BASE_LO_BASE (n : Nat) : Fld := ⟨rHOST_SNAP_BASE_LO n, 31, 12⟩
abbrev rHOST_SNAP_BASE_HI (n : Nat) : Nat := 0x2a6004 + n * 0x40
abbrev fHOST_SNAP_BASE_HI_BASE (n : Nat) : Fld := ⟨rHOST_SNAP_BASE_HI n, 31, 0⟩
abbrev rHOST_SNAP_ROWS (n : Nat) : Nat := 0x2a6008 + n * 0x40
abbrev fHOST_SNAP_ROWS_COUNT (n : Nat) : Fld := ⟨rHOST_SNAP_ROWS n, 25, 16⟩
abbrev fHOST_SNAP_ROWS_ROW_FIRST (n : Nat) : Fld := ⟨rHOST_SNAP_ROWS n, 8, 0⟩
abbrev rHOST_SNAP_CFG (n : Nat) : Nat := 0x2a600c + n * 0x40
abbrev fHOST_SNAP_CFG_FUNC (n : Nat) : Fld := ⟨rHOST_SNAP_CFG n, 31, 23⟩
abbrev fHOST_SNAP_CFG_SECTIONS (n : Nat) : Fld := ⟨rHOST_SNAP_CFG n, 21, 16⟩
abbrev fHOST_SNAP_CFG_PERIOD (n : Nat) : Fld := ⟨rHOST_SNAP_CFG n, 15, 0⟩
abbrev rHOST_SNAP_CTRL (n : Nat) : Nat := 0x2a6010 + n * 0x40
abbrev fHOST_SNAP_CTRL_EN (n : Nat) : Fld := ⟨rHOST_SNAP_CTRL n, 31, 31⟩
abbrev fHOST_SNAP_CTRL_GO (n : Nat) : Fld := ⟨rHOST_SNAP_CTRL n, 30, 30⟩
abbrev fHOST_SNAP_CTRL_IRQ_EN (n : Nat) : Fld := ⟨rHOST_SNAP_CTRL n, 29, 29⟩
abbrev fHOST_SNAP_CTRL_NBUF (n : Nat) : Fld := ⟨rHOST_SNAP_CTRL n, 28, 26⟩
abbrev fHOST_SNAP_CTRL_VECTOR (n : Nat) : Fld := ⟨rHOST_SNAP_CTRL n, 25, 16⟩
abbrev rHOST_SNAP_WIDX (n : Nat) : Nat := 0x2a6014 + n * 0x40
abbrev fHOST_SNAP_WIDX_IDX (n : Nat) : Fld := ⟨rHOST_SNAP_WIDX n, 31, 0⟩
abbrev rHOST_SNAP_RIDX (n : Nat) : Nat := 0x2a6018 + n * 0x40
abbrev fHOST_SNAP_RIDX_IDX (n : Nat) : Fld := ⟨rHOST_SNAP_RIDX n, 31, 0⟩
abbrev rHOST_SNAP_STRIDE (n : Nat) : Nat := 0x2a601c + n * 0x40
abbrev fHOST_SNAP_STRIDE_BYTES (n : Nat) : Fld := ⟨rHOST_SNAP_STRIDE n, 31, 0⟩
abbrev rHOST_SNAP_STAT (n : Nat) : Nat := 0x2a6020 + n * 0x40
abbrev fHOST_SNAP_STAT_BUSY (n : Nat) : Fld := ⟨rHOST_SNAP_STAT n, 31, 31⟩
abbrev fHOST_SNAP_STAT_SKIP (n : Nat) : Fld := ⟨rHOST_SNAP_STAT n, 15, 0⟩

def hostRows0 : List RegRow := [
  ⟨0x2a0000, 1, 0, 1, 0, 1, 0, [⟨31, 31, .w1s, 0, []⟩, ⟨0, 0, .rw, 0, []⟩]⟩,
  ⟨0x2a0004, 1, 0, 1, 0, 1, 0, [⟨4, 4, .w1c, 0, []⟩, ⟨3, 3, .w1c, 0, []⟩, ⟨2, 2, .w1c, 0, []⟩, ⟨1, 1, .w1c, 0, []⟩, ⟨0, 0, .w1c, 0, []⟩]⟩,
  ⟨0x2a0008, 1, 0, 1, 0, 1, 0, [⟨10, 0, .rwl, 0x3c0, [(0, 0x7c8)]⟩]⟩,
  ⟨0x2a000c, 1, 0, 1, 0, 1, 0, [⟨27, 16, .ro, 0, []⟩, ⟨11, 0, .ro, 0, []⟩]⟩,
  ⟨0x2a0010, 1, 0, 1, 0, 1, 0, [⟨31, 16, .ro, 0, []⟩, ⟨3, 0, .ro, 0, []⟩]⟩,
  ⟨0x2a0014, 1, 0, 1, 0, 1, 0, [⟨0, 0, .wo, 0, []⟩]⟩,
  ⟨0x2a0018, 1, 0, 1, 0, 1, 0, [⟨31, 0, .ro, 0, []⟩]⟩,
  ⟨0x2a001c, 1, 0, 1, 0, 1, 0, [⟨0, 0, .wo, 0, []⟩]⟩,
  ⟨0x2a0100, 0x10, 0x10, 1, 0, 1, 0, [⟨25, 0, .ro, 0, []⟩]⟩,
  ⟨0x2a0104, 0x10, 0x10, 1, 0, 1, 0, [⟨31, 31, .ro, 0, []⟩, ⟨27, 24, .ro, 0, []⟩, ⟨23, 16, .ro, 0, []⟩, ⟨9, 0, .ro, 0, []⟩]⟩,
  ⟨0x2a0108, 0x10, 0x10, 1, 0, 1, 0, [⟨31, 0, .ro, 0, []⟩]⟩,
  ⟨0x2a010c, 0x10, 0x10, 1, 0, 1, 0, [⟨31, 0, .ro, 0, []⟩]⟩,
  ⟨0x2a0400, 0x100, 4, 1, 0, 1, 0, [⟨1, 0, .rw, 0, [(0, 2)]⟩]⟩,
  ⟨0x2a0800, 0x100, 4, 1, 0, 1, 0, [⟨31, 0, .ro, 0, []⟩]⟩,
  ⟨0x2a1000, 0x101, 0x40, 1, 0, 1, 0, [⟨31, 6, .rw, 0, []⟩]⟩,
  ⟨0x2a1004, 0x101, 0x40, 1, 0, 1, 0, [⟨31, 0, .rw, 0, []⟩]⟩,
  ⟨0x2a1008, 0x101, 0x40, 1, 0, 1, 0, [⟨31, 31, .rw, 0, []⟩, ⟨3, 0, .rw, 6, [(6, 0xf)]⟩]⟩,
  ⟨0x2a100c, 0x101, 0x40, 1, 0, 1, 0, [⟨31, 31, .rw, 0, []⟩, ⟨25, 16, .rw, 0, []⟩, ⟨15, 8, .rw, 1, [(1, 0xff)]⟩, ⟨7, 0, .rw, 0, []⟩]⟩,
  ⟨0x2a1010, 0x101, 0x40, 1, 0, 1, 0, [⟨31, 0, .ro, 0, []⟩]⟩,
  ⟨0x2a1014, 0x101, 0x40, 1, 0, 1, 0, [⟨31, 0, .rw, 0, []⟩]⟩]

def hostRows1 : List RegRow := [
  ⟨0x2a1018, 0x101, 0x40, 1, 0, 1, 0, [⟨31, 3, .rw, 0, []⟩, ⟨0, 0, .rw, 0, []⟩]⟩,
  ⟨0x2a101c, 0x101, 0x40, 1, 0, 1, 0, [⟨31, 0, .rw, 0, []⟩]⟩,
  ⟨0x2a1020, 0x101, 0x40, 1, 0, 1, 0, [⟨31, 31, .ro, 0, []⟩, ⟨30, 30, .ro, 0, []⟩, ⟨8, 0, .ro, 0, []⟩]⟩,
  ⟨0x2a6000, 0x10, 0x40, 1, 0, 1, 0, [⟨31, 12, .rw, 0, []⟩]⟩,
  ⟨0x2a6004, 0x10, 0x40, 1, 0, 1, 0, [⟨31, 0, .rw, 0, []⟩]⟩,
  ⟨0x2a6008, 0x10, 0x40, 1, 0, 1, 0, [⟨25, 16, .rw, 1, [(1, 0x200)]⟩, ⟨8, 0, .rw, 0, []⟩]⟩,
  ⟨0x2a600c, 0x10, 0x40, 1, 0, 1, 0, [⟨31, 23, .rw, 0, [(0, 0x100)]⟩, ⟨21, 16, .rw, 3, [(1, 0x3f)]⟩, ⟨15, 0, .rw, 0, []⟩]⟩,
  ⟨0x2a6010, 0x10, 0x40, 1, 0, 1, 0, [⟨31, 31, .rw, 0, []⟩, ⟨30, 30, .wo, 0, []⟩, ⟨29, 29, .rw, 0, []⟩, ⟨28, 26, .rw, 1, []⟩, ⟨25, 16, .rw, 0, []⟩]⟩,
  ⟨0x2a6014, 0x10, 0x40, 1, 0, 1, 0, [⟨31, 0, .ro, 0, []⟩]⟩,
  ⟨0x2a6018, 0x10, 0x40, 1, 0, 1, 0, [⟨31, 0, .rw, 0, []⟩]⟩,
  ⟨0x2a601c, 0x10, 0x40, 1, 0, 1, 0, [⟨31, 0, .ro, 0, []⟩]⟩,
  ⟨0x2a6020, 0x10, 0x40, 1, 0, 1, 0, [⟨31, 31, .ro, 0, []⟩, ⟨15, 0, .ro, 0, []⟩]⟩]

/-- The register table of the HOST block. -/
def hostRows : List RegRow := hostRows0 ++ hostRows1

/-! ### MBX block (chapter 15) -/

abbrev rMBX_CTRL : Nat := 0x2c0000
abbrev fMBX_CTRL_LOCK : Fld := ⟨rMBX_CTRL, 31, 31⟩
abbrev rMBX_STAT : Nat := 0x2c0004
abbrev fMBX_STAT_RESTART_MARK : Fld := ⟨rMBX_STAT, 1, 1⟩
abbrev fMBX_STAT_IGNORED : Fld := ⟨rMBX_STAT, 0, 0⟩
abbrev rMBX_CNT_IGNORED : Nat := 0x2c0008
abbrev fMBX_CNT_IGNORED_COUNT : Fld := ⟨rMBX_CNT_IGNORED, 31, 0⟩
abbrev rMBX_BIND (n : Nat) : Nat := 0x2c1000 + n * 4
abbrev fMBX_BIND_EN (n : Nat) : Fld := ⟨rMBX_BIND n, 31, 31⟩
abbrev fMBX_BIND_SIZE (n : Nat) : Fld := ⟨rMBX_BIND n, 30, 30⟩
abbrev fMBX_BIND_EMPTY_EV (n : Nat) : Fld := ⟨rMBX_BIND n, 29, 29⟩
abbrev fMBX_BIND_TAKEN_EV (n : Nat) : Fld := ⟨rMBX_BIND n, 28, 28⟩
abbrev fMBX_BIND_POSTED_EV (n : Nat) : Fld := ⟨rMBX_BIND n, 27, 27⟩
abbrev fMBX_BIND_RECEIVER (n : Nat) : Fld := ⟨rMBX_BIND n, 25, 16⟩
abbrev fMBX_BIND_SENDER (n : Nat) : Fld := ⟨rMBX_BIND n, 9, 0⟩
abbrev rMBX_MSG (n : Nat) (i : Nat) : Nat := 0x2e0000 + n * 0x80 + i * 4
abbrev fMBX_MSG_DATA (n : Nat) (i : Nat) : Fld := ⟨rMBX_MSG n i, 31, 0⟩
abbrev rMBX_CMD (n : Nat) : Nat := 0x2e0040 + n * 0x80
abbrev fMBX_CMD_USER (n : Nat) : Fld := ⟨rMBX_CMD n, 15, 8⟩
abbrev fMBX_CMD_DONE (n : Nat) : Fld := ⟨rMBX_CMD n, 3, 3⟩
abbrev fMBX_CMD_TAKE (n : Nat) : Fld := ⟨rMBX_CMD n, 2, 2⟩
abbrev fMBX_CMD_WITHDRAW (n : Nat) : Fld := ⟨rMBX_CMD n, 1, 1⟩
abbrev fMBX_CMD_GO (n : Nat) : Fld := ⟨rMBX_CMD n, 0, 0⟩
abbrev rMBX_CH_STAT (n : Nat) : Nat := 0x2e0044 + n * 0x80
abbrev fMBX_CH_STAT_GO (n : Nat) : Fld := ⟨rMBX_CH_STAT n, 31, 31⟩
abbrev fMBX_CH_STAT_DONE (n : Nat) : Fld := ⟨rMBX_CH_STAT n, 30, 30⟩
abbrev fMBX_CH_STAT_LAST (n : Nat) : Fld := ⟨rMBX_CH_STAT n, 29, 28⟩
abbrev fMBX_CH_STAT_POSTS (n : Nat) : Fld := ⟨rMBX_CH_STAT n, 15, 0⟩
abbrev rMBX_ACK (n : Nat) : Nat := 0x2e0048 + n * 0x80
abbrev fMBX_ACK_USER (n : Nat) : Fld := ⟨rMBX_ACK n, 15, 8⟩
abbrev fMBX_ACK_CODE (n : Nat) : Fld := ⟨rMBX_ACK n, 7, 0⟩

def mbxRows0 : List RegRow := [
  ⟨0x2c0000, 1, 0, 1, 0, 1, 0, [⟨31, 31, .w1s, 0, []⟩]⟩,
  ⟨0x2c0004, 1, 0, 1, 0, 1, 0, [⟨1, 1, .w1c, 0, []⟩, ⟨0, 0, .w1c, 0, []⟩]⟩,
  ⟨0x2c0008, 1, 0, 1, 0, 1, 0, [⟨31, 0, .ro, 0, []⟩]⟩,
  ⟨0x2c1000, 0x80, 4, 1, 0, 1, 0, [⟨31, 31, .rwl, 0, []⟩, ⟨30, 30, .rwl, 0, []⟩, ⟨29, 29, .rwl, 0, []⟩, ⟨28, 28, .rwl, 0, []⟩, ⟨27, 27, .rwl, 0, []⟩, ⟨25, 16, .rwl, 0x200, []⟩, ⟨9, 0, .rwl, 0x201, []⟩]⟩,
  ⟨0x2e0000, 0x80, 0x80, 0x10, 4, 1, 0, [⟨31, 0, .rw, 0, []⟩]⟩,
  ⟨0x2e0040, 0x80, 0x80, 1, 0, 1, 0, [⟨15, 8, .wo, 0, []⟩, ⟨3, 3, .wo, 0, []⟩, ⟨2, 2, .wo, 0, []⟩, ⟨1, 1, .wo, 0, []⟩, ⟨0, 0, .wo, 0, []⟩]⟩,
  ⟨0x2e0044, 0x80, 0x80, 1, 0, 1, 0, [⟨31, 31, .ro, 0, []⟩, ⟨30, 30, .ro, 0, []⟩, ⟨29, 28, .ro, 0, []⟩, ⟨15, 0, .ro, 0, []⟩]⟩,
  ⟨0x2e0048, 0x80, 0x80, 1, 0, 1, 0, [⟨15, 8, .ro, 0, []⟩, ⟨7, 0, .ro, 0, []⟩]⟩]

/-- The register table of the MBX block. -/
def mbxRows : List RegRow := mbxRows0

/-! ### MGT block (chapter 19) -/

abbrev rMGT_CTRL : Nat := 0x300000
abbrev fMGT_CTRL_LOCK : Fld := ⟨rMGT_CTRL, 31, 31⟩
abbrev fMGT_CTRL_HEAT_ACTION : Fld := ⟨rMGT_CTRL, 5, 4⟩
abbrev fMGT_CTRL_RESTART : Fld := ⟨rMGT_CTRL, 0, 0⟩
abbrev rMGT_STAT : Nat := 0x300004
abbrev fMGT_STAT_BOOT : Fld := ⟨rMGT_STAT, 31, 30⟩
abbrev fMGT_STAT_BANK : Fld := ⟨rMGT_STAT, 29, 29⟩
abbrev fMGT_STAT_TRIAL_PEND : Fld := ⟨rMGT_STAT, 28, 28⟩
abbrev fMGT_STAT_SET_NEWER : Fld := ⟨rMGT_STAT, 27, 27⟩
abbrev fMGT_STAT_SET_DEFAULT : Fld := ⟨rMGT_STAT, 26, 26⟩
abbrev fMGT_STAT_SET_FAIL : Fld := ⟨rMGT_STAT, 25, 25⟩
abbrev fMGT_STAT_NOTICE_BAD : Fld := ⟨rMGT_STAT, 24, 24⟩
abbrev fMGT_STAT_RESTARTS : Fld := ⟨rMGT_STAT, 15, 0⟩
abbrev rMGT_FW_REV : Nat := 0x300008
abbrev fMGT_FW_REV_REV : Fld := ⟨rMGT_FW_REV, 31, 0⟩
abbrev rMGT_LAST_RESTART : Nat := 0x30000c
abbrev fMGT_LAST_RESTART_CAUSE : Fld := ⟨rMGT_LAST_RESTART, 31, 28⟩
abbrev rMGT_NOTICE : Nat := 0x300010
abbrev fMGT_NOTICE_EN : Fld := ⟨rMGT_NOTICE, 31, 31⟩
abbrev fMGT_NOTICE_CHANNEL : Fld := ⟨rMGT_NOTICE, 6, 0⟩
abbrev rMGT_CB_CTRL : Nat := 0x300020
abbrev fMGT_CB_CTRL_FREEZE : Fld := ⟨rMGT_CB_CTRL, 31, 31⟩
abbrev fMGT_CB_CTRL_FF_CLEAR : Fld := ⟨rMGT_CB_CTRL, 0, 0⟩
abbrev rMGT_CB_STAT : Nat := 0x300024
abbrev fMGT_CB_STAT_FROZEN : Fld := ⟨rMGT_CB_STAT, 31, 31⟩
abbrev fMGT_CB_STAT_FF_FULL : Fld := ⟨rMGT_CB_STAT, 30, 30⟩
abbrev fMGT_CB_STAT_LOST : Fld := ⟨rMGT_CB_STAT, 29, 29⟩
abbrev fMGT_CB_STAT_RESTORED : Fld := ⟨rMGT_CB_STAT, 28, 28⟩
abbrev fMGT_CB_STAT_FF_COUNT : Fld := ⟨rMGT_CB_STAT, 10, 0⟩
abbrev rMGT_CB_HEAD : Nat := 0x300028
abbrev fMGT_CB_HEAD_COUNT : Fld := ⟨rMGT_CB_HEAD, 31, 0⟩
abbrev rMGT_CB_FROZEN : Nat := 0x30002c
abbrev fMGT_CB_FROZEN_COUNT : Fld := ⟨rMGT_CB_FROZEN, 31, 0⟩
abbrev rMGT_CB_LOST : Nat := 0x300030
abbrev fMGT_CB_LOST_COUNT : Fld := ⟨rMGT_CB_LOST, 31, 0⟩
abbrev rMGT_CB_CFG : Nat := 0x300034
abbrev fMGT_CB_CFG_FREEZE_MAX : Fld := ⟨rMGT_CB_CFG, 31, 16⟩
abbrev fMGT_CB_CFG_PERSIST_MS : Fld := ⟨rMGT_CB_CFG, 15, 0⟩
abbrev rMGT_CB_IDX : Nat := 0x300038
abbrev fMGT_CB_IDX_INDEX : Fld := ⟨rMGT_CB_IDX, 31, 0⟩
abbrev rMGT_CB_SELSTAT : Nat := 0x30003c
abbrev fMGT_CB_SELSTAT_VALID : Fld := ⟨rMGT_CB_SELSTAT, 31, 31⟩
abbrev fMGT_CB_SELSTAT_REGION : Fld := ⟨rMGT_CB_SELSTAT, 0, 0⟩
abbrev rMGT_CB_REC (n : Nat) : Nat := 0x300040 + n * 4
abbrev fMGT_CB_REC_BYTES (n : Nat) : Fld := ⟨rMGT_CB_REC n, 31, 0⟩
abbrev rMGT_FW_CMD : Nat := 0x300080
abbrev fMGT_FW_CMD_GO : Fld := ⟨rMGT_FW_CMD, 31, 31⟩
abbrev fMGT_FW_CMD_OP : Fld := ⟨rMGT_FW_CMD, 30, 28⟩
abbrev fMGT_FW_CMD_BYTES : Fld := ⟨rMGT_FW_CMD, 10, 0⟩
abbrev rMGT_FW_OFS : Nat := 0x300084
abbrev fMGT_FW_OFS_OFFSET : Fld := ⟨rMGT_FW_OFS, 27, 0⟩
abbrev rMGT_FW_STAT : Nat := 0x300088
abbrev fMGT_FW_STAT_BUSY : Fld := ⟨rMGT_FW_STAT, 31, 31⟩
abbrev fMGT_FW_STAT_RESULT : Fld := ⟨rMGT_FW_STAT, 27, 24⟩
abbrev rMGT_FW_BANK (n : Nat) : Nat := 0x300090 + n * 8
abbrev fMGT_FW_BANK_CHECKED (n : Nat) : Fld := ⟨rMGT_FW_BANK n, 31, 31⟩
abbrev fMGT_FW_BANK_BAD (n : Nat) : Fld := ⟨rMGT_FW_BANK n, 30, 30⟩
abbrev rMGT_FW_BANK_REV (n : Nat) : Nat := 0x300094 + n * 8
abbrev fMGT_FW_BANK_REV_REV (n : Nat) : Fld := ⟨rMGT_FW_BANK_REV n, 31, 0⟩
abbrev rMGT_SENS_VAL (n : Nat) : Nat := 0x3000c0 + n * 0x10
abbrev fMGT_SENS_VAL_MAX (n : Nat) : Fld := ⟨rMGT_SENS_VAL n, 31, 16⟩
abbrev fMGT_SENS_VAL_NOW (n : Nat) : Fld := ⟨rMGT_SENS_VAL n, 15, 0⟩
abbrev rMGT_SENS_WARN (n : Nat) : Nat := 0x3000c4 + n * 0x10
abbrev fMGT_SENS_WARN_HI (n : Nat) : Fld := ⟨rMGT_SENS_WARN n, 31, 16⟩
abbrev fMGT_SENS_WARN_LO (n : Nat) : Fld := ⟨rMGT_SENS_WARN n, 15, 0⟩
abbrev rMGT_SENS_CRIT (n : Nat) : Nat := 0x3000c8 + n * 0x10
abbrev fMGT_SENS_CRIT_HI (n : Nat) : Fld := ⟨rMGT_SENS_CRIT n, 31, 16⟩
abbrev fMGT_SENS_CRIT_LO (n : Nat) : Fld := ⟨rMGT_SENS_CRIT n, 15, 0⟩
abbrev rMGT_SENS_LEVEL (n : Nat) : Nat := 0x3000cc + n * 0x10
abbrev fMGT_SENS_LEVEL_LEVEL (n : Nat) : Fld := ⟨rMGT_SENS_LEVEL n, 1, 0⟩
abbrev rMGT_DIE_ID (n : Nat) (i : Nat) : Nat := 0x300200 + n * 0x10 + i * 4
abbrev fMGT_DIE_ID_ID (n : Nat) (i : Nat) : Fld := ⟨rMGT_DIE_ID n i, 31, 0⟩
abbrev rMGT_LIFE_HOURS : Nat := 0x300280
abbrev fMGT_LIFE_HOURS_VALUE : Fld := ⟨rMGT_LIFE_HOURS, 31, 0⟩
abbrev rMGT_LIFE_TJ : Nat := 0x300284
abbrev fMGT_LIFE_TJ_VALUE : Fld := ⟨rMGT_LIFE_TJ, 31, 0⟩
abbrev rMGT_SET_SAVE : Nat := 0x300300
abbrev fMGT_SET_SAVE_TYPES : Fld := ⟨rMGT_SET_SAVE, 6, 3⟩
abbrev rMGT_FW_BUF (n : Nat) : Nat := 0x301000 + n * 4
abbrev fMGT_FW_BUF_DATA (n : Nat) : Fld := ⟨rMGT_FW_BUF n, 31, 0⟩

def mgtRows0 : List RegRow := [
  ⟨0x300000, 1, 0, 1, 0, 1, 0, [⟨31, 31, .w1s, 0, []⟩, ⟨5, 4, .rwl, 1, [(0, 2)]⟩, ⟨0, 0, .wo, 0, []⟩]⟩,
  ⟨0x300004, 1, 0, 1, 0, 1, 0, [⟨31, 30, .ro, 0, []⟩, ⟨29, 29, .ro, 0, []⟩, ⟨28, 28, .ro, 0, []⟩, ⟨27, 27, .ro, 0, []⟩, ⟨26, 26, .ro, 0, []⟩, ⟨25, 25, .ro, 0, []⟩, ⟨24, 24, .ro, 0, []⟩, ⟨15, 0, .ro, 0, []⟩]⟩,
  ⟨0x300008, 1, 0, 1, 0, 1, 0, [⟨31, 0, .ro, 0, []⟩]⟩,
  ⟨0x30000c, 1, 0, 1, 0, 1, 0, [⟨31, 28, .ro, 0, []⟩]⟩,
  ⟨0x300010, 1, 0, 1, 0, 1, 0, [⟨31, 31, .rw, 0, []⟩, ⟨6, 0, .rw, 0, []⟩]⟩,
  ⟨0x300020, 1, 0, 1, 0, 1, 0, [⟨31, 31, .rw, 0, []⟩, ⟨0, 0, .wo, 0, []⟩]⟩,
  ⟨0x300024, 1, 0, 1, 0, 1, 0, [⟨31, 31, .ro, 0, []⟩, ⟨30, 30, .ro, 0, []⟩, ⟨29, 29, .w1c, 0, []⟩, ⟨28, 28, .ro, 0, []⟩, ⟨10, 0, .ro, 0, []⟩]⟩,
  ⟨0x300028, 1, 0, 1, 0, 1, 0, [⟨31, 0, .ro, 0, []⟩]⟩,
  ⟨0x30002c, 1, 0, 1, 0, 1, 0, [⟨31, 0, .ro, 0, []⟩]⟩,
  ⟨0x300030, 1, 0, 1, 0, 1, 0, [⟨31, 0, .ro, 0, []⟩]⟩,
  ⟨0x300034, 1, 0, 1, 0, 1, 0, [⟨31, 16, .rw, 0x3c, [(1, 0xe10)]⟩, ⟨15, 0, .rw, 0x3e8, [(0xa, 0x2710)]⟩]⟩,
  ⟨0x300038, 1, 0, 1, 0, 1, 0, [⟨31, 0, .rw, 0, []⟩]⟩,
  ⟨0x30003c, 1, 0, 1, 0, 1, 0, [⟨31, 31, .ro, 0, []⟩, ⟨0, 0, .rw, 0, []⟩]⟩,
  ⟨0x300040, 8, 4, 1, 0, 1, 0, [⟨31, 0, .ro, 0, []⟩]⟩,
  ⟨0x300080, 1, 0, 1, 0, 1, 0, [⟨31, 31, .wo, 0, []⟩, ⟨30, 28, .rw, 0, [(0, 3)]⟩, ⟨10, 0, .rw, 0, []⟩]⟩,
  ⟨0x300084, 1, 0, 1, 0, 1, 0, [⟨27, 0, .rw, 0, []⟩]⟩,
  ⟨0x300088, 1, 0, 1, 0, 1, 0, [⟨31, 31, .ro, 0, []⟩, ⟨27, 24, .ro, 0, []⟩]⟩,
  ⟨0x300090, 2, 8, 1, 0, 1, 0, [⟨31, 31, .ro, 0, []⟩, ⟨30, 30, .ro, 0, []⟩]⟩,
  ⟨0x300094, 2, 8, 1, 0, 1, 0, [⟨31, 0, .ro, 0, []⟩]⟩,
  ⟨0x3000c0, 0xc, 0x10, 1, 0, 1, 0, [⟨31, 16, .ro, 0, []⟩, ⟨15, 0, .ro, 0, []⟩]⟩]

def mgtRows1 : List RegRow := [
  ⟨0x3000c4, 0xc, 0x10, 1, 0, 1, 0, [⟨31, 16, .rwl, 0, []⟩, ⟨15, 0, .rwl, 0, []⟩]⟩,
  ⟨0x3000c8, 0xc, 0x10, 1, 0, 1, 0, [⟨31, 16, .rwl, 0, []⟩, ⟨15, 0, .rwl, 0, []⟩]⟩,
  ⟨0x3000cc, 0xc, 0x10, 1, 0, 1, 0, [⟨1, 0, .ro, 0, []⟩]⟩,
  ⟨0x300200, 5, 0x10, 3, 4, 1, 0, [⟨31, 0, .ro, 0, []⟩]⟩,
  ⟨0x300280, 1, 0, 1, 0, 1, 0, [⟨31, 0, .ro, 0, []⟩]⟩,
  ⟨0x300284, 1, 0, 1, 0, 1, 0, [⟨31, 0, .ro, 0, []⟩]⟩,
  ⟨0x300300, 1, 0, 1, 0, 1, 0, [⟨6, 3, .wo, 0, []⟩]⟩,
  ⟨0x301000, 0x100, 4, 1, 0, 1, 0, [⟨31, 0, .rw, 0, []⟩]⟩]

/-- The register table of the MGT block. -/
def mgtRows : List RegRow := mgtRows0 ++ mgtRows1

/-! ### CASK block (chapter 20) -/

abbrev rCASK_CTRL : Nat := 0x310000
abbrev fCASK_CTRL_DISCARD : Fld := ⟨rCASK_CTRL, 1, 1⟩
abbrev fCASK_CTRL_COMMIT : Fld := ⟨rCASK_CTRL, 0, 0⟩
abbrev rCASK_STAT : Nat := 0x310004
abbrev fCASK_STAT_BUSY : Fld := ⟨rCASK_STAT, 31, 31⟩
abbrev fCASK_STAT_BAD_PW : Fld := ⟨rCASK_STAT, 30, 30⟩
abbrev fCASK_STAT_PW_READ : Fld := ⟨rCASK_STAT, 29, 29⟩
abbrev fCASK_STAT_BUF_FULL : Fld := ⟨rCASK_STAT, 28, 28⟩
abbrev fCASK_STAT_SATURATED : Fld := ⟨rCASK_STAT, 27, 27⟩
abbrev fCASK_STAT_BUF_BYTES : Fld := ⟨rCASK_STAT, 16, 0⟩
abbrev rCASK_WIN_BASE : Nat := 0x310008
abbrev fCASK_WIN_BASE_BASE : Fld := ⟨rCASK_WIN_BASE, 23, 12⟩
abbrev rCASK_PW_SEL : Nat := 0x31000c
abbrev fCASK_PW_SEL_KIND : Fld := ⟨rCASK_PW_SEL, 8, 8⟩
abbrev fCASK_PW_SEL_REGION : Fld := ⟨rCASK_PW_SEL, 3, 0⟩
abbrev rCASK_PW_LO : Nat := 0x310010
abbrev fCASK_PW_LO_PW : Fld := ⟨rCASK_PW_LO, 31, 0⟩
abbrev rCASK_PW_HI : Nat := 0x310014
abbrev fCASK_PW_HI_PW : Fld := ⟨rCASK_PW_HI, 31, 0⟩
abbrev rCASK_LOCK : Nat := 0x310018
abbrev fCASK_LOCK_WRITE : Fld := ⟨rCASK_LOCK, 31, 16⟩
abbrev fCASK_LOCK_READ : Fld := ⟨rCASK_LOCK, 15, 0⟩
abbrev rCASK_UNLOCKED : Nat := 0x31001c
abbrev fCASK_UNLOCKED_WRITE : Fld := ⟨rCASK_UNLOCKED, 31, 16⟩
abbrev fCASK_UNLOCKED_READ : Fld := ⟨rCASK_UNLOCKED, 15, 0⟩
abbrev rCASK_WEAR_SEL : Nat := 0x310020
abbrev fCASK_WEAR_SEL_BLOCK : Fld := ⟨rCASK_WEAR_SEL, 13, 0⟩
abbrev rCASK_WEAR_VAL : Nat := 0x310024
abbrev fCASK_WEAR_VAL_COUNT : Fld := ⟨rCASK_WEAR_VAL, 31, 0⟩
abbrev rCASK_WEAR_STAT : Nat := 0x310028
abbrev fCASK_WEAR_STAT_SATURATED : Fld := ⟨rCASK_WEAR_STAT, 14, 0⟩
abbrev rCASK_COMMIT_RESULT : Nat := 0x31002c
abbrev fCASK_COMMIT_RESULT_RESULT : Fld := ⟨rCASK_COMMIT_RESULT, 31, 28⟩
abbrev fCASK_COMMIT_RESULT_BYTES : Fld := ⟨rCASK_COMMIT_RESULT, 16, 0⟩
abbrev rCASK_CNT_COMMIT : Nat := 0x310030
abbrev fCASK_CNT_COMMIT_COUNT : Fld := ⟨rCASK_CNT_COMMIT, 31, 0⟩
abbrev rCASK_REGION (n : Nat) : Nat := 0x310040 + n * 4
abbrev fCASK_REGION_RPW (n : Nat) : Fld := ⟨rCASK_REGION n, 31, 31⟩
abbrev fCASK_REGION_WPW (n : Nat) : Fld := ⟨rCASK_REGION n, 30, 30⟩
abbrev fCASK_REGION_SIZE (n : Nat) : Fld := ⟨rCASK_REGION n, 27, 16⟩
abbrev fCASK_REGION_BASE (n : Nat) : Fld := ⟨rCASK_REGION n, 11, 0⟩
abbrev rCASK_OPT_CMD : Nat := 0x310100
abbrev fCASK_OPT_CMD_RELOAD : Fld := ⟨rCASK_OPT_CMD, 1, 1⟩
abbrev fCASK_OPT_CMD_COMMIT : Fld := ⟨rCASK_OPT_CMD, 0, 0⟩
abbrev rCASK_OPT_STAT : Nat := 0x310104
abbrev fCASK_OPT_STAT_BUSY : Fld := ⟨rCASK_OPT_STAT, 31, 31⟩
abbrev fCASK_OPT_STAT_RESULT : Fld := ⟨rCASK_OPT_STAT, 27, 24⟩
abbrev rCASK_OPT_BUF (n : Nat) : Nat := 0x310800 + n * 4
abbrev fCASK_OPT_BUF_BYTES (n : Nat) : Fld := ⟨rCASK_OPT_BUF n, 31, 0⟩
abbrev rCASK_WIN (n : Nat) : Nat := 0x311000 + n * 4
abbrev fCASK_WIN_BYTES (n : Nat) : Fld := ⟨rCASK_WIN n, 31, 0⟩

def caskRows0 : List RegRow := [
  ⟨0x310000, 1, 0, 1, 0, 1, 0, [⟨1, 1, .wo, 0, []⟩, ⟨0, 0, .wo, 0, []⟩]⟩,
  ⟨0x310004, 1, 0, 1, 0, 1, 0, [⟨31, 31, .ro, 0, []⟩, ⟨30, 30, .w1c, 0, []⟩, ⟨29, 29, .w1c, 0, []⟩, ⟨28, 28, .w1c, 0, []⟩, ⟨27, 27, .w1c, 0, []⟩, ⟨16, 0, .ro, 0, []⟩]⟩,
  ⟨0x310008, 1, 0, 1, 0, 1, 0, [⟨23, 12, .rw, 0, []⟩]⟩,
  ⟨0x31000c, 1, 0, 1, 0, 1, 0, [⟨8, 8, .rw, 0, []⟩, ⟨3, 0, .rw, 0, []⟩]⟩,
  ⟨0x310010, 1, 0, 1, 0, 1, 0, [⟨31, 0, .wo, 0, []⟩]⟩,
  ⟨0x310014, 1, 0, 1, 0, 1, 0, [⟨31, 0, .wo, 0, []⟩]⟩,
  ⟨0x310018, 1, 0, 1, 0, 1, 0, [⟨31, 16, .wo, 0, []⟩, ⟨15, 0, .wo, 0, []⟩]⟩,
  ⟨0x31001c, 1, 0, 1, 0, 1, 0, [⟨31, 16, .ro, 0, []⟩, ⟨15, 0, .ro, 0, []⟩]⟩,
  ⟨0x310020, 1, 0, 1, 0, 1, 0, [⟨13, 0, .rw, 0, []⟩]⟩,
  ⟨0x310024, 1, 0, 1, 0, 1, 0, [⟨31, 0, .ro, 0, []⟩]⟩,
  ⟨0x310028, 1, 0, 1, 0, 1, 0, [⟨14, 0, .ro, 0, []⟩]⟩,
  ⟨0x31002c, 1, 0, 1, 0, 1, 0, [⟨31, 28, .ro, 0, []⟩, ⟨16, 0, .ro, 0, []⟩]⟩,
  ⟨0x310030, 1, 0, 1, 0, 1, 0, [⟨31, 0, .ro, 0, []⟩]⟩,
  ⟨0x310040, 0x10, 4, 1, 0, 1, 0, [⟨31, 31, .ro, 0, []⟩, ⟨30, 30, .ro, 0, []⟩, ⟨27, 16, .ro, 0, []⟩, ⟨11, 0, .ro, 0, []⟩]⟩,
  ⟨0x310100, 1, 0, 1, 0, 1, 0, [⟨1, 1, .wo, 0, []⟩, ⟨0, 0, .wo, 0, []⟩]⟩,
  ⟨0x310104, 1, 0, 1, 0, 1, 0, [⟨31, 31, .ro, 0, []⟩, ⟨27, 24, .ro, 0, []⟩]⟩,
  ⟨0x310800, 0x200, 4, 1, 0, 1, 0, [⟨31, 0, .rw, 0, []⟩]⟩,
  ⟨0x311000, 0x400, 4, 1, 0, 1, 0, [⟨31, 0, .rw, 0, []⟩]⟩]

/-- The register table of the CASK block. -/
def caskRows : List RegRow := caskRows0

/-! ### TIME block (chapter 16) -/

abbrev rTIME_CTRL : Nat := 0x320000
abbrev fTIME_CTRL_LOCK : Fld := ⟨rTIME_CTRL, 31, 31⟩
abbrev rTIME_STAT : Nat := 0x320004
abbrev fTIME_STAT_WALL_UNSET : Fld := ⟨rTIME_STAT, 5, 5⟩
abbrev fTIME_STAT_BACK_HELD : Fld := ⟨rTIME_STAT, 4, 4⟩
abbrev fTIME_STAT_OUTLIER : Fld := ⟨rTIME_STAT, 3, 3⟩
abbrev fTIME_STAT_STEP_BACK : Fld := ⟨rTIME_STAT, 2, 2⟩
abbrev fTIME_STAT_STEP_FWD : Fld := ⟨rTIME_STAT, 1, 1⟩
abbrev fTIME_STAT_SLEWING : Fld := ⟨rTIME_STAT, 0, 0⟩
abbrev rTIME_WALL_SEC_LO : Nat := 0x320008
abbrev fTIME_WALL_SEC_LO_SEC : Fld := ⟨rTIME_WALL_SEC_LO, 31, 0⟩
abbrev rTIME_WALL_SEC_HI : Nat := 0x32000c
abbrev fTIME_WALL_SEC_HI_SEC : Fld := ⟨rTIME_WALL_SEC_HI, 7, 0⟩
abbrev rTIME_WALL_NS : Nat := 0x320010
abbrev fTIME_WALL_NS_NS : Fld := ⟨rTIME_WALL_NS, 29, 0⟩
abbrev rTIME_WALL_EPOCH : Nat := 0x320014
abbrev fTIME_WALL_EPOCH_HOLDING : Fld := ⟨rTIME_WALL_EPOCH, 8, 8⟩
abbrev fTIME_WALL_EPOCH_EPOCH : Fld := ⟨rTIME_WALL_EPOCH, 7, 0⟩
abbrev rTIME_WALL_BACKSTEP : Nat := 0x320018
abbrev fTIME_WALL_BACKSTEP_POLICY : Fld := ⟨rTIME_WALL_BACKSTEP, 1, 0⟩
abbrev rTIME_STEP_THRESH : Nat := 0x32001c
abbrev fTIME_STEP_THRESH_MS : Fld := ⟨rTIME_STEP_THRESH, 15, 0⟩
abbrev rTIME_SLEW : Nat := 0x320020
abbrev fTIME_SLEW_PPM : Fld := ⟨rTIME_SLEW, 8, 0⟩
abbrev rTIME_SLEW_LEFT : Nat := 0x320024
abbrev fTIME_SLEW_LEFT_NS : Fld := ⟨rTIME_SLEW_LEFT, 31, 0⟩
abbrev rTIME_SET_SEC_LO : Nat := 0x320028
abbrev fTIME_SET_SEC_LO_SEC : Fld := ⟨rTIME_SET_SEC_LO, 31, 0⟩
abbrev rTIME_SET_SEC_HI : Nat := 0x32002c
abbrev fTIME_SET_SEC_HI_SEC : Fld := ⟨rTIME_SET_SEC_HI, 7, 0⟩
abbrev rTIME_SET_NS : Nat := 0x320030
abbrev fTIME_SET_NS_NS : Fld := ⟨rTIME_SET_NS, 29, 0⟩
abbrev rTIME_SET_CMD : Nat := 0x320034
abbrev fTIME_SET_CMD_ACCEPT_BACK : Fld := ⟨rTIME_SET_CMD, 2, 2⟩
abbrev fTIME_SET_CMD_FORCE_STEP : Fld := ⟨rTIME_SET_CMD, 1, 1⟩
abbrev fTIME_SET_CMD_GO : Fld := ⟨rTIME_SET_CMD, 0, 0⟩
abbrev rTIME_UTC : Nat := 0x320038
abbrev fTIME_UTC_VALID : Fld := ⟨rTIME_UTC, 31, 31⟩
abbrev fTIME_UTC_LEAP61 : Fld := ⟨rTIME_UTC, 30, 30⟩
abbrev fTIME_UTC_LEAP59 : Fld := ⟨rTIME_UTC, 29, 29⟩
abbrev fTIME_UTC_OFFSET : Fld := ⟨rTIME_UTC, 15, 0⟩
abbrev rTIME_PTP_CTRL : Nat := 0x320040
abbrev fTIME_PTP_CTRL_EN : Fld := ⟨rTIME_PTP_CTRL, 31, 31⟩
abbrev fTIME_PTP_CTRL_DELAY : Fld := ⟨rTIME_PTP_CTRL, 29, 28⟩
abbrev fTIME_PTP_CTRL_DOMAIN : Fld := ⟨rTIME_PTP_CTRL, 23, 16⟩
abbrev fTIME_PTP_CTRL_CONFIRM : Fld := ⟨rTIME_PTP_CTRL, 11, 8⟩
abbrev fTIME_PTP_CTRL_ANN_TMO : Fld := ⟨rTIME_PTP_CTRL, 3, 0⟩
abbrev rTIME_PTP_STAT : Nat := 0x320044
abbrev fTIME_PTP_STAT_PORT_STATE : Fld := ⟨rTIME_PTP_STAT, 31, 28⟩
abbrev fTIME_PTP_STAT_LOCK : Fld := ⟨rTIME_PTP_STAT, 27, 26⟩
abbrev fTIME_PTP_STAT_STEPS_REMOVED : Fld := ⟨rTIME_PTP_STAT, 7, 0⟩
abbrev rTIME_PTP_GM_LO : Nat := 0x320048
abbrev fTIME_PTP_GM_LO_ID : Fld := ⟨rTIME_PTP_GM_LO, 31, 0⟩
abbrev rTIME_PTP_GM_HI : Nat := 0x32004c
abbrev fTIME_PTP_GM_HI_ID : Fld := ⟨rTIME_PTP_GM_HI, 31, 0⟩
abbrev rTIME_PTP_OFFSET : Nat := 0x320050
abbrev fTIME_PTP_OFFSET_NS : Fld := ⟨rTIME_PTP_OFFSET, 31, 0⟩
abbrev rTIME_PTP_PATH : Nat := 0x320054
abbrev fTIME_PTP_PATH_NS : Fld := ⟨rTIME_PTP_PATH, 31, 0⟩
abbrev rTIME_PTP_SERVO : Nat := 0x320058
abbrev fTIME_PTP_SERVO_LOCK_NS : Fld := ⟨rTIME_PTP_SERVO, 31, 16⟩
abbrev fTIME_PTP_SERVO_ADJ_STEP : Fld := ⟨rTIME_PTP_SERVO, 15, 0⟩
abbrev rTIME_CNT (n : Nat) : Nat := 0x320080 + n * 4
abbrev fTIME_CNT_COUNT (n : Nat) : Fld := ⟨rTIME_CNT n, 31, 0⟩
abbrev rTIME_CNT_CLR : Nat := 0x3200b8
abbrev fTIME_CNT_CLR_CLR : Fld := ⟨rTIME_CNT_CLR, 0, 0⟩
abbrev rTIME_RTC_SEC_LO : Nat := 0x320100
abbrev fTIME_RTC_SEC_LO_SEC : Fld := ⟨rTIME_RTC_SEC_LO, 31, 0⟩
abbrev rTIME_RTC_SEC_HI : Nat := 0x320104
abbrev fTIME_RTC_SEC_HI_SEC : Fld := ⟨rTIME_RTC_SEC_HI, 7, 0⟩
abbrev rTIME_RTC_FRAC : Nat := 0x320108
abbrev fTIME_RTC_FRAC_FRAC : Fld := ⟨rTIME_RTC_FRAC, 14, 0⟩
abbrev rTIME_RTC_DAY : Nat := 0x32010c
abbrev fTIME_RTC_DAY_WEEKDAY : Fld := ⟨rTIME_RTC_DAY, 18, 16⟩
abbrev rTIME_RTC_ALARM_LO : Nat := 0x320110
abbrev fTIME_RTC_ALARM_LO_SEC : Fld := ⟨rTIME_RTC_ALARM_LO, 31, 0⟩
abbrev rTIME_RTC_ALARM_HI : Nat := 0x320114
abbrev fTIME_RTC_ALARM_HI_EN : Fld := ⟨rTIME_RTC_ALARM_HI, 31, 31⟩
abbrev fTIME_RTC_ALARM_HI_SEC : Fld := ⟨rTIME_RTC_ALARM_HI, 7, 0⟩
abbrev rTIME_RTC_CTRL : Nat := 0x320118
abbrev fTIME_RTC_CTRL_SQW : Fld := ⟨rTIME_RTC_CTRL, 20, 18⟩
abbrev fTIME_RTC_CTRL_DAYSEC : Fld := ⟨rTIME_RTC_CTRL, 16, 0⟩
abbrev rTIME_RTC_STAT : Nat := 0x32011c
abbrev fTIME_RTC_STAT_ON_VBAT : Fld := ⟨rTIME_RTC_STAT, 31, 31⟩
abbrev fTIME_RTC_STAT_BAT_USED : Fld := ⟨rTIME_RTC_STAT, 30, 30⟩
abbrev fTIME_RTC_STAT_VBAT_LOW : Fld := ⟨rTIME_RTC_STAT, 29, 29⟩
abbrev fTIME_RTC_STAT_LOST : Fld := ⟨rTIME_RTC_STAT, 28, 28⟩
abbrev fTIME_RTC_STAT_VBAT_MV : Fld := ⟨rTIME_RTC_STAT, 11, 0⟩
abbrev rTIME_ENG_CTRL : Nat := 0x320200
abbrev fTIME_ENG_CTRL_EN : Fld := ⟨rTIME_ENG_CTRL, 31, 31⟩
abbrev fTIME_ENG_CTRL_LINK : Fld := ⟨rTIME_ENG_CTRL, 1, 1⟩
abbrev fTIME_ENG_CTRL_FULL : Fld := ⟨rTIME_ENG_CTRL, 0, 0⟩
abbrev rTIME_ENG_IP : Nat := 0x320204
abbrev fTIME_ENG_IP_ADDR : Fld := ⟨rTIME_ENG_IP, 31, 0⟩
abbrev rTIME_ENG_MASK : Nat := 0x320208
abbrev fTIME_ENG_MASK_PREFIX : Fld := ⟨rTIME_ENG_MASK, 4, 0⟩
abbrev rTIME_ENG_GW : Nat := 0x32020c
abbrev fTIME_ENG_GW_ADDR : Fld := ⟨rTIME_ENG_GW, 31, 0⟩
abbrev rTIME_ENG_CLIENT : Nat := 0x320210
abbrev fTIME_ENG_CLIENT_ADDR : Fld := ⟨rTIME_ENG_CLIENT, 31, 0⟩
abbrev rTIME_ENG_CLIENT_PORT : Nat := 0x320214
abbrev fTIME_ENG_CLIENT_PORT_CMD : Fld := ⟨rTIME_ENG_CLIENT_PORT, 31, 16⟩
abbrev fTIME_ENG_CLIENT_PORT_PORT : Fld := ⟨rTIME_ENG_CLIENT_PORT, 15, 0⟩

def timeRows0 : List RegRow := [
  ⟨0x320000, 1, 0, 1, 0, 1, 0, [⟨31, 31, .w1s, 0, []⟩]⟩,
  ⟨0x320004, 1, 0, 1, 0, 1, 0, [⟨5, 5, .ro, 1, []⟩, ⟨4, 4, .ro, 0, []⟩, ⟨3, 3, .w1c, 0, []⟩, ⟨2, 2, .w1c, 0, []⟩, ⟨1, 1, .w1c, 0, []⟩, ⟨0, 0, .ro, 0, []⟩]⟩,
  ⟨0x320008, 1, 0, 1, 0, 1, 0, [⟨31, 0, .ro, 0, []⟩]⟩,
  ⟨0x32000c, 1, 0, 1, 0, 1, 0, [⟨7, 0, .ro, 0, []⟩]⟩,
  ⟨0x320010, 1, 0, 1, 0, 1, 0, [⟨29, 0, .ro, 0, []⟩]⟩,
  ⟨0x320014, 1, 0, 1, 0, 1, 0, [⟨8, 8, .ro, 0, []⟩, ⟨7, 0, .ro, 0, []⟩]⟩,
  ⟨0x320018, 1, 0, 1, 0, 1, 0, [⟨1, 0, .rw, 0, [(0, 1)]⟩]⟩,
  ⟨0x32001c, 1, 0, 1, 0, 1, 0, [⟨15, 0, .rw, 0x3e8, [(1, 0xffff)]⟩]⟩,
  ⟨0x320020, 1, 0, 1, 0, 1, 0, [⟨8, 0, .rw, 0x1f4, [(1, 0x1f4)]⟩]⟩,
  ⟨0x320024, 1, 0, 1, 0, 1, 0, [⟨31, 0, .ro, 0, []⟩]⟩,
  ⟨0x320028, 1, 0, 1, 0, 1, 0, [⟨31, 0, .rw, 0, []⟩]⟩,
  ⟨0x32002c, 1, 0, 1, 0, 1, 0, [⟨7, 0, .rw, 0, []⟩]⟩,
  ⟨0x320030, 1, 0, 1, 0, 1, 0, [⟨29, 0, .rw, 0, [(0, 0x3b9ac9ff)]⟩]⟩,
  ⟨0x320034, 1, 0, 1, 0, 1, 0, [⟨2, 2, .wo, 0, []⟩, ⟨1, 1, .wo, 0, []⟩, ⟨0, 0, .wo, 0, []⟩]⟩,
  ⟨0x320038, 1, 0, 1, 0, 1, 0, [⟨31, 31, .ro, 0, []⟩, ⟨30, 30, .ro, 0, []⟩, ⟨29, 29, .ro, 0, []⟩, ⟨15, 0, .ro, 0, []⟩]⟩,
  ⟨0x320040, 1, 0, 1, 0, 1, 0, [⟨31, 31, .rw, 1, []⟩, ⟨29, 28, .rw, 0, [(0, 1)]⟩, ⟨23, 16, .rw, 0, [(0, 0x7f)]⟩, ⟨11, 8, .rw, 4, [(1, 0xf)]⟩, ⟨3, 0, .rw, 3, [(2, 0xf)]⟩]⟩,
  ⟨0x320044, 1, 0, 1, 0, 1, 0, [⟨31, 28, .ro, 0, []⟩, ⟨27, 26, .ro, 0, []⟩, ⟨7, 0, .ro, 0, []⟩]⟩,
  ⟨0x320048, 1, 0, 1, 0, 1, 0, [⟨31, 0, .ro, 0, []⟩]⟩,
  ⟨0x32004c, 1, 0, 1, 0, 1, 0, [⟨31, 0, .ro, 0, []⟩]⟩,
  ⟨0x320050, 1, 0, 1, 0, 1, 0, [⟨31, 0, .ro, 0, []⟩]⟩]

def timeRows1 : List RegRow := [
  ⟨0x320054, 1, 0, 1, 0, 1, 0, [⟨31, 0, .ro, 0, []⟩]⟩,
  ⟨0x320058, 1, 0, 1, 0, 1, 0, [⟨31, 16, .rw, 0x3e8, [(1, 0xffff)]⟩, ⟨15, 0, .rw, 0x1ae, [(1, 0xffff)]⟩]⟩,
  ⟨0x320080, 0xe, 4, 1, 0, 1, 0, [⟨31, 0, .ro, 0, []⟩]⟩,
  ⟨0x3200b8, 1, 0, 1, 0, 1, 0, [⟨0, 0, .wo, 0, []⟩]⟩,
  ⟨0x320100, 1, 0, 1, 0, 1, 0, [⟨31, 0, .ro, 0, []⟩]⟩,
  ⟨0x320104, 1, 0, 1, 0, 1, 0, [⟨7, 0, .ro, 0, []⟩]⟩,
  ⟨0x320108, 1, 0, 1, 0, 1, 0, [⟨14, 0, .ro, 0, []⟩]⟩,
  ⟨0x32010c, 1, 0, 1, 0, 1, 0, [⟨18, 16, .rw, 0, [(0, 6)]⟩]⟩,
  ⟨0x320110, 1, 0, 1, 0, 1, 0, [⟨31, 0, .rw, 0, []⟩]⟩,
  ⟨0x320114, 1, 0, 1, 0, 1, 0, [⟨31, 31, .rw, 0, []⟩, ⟨7, 0, .rw, 0, []⟩]⟩,
  ⟨0x320118, 1, 0, 1, 0, 1, 0, [⟨20, 18, .rw, 0, [(0, 4)]⟩, ⟨16, 0, .rw, 0, [(0, 0x1517f)]⟩]⟩,
  ⟨0x32011c, 1, 0, 1, 0, 1, 0, [⟨31, 31, .ro, 0, []⟩, ⟨30, 30, .w1c, 0, []⟩, ⟨29, 29, .ro, 0, []⟩, ⟨28, 28, .w1c, 0, []⟩, ⟨11, 0, .ro, 0, []⟩]⟩,
  ⟨0x320200, 1, 0, 1, 0, 1, 0, [⟨31, 31, .rwl, 1, []⟩, ⟨1, 1, .ro, 0, []⟩, ⟨0, 0, .ro, 0, []⟩]⟩,
  ⟨0x320204, 1, 0, 1, 0, 1, 0, [⟨31, 0, .rwl, 0xc0a86464, []⟩]⟩,
  ⟨0x320208, 1, 0, 1, 0, 1, 0, [⟨4, 0, .rwl, 0x18, [(8, 0x1e)]⟩]⟩,
  ⟨0x32020c, 1, 0, 1, 0, 1, 0, [⟨31, 0, .rwl, 0, []⟩]⟩,
  ⟨0x320210, 1, 0, 1, 0, 1, 0, [⟨31, 0, .ro, 0, []⟩]⟩,
  ⟨0x320214, 1, 0, 1, 0, 1, 0, [⟨31, 16, .ro, 0, []⟩, ⟨15, 0, .ro, 0, []⟩]⟩]

/-- The register table of the TIME block. -/
def timeRows : List RegRow := timeRows0 ++ timeRows1

/-! ### CAN block (chapter 17) -/

abbrev rCAN_CTRL (n : Nat) : Nat := 0x330000 + n * 0x1000
abbrev fCAN_CTRL_RECOVER (n : Nat) : Fld := ⟨rCAN_CTRL n, 8, 8⟩
abbrev fCAN_CTRL_AUTO_RECOVER (n : Nat) : Fld := ⟨rCAN_CTRL n, 7, 7⟩
abbrev fCAN_CTRL_SINGLE_SHOT (n : Nat) : Fld := ⟨rCAN_CTRL n, 6, 6⟩
abbrev fCAN_CTRL_TXORD (n : Nat) : Fld := ⟨rCAN_CTRL n, 5, 5⟩
abbrev fCAN_CTRL_FD_EN (n : Nat) : Fld := ⟨rCAN_CTRL n, 4, 4⟩
abbrev fCAN_CTRL_MODE (n : Nat) : Fld := ⟨rCAN_CTRL n, 2, 0⟩
abbrev rCAN_STAT (n : Nat) : Nat := 0x330004 + n * 0x1000
abbrev fCAN_STAT_RX_BUSY (n : Nat) : Fld := ⟨rCAN_STAT n, 10, 10⟩
abbrev fCAN_STAT_TX_BUSY (n : Nat) : Fld := ⟨rCAN_STAT n, 9, 9⟩
abbrev fCAN_STAT_SYNCED (n : Nat) : Fld := ⟨rCAN_STAT n, 8, 8⟩
abbrev fCAN_STAT_MODE_CUR (n : Nat) : Fld := ⟨rCAN_STAT n, 6, 4⟩
abbrev fCAN_STAT_WARN (n : Nat) : Fld := ⟨rCAN_STAT n, 2, 2⟩
abbrev fCAN_STAT_STATE (n : Nat) : Fld := ⟨rCAN_STAT n, 1, 0⟩
abbrev rCAN_NBT (n : Nat) : Nat := 0x330008 + n * 0x1000
abbrev fCAN_NBT_SJW (n : Nat) : Fld := ⟨rCAN_NBT n, 30, 24⟩
abbrev fCAN_NBT_TSEG2 (n : Nat) : Fld := ⟨rCAN_NBT n, 22, 16⟩
abbrev fCAN_NBT_TSEG1 (n : Nat) : Fld := ⟨rCAN_NBT n, 15, 8⟩
abbrev fCAN_NBT_BRP (n : Nat) : Fld := ⟨rCAN_NBT n, 7, 0⟩
abbrev rCAN_DBT (n : Nat) : Nat := 0x33000c + n * 0x1000
abbrev fCAN_DBT_SJW (n : Nat) : Fld := ⟨rCAN_DBT n, 27, 24⟩
abbrev fCAN_DBT_TSEG2 (n : Nat) : Fld := ⟨rCAN_DBT n, 19, 16⟩
abbrev fCAN_DBT_TSEG1 (n : Nat) : Fld := ⟨rCAN_DBT n, 12, 8⟩
abbrev fCAN_DBT_BRP (n : Nat) : Fld := ⟨rCAN_DBT n, 4, 0⟩
abbrev rCAN_TDC (n : Nat) : Nat := 0x330010 + n * 0x1000
abbrev fCAN_TDC_EN (n : Nat) : Fld := ⟨rCAN_TDC n, 31, 31⟩
abbrev fCAN_TDC_OFFSET (n : Nat) : Fld := ⟨rCAN_TDC n, 22, 16⟩
abbrev fCAN_TDC_MEASURED (n : Nat) : Fld := ⟨rCAN_TDC n, 6, 0⟩
abbrev rCAN_ERR (n : Nat) : Nat := 0x330014 + n * 0x1000
abbrev fCAN_ERR_LEC (n : Nat) : Fld := ⟨rCAN_ERR n, 31, 29⟩
abbrev fCAN_ERR_DATA_PHASE (n : Nat) : Fld := ⟨rCAN_ERR n, 28, 28⟩
abbrev fCAN_ERR_REC (n : Nat) : Fld := ⟨rCAN_ERR n, 23, 16⟩
abbrev fCAN_ERR_TEC (n : Nat) : Fld := ⟨rCAN_ERR n, 8, 0⟩
abbrev rCAN_FLAGS (n : Nat) : Nat := 0x330018 + n * 0x1000
abbrev fCAN_FLAGS_RAISED (n : Nat) : Fld := ⟨rCAN_FLAGS n, 7, 0⟩
abbrev rCAN_RATE_CFG (n : Nat) : Nat := 0x33001c + n * 0x1000
abbrev fCAN_RATE_CFG_COUNT (n : Nat) : Fld := ⟨rCAN_RATE_CFG n, 19, 16⟩
abbrev fCAN_RATE_CFG_CONFIRM (n : Nat) : Fld := ⟨rCAN_RATE_CFG n, 11, 8⟩
abbrev fCAN_RATE_CFG_DWELL (n : Nat) : Fld := ⟨rCAN_RATE_CFG n, 7, 0⟩
abbrev rCAN_RATE_NBT (n : Nat) (i : Nat) : Nat := 0x330020 + n * 0x1000 + i * 8
abbrev fCAN_RATE_NBT_SJW (n : Nat) (i : Nat) : Fld := ⟨rCAN_RATE_NBT n i, 30, 24⟩
abbrev fCAN_RATE_NBT_TSEG2 (n : Nat) (i : Nat) : Fld := ⟨rCAN_RATE_NBT n i, 22, 16⟩
abbrev fCAN_RATE_NBT_TSEG1 (n : Nat) (i : Nat) : Fld := ⟨rCAN_RATE_NBT n i, 15, 8⟩
abbrev fCAN_RATE_NBT_BRP (n : Nat) (i : Nat) : Fld := ⟨rCAN_RATE_NBT n i, 7, 0⟩
abbrev rCAN_RATE_DBT (n : Nat) (i : Nat) : Nat := 0x330024 + n * 0x1000 + i * 8
abbrev fCAN_RATE_DBT_SJW (n : Nat) (i : Nat) : Fld := ⟨rCAN_RATE_DBT n i, 27, 24⟩
abbrev fCAN_RATE_DBT_TSEG2 (n : Nat) (i : Nat) : Fld := ⟨rCAN_RATE_DBT n i, 19, 16⟩
abbrev fCAN_RATE_DBT_TSEG1 (n : Nat) (i : Nat) : Fld := ⟨rCAN_RATE_DBT n i, 12, 8⟩
abbrev fCAN_RATE_DBT_BRP (n : Nat) (i : Nat) : Fld := ⟨rCAN_RATE_DBT n i, 4, 0⟩
abbrev rCAN_RATE_STAT (n : Nat) : Nat := 0x330060 + n * 0x1000
abbrev fCAN_RATE_STAT_FOUND (n : Nat) : Fld := ⟨rCAN_RATE_STAT n, 31, 31⟩
abbrev fCAN_RATE_STAT_SEARCHING (n : Nat) : Fld := ⟨rCAN_RATE_STAT n, 30, 30⟩
abbrev fCAN_RATE_STAT_ENTRY (n : Nat) : Fld := ⟨rCAN_RATE_STAT n, 18, 16⟩
abbrev fCAN_RATE_STAT_PASSES (n : Nat) : Fld := ⟨rCAN_RATE_STAT n, 15, 0⟩
abbrev rCAN_TX_CMD (n : Nat) : Nat := 0x330070 + n * 0x1000
abbrev fCAN_TX_CMD_ABORT (n : Nat) : Fld := ⟨rCAN_TX_CMD n, 10, 8⟩
abbrev fCAN_TX_CMD_REQ (n : Nat) : Fld := ⟨rCAN_TX_CMD n, 2, 0⟩
abbrev rCAN_TX_STAT (n : Nat) : Nat := 0x330074 + n * 0x1000
abbrev fCAN_TX_STAT_ON_BUS (n : Nat) : Fld := ⟨rCAN_TX_STAT n, 14, 14⟩
abbrev fCAN_TX_STAT_ACTIVE (n : Nat) : Fld := ⟨rCAN_TX_STAT n, 13, 12⟩
abbrev fCAN_TX_STAT_ABORTED (n : Nat) : Fld := ⟨rCAN_TX_STAT n, 10, 8⟩
abbrev fCAN_TX_STAT_DONE (n : Nat) : Fld := ⟨rCAN_TX_STAT n, 6, 4⟩
abbrev fCAN_TX_STAT_PEND (n : Nat) : Fld := ⟨rCAN_TX_STAT n, 2, 0⟩
abbrev rCAN_CNT (n : Nat) (i : Nat) : Nat := 0x3300c0 + n * 0x1000 + i * 4
abbrev fCAN_CNT_COUNT (n : Nat) (i : Nat) : Fld := ⟨rCAN_CNT n i, 31, 0⟩
abbrev rCAN_CNT_CLR (n : Nat) : Nat := 0x3300d8 + n * 0x1000
abbrev fCAN_CNT_CLR_CLR (n : Nat) : Fld := ⟨rCAN_CNT_CLR n, 0, 0⟩
abbrev rCAN_TXB_ID (n : Nat) (i : Nat) : Nat := 0x330100 + n * 0x1000 + i * 0x50
abbrev fCAN_TXB_ID_XTD (n : Nat) (i : Nat) : Fld := ⟨rCAN_TXB_ID n i, 30, 30⟩
abbrev fCAN_TXB_ID_RTR (n : Nat) (i : Nat) : Fld := ⟨rCAN_TXB_ID n i, 29, 29⟩
abbrev fCAN_TXB_ID_ID (n : Nat) (i : Nat) : Fld := ⟨rCAN_TXB_ID n i, 28, 0⟩
abbrev rCAN_TXB_CTL (n : Nat) (i : Nat) : Nat := 0x330104 + n * 0x1000 + i * 0x50
abbrev fCAN_TXB_CTL_FDF (n : Nat) (i : Nat) : Fld := ⟨rCAN_TXB_CTL n i, 31, 31⟩
abbrev fCAN_TXB_CTL_BRS (n : Nat) (i : Nat) : Fld := ⟨rCAN_TXB_CTL n i, 30, 30⟩
abbrev fCAN_TXB_CTL_DLC (n : Nat) (i : Nat) : Fld := ⟨rCAN_TXB_CTL n i, 3, 0⟩
abbrev rCAN_TXB_DATA (n : Nat) (i : Nat) (j : Nat) : Nat := 0x330108 + n * 0x1000 + i * 0x50 + j * 4
abbrev fCAN_TXB_DATA_DATA (n : Nat) (i : Nat) (j : Nat) : Fld := ⟨rCAN_TXB_DATA n i j, 31, 0⟩
abbrev rCAN_RX (n : Nat) (i : Nat) : Nat := 0x330200 + n * 0x1000 + i * 4
abbrev fCAN_RX_WORD (n : Nat) (i : Nat) : Fld := ⟨rCAN_RX n i, 31, 0⟩
abbrev rCAN_RX_STAT (n : Nat) : Nat := 0x330250 + n * 0x1000
abbrev fCAN_RX_STAT_LOCKED (n : Nat) : Fld := ⟨rCAN_RX_STAT n, 31, 31⟩
abbrev fCAN_RX_STAT_FILL (n : Nat) : Fld := ⟨rCAN_RX_STAT n, 5, 0⟩

def canRows0 : List RegRow := [
  ⟨0x330000, 4, 0x1000, 1, 0, 1, 0, [⟨8, 8, .wo, 0, []⟩, ⟨7, 7, .rw, 0, []⟩, ⟨6, 6, .rw, 0, []⟩, ⟨5, 5, .rw, 0, []⟩, ⟨4, 4, .rw, 1, []⟩, ⟨2, 0, .rw, 0, [(0, 4)]⟩]⟩,
  ⟨0x330004, 4, 0x1000, 1, 0, 1, 0, [⟨10, 10, .ro, 0, []⟩, ⟨9, 9, .ro, 0, []⟩, ⟨8, 8, .ro, 0, []⟩, ⟨6, 4, .ro, 0, []⟩, ⟨2, 2, .ro, 0, []⟩, ⟨1, 0, .ro, 0, []⟩]⟩,
  ⟨0x330008, 4, 0x1000, 1, 0, 1, 0, [⟨30, 24, .rw, 0x1f, []⟩, ⟨22, 16, .rw, 0x1f, []⟩, ⟨15, 8, .rw, 0x7e, [(1, 0xff)]⟩, ⟨7, 0, .rw, 0, []⟩]⟩,
  ⟨0x33000c, 4, 0x1000, 1, 0, 1, 0, [⟨27, 24, .rw, 9, []⟩, ⟨19, 16, .rw, 9, []⟩, ⟨12, 8, .rw, 0x1c, []⟩, ⟨4, 0, .rw, 0, []⟩]⟩,
  ⟨0x330010, 4, 0x1000, 1, 0, 1, 0, [⟨31, 31, .rw, 1, []⟩, ⟨22, 16, .rw, 0x1e, []⟩, ⟨6, 0, .ro, 0, []⟩]⟩,
  ⟨0x330014, 4, 0x1000, 1, 0, 1, 0, [⟨31, 29, .ro, 0, []⟩, ⟨28, 28, .ro, 0, []⟩, ⟨23, 16, .ro, 0, []⟩, ⟨8, 0, .ro, 0, []⟩]⟩,
  ⟨0x330018, 4, 0x1000, 1, 0, 1, 0, [⟨7, 0, .w1c, 0, []⟩]⟩,
  ⟨0x33001c, 4, 0x1000, 1, 0, 1, 0, [⟨19, 16, .rw, 1, [(1, 8)]⟩, ⟨11, 8, .rw, 4, [(1, 0xf)]⟩, ⟨7, 0, .rw, 0x64, [(1, 0xff)]⟩]⟩,
  ⟨0x330020, 4, 0x1000, 8, 8, 1, 0, [⟨30, 24, .rw, 0x1f, []⟩, ⟨22, 16, .rw, 0x1f, []⟩, ⟨15, 8, .rw, 0x7e, [(1, 0xff)]⟩, ⟨7, 0, .rw, 0, []⟩]⟩,
  ⟨0x330024, 4, 0x1000, 8, 8, 1, 0, [⟨27, 24, .rw, 9, []⟩, ⟨19, 16, .rw, 9, []⟩, ⟨12, 8, .rw, 0x1c, []⟩, ⟨4, 0, .rw, 0, []⟩]⟩,
  ⟨0x330060, 4, 0x1000, 1, 0, 1, 0, [⟨31, 31, .ro, 0, []⟩, ⟨30, 30, .ro, 0, []⟩, ⟨18, 16, .ro, 0, []⟩, ⟨15, 0, .ro, 0, []⟩]⟩,
  ⟨0x330070, 4, 0x1000, 1, 0, 1, 0, [⟨10, 8, .wo, 0, []⟩, ⟨2, 0, .wo, 0, []⟩]⟩,
  ⟨0x330074, 4, 0x1000, 1, 0, 1, 0, [⟨14, 14, .ro, 0, []⟩, ⟨13, 12, .ro, 0, []⟩, ⟨10, 8, .w1c, 0, []⟩, ⟨6, 4, .w1c, 0, []⟩, ⟨2, 0, .ro, 0, []⟩]⟩,
  ⟨0x3300c0, 4, 0x1000, 6, 4, 1, 0, [⟨31, 0, .ro, 0, []⟩]⟩,
  ⟨0x3300d8, 4, 0x1000, 1, 0, 1, 0, [⟨0, 0, .wo, 0, []⟩]⟩,
  ⟨0x330100, 4, 0x1000, 3, 0x50, 1, 0, [⟨30, 30, .rw, 0, []⟩, ⟨29, 29, .rw, 0, []⟩, ⟨28, 0, .rw, 0, []⟩]⟩,
  ⟨0x330104, 4, 0x1000, 3, 0x50, 1, 0, [⟨31, 31, .rw, 0, []⟩, ⟨30, 30, .rw, 0, []⟩, ⟨3, 0, .rw, 0, []⟩]⟩,
  ⟨0x330108, 4, 0x1000, 3, 0x50, 0x10, 4, [⟨31, 0, .rw, 0, []⟩]⟩,
  ⟨0x330200, 4, 0x1000, 0x14, 4, 1, 0, [⟨31, 0, .ro, 0, []⟩]⟩,
  ⟨0x330250, 4, 0x1000, 1, 0, 1, 0, [⟨31, 31, .ro, 0, []⟩, ⟨5, 0, .ro, 0, []⟩]⟩]

/-- The register table of the CAN block. -/
def canRows : List RegRow := canRows0

/-! ### LIO block (chapter 18) -/

abbrev rLIO_CTRL : Nat := 0x340000
abbrev fLIO_CTRL_LOCK : Fld := ⟨rLIO_CTRL, 31, 31⟩
abbrev fLIO_CTRL_ARM : Fld := ⟨rLIO_CTRL, 8, 8⟩
abbrev fLIO_CTRL_RETRY : Fld := ⟨rLIO_CTRL, 7, 0⟩
abbrev rLIO_STAT : Nat := 0x340004
abbrev fLIO_STAT_SUPPLY : Fld := ⟨rLIO_STAT, 5, 4⟩
abbrev fLIO_STAT_IMAGE : Fld := ⟨rLIO_STAT, 3, 3⟩
abbrev fLIO_STAT_SHUTDOWN : Fld := ⟨rLIO_STAT, 2, 2⟩
abbrev fLIO_STAT_IN_VALID : Fld := ⟨rLIO_STAT, 1, 1⟩
abbrev fLIO_STAT_LINK : Fld := ⟨rLIO_STAT, 0, 0⟩
abbrev rLIO_IN : Nat := 0x340008
abbrev fLIO_IN_POINTS : Fld := ⟨rLIO_IN, 31, 0⟩
abbrev rLIO_OUT : Nat := 0x34000c
abbrev fLIO_OUT_POINTS : Fld := ⟨rLIO_OUT, 31, 0⟩
abbrev rLIO_OUT_SRC : Nat := 0x340010
abbrev fLIO_OUT_SRC_POINTS : Fld := ⟨rLIO_OUT_SRC, 31, 0⟩
abbrev rLIO_OUT_SAFE : Nat := 0x340014
abbrev fLIO_OUT_SAFE_POINTS : Fld := ⟨rLIO_OUT_SAFE, 31, 0⟩
abbrev rLIO_FAULT : Nat := 0x340018
abbrev fLIO_FAULT_POINTS : Fld := ⟨rLIO_FAULT, 31, 0⟩
abbrev rLIO_FAULT_SEEN : Nat := 0x34001c
abbrev fLIO_FAULT_SEEN_POINTS : Fld := ⟨rLIO_FAULT_SEEN, 31, 0⟩
abbrev rLIO_SUPPLY_MV : Nat := 0x340020
abbrev fLIO_SUPPLY_MV_MV : Fld := ⟨rLIO_SUPPLY_MV, 15, 0⟩
abbrev rLIO_FLAGS : Nat := 0x340024
abbrev fLIO_FLAGS_MAP_ERR : Fld := ⟨rLIO_FLAGS, 3, 3⟩
abbrev fLIO_FLAGS_SHUTDOWN : Fld := ⟨rLIO_FLAGS, 2, 2⟩
abbrev fLIO_FLAGS_LINK_LOST : Fld := ⟨rLIO_FLAGS, 1, 1⟩
abbrev fLIO_FLAGS_FRAME_BAD : Fld := ⟨rLIO_FLAGS, 0, 0⟩
abbrev rLIO_MAP_IN : Nat := 0x340028
abbrev fLIO_MAP_IN_EN : Fld := ⟨rLIO_MAP_IN, 31, 31⟩
abbrev fLIO_MAP_IN_ADDR : Fld := ⟨rLIO_MAP_IN, 25, 0⟩
abbrev rLIO_MAP_OUT : Nat := 0x34002c
abbrev fLIO_MAP_OUT_EN : Fld := ⟨rLIO_MAP_OUT, 31, 31⟩
abbrev fLIO_MAP_OUT_ADDR : Fld := ⟨rLIO_MAP_OUT, 25, 0⟩
abbrev rLIO_CNT (n : Nat) : Nat := 0x340040 + n * 4
abbrev fLIO_CNT_COUNT (n : Nat) : Fld := ⟨rLIO_CNT n, 31, 0⟩
abbrev rLIO_CNT_CLR : Nat := 0x340050
abbrev fLIO_CNT_CLR_CLR : Fld := ⟨rLIO_CNT_CLR, 0, 0⟩
abbrev rLIO_PT_CFG (n : Nat) : Nat := 0x340100 + n * 4
abbrev fLIO_PT_CFG_DIR (n : Nat) : Fld := ⟨rLIO_PT_CFG n, 31, 31⟩
abbrev fLIO_PT_CFG_TYPE (n : Nat) : Fld := ⟨rLIO_PT_CFG n, 30, 30⟩
abbrev fLIO_PT_CFG_DEBOUNCE (n : Nat) : Fld := ⟨rLIO_PT_CFG n, 15, 0⟩

def lioRows0 : List RegRow := [
  ⟨0x340000, 1, 0, 1, 0, 1, 0, [⟨31, 31, .w1s, 0, []⟩, ⟨8, 8, .wo, 0, []⟩, ⟨7, 0, .rw, 0xa, [(1, 0xff)]⟩]⟩,
  ⟨0x340004, 1, 0, 1, 0, 1, 0, [⟨5, 4, .ro, 0, []⟩, ⟨3, 3, .ro, 0, []⟩, ⟨2, 2, .ro, 1, []⟩, ⟨1, 1, .ro, 0, []⟩, ⟨0, 0, .ro, 0, []⟩]⟩,
  ⟨0x340008, 1, 0, 1, 0, 1, 0, [⟨31, 0, .ro, 0, []⟩]⟩,
  ⟨0x34000c, 1, 0, 1, 0, 1, 0, [⟨31, 0, .rw, 0, []⟩]⟩,
  ⟨0x340010, 1, 0, 1, 0, 1, 0, [⟨31, 0, .rwl, 0, []⟩]⟩,
  ⟨0x340014, 1, 0, 1, 0, 1, 0, [⟨31, 0, .rwl, 0, []⟩]⟩,
  ⟨0x340018, 1, 0, 1, 0, 1, 0, [⟨31, 0, .ro, 0, []⟩]⟩,
  ⟨0x34001c, 1, 0, 1, 0, 1, 0, [⟨31, 0, .w1c, 0, []⟩]⟩,
  ⟨0x340020, 1, 0, 1, 0, 1, 0, [⟨15, 0, .ro, 0, []⟩]⟩,
  ⟨0x340024, 1, 0, 1, 0, 1, 0, [⟨3, 3, .w1c, 0, []⟩, ⟨2, 2, .w1c, 0, []⟩, ⟨1, 1, .w1c, 0, []⟩, ⟨0, 0, .w1c, 0, []⟩]⟩,
  ⟨0x340028, 1, 0, 1, 0, 1, 0, [⟨31, 31, .rwl, 0, []⟩, ⟨25, 0, .rwl, 0x3600000, [(0x3600000, 0x39fffff)]⟩]⟩,
  ⟨0x34002c, 1, 0, 1, 0, 1, 0, [⟨31, 31, .rwl, 0, []⟩, ⟨25, 0, .rwl, 0x3600000, [(0x3600000, 0x39fffff)]⟩]⟩,
  ⟨0x340040, 4, 4, 1, 0, 1, 0, [⟨31, 0, .ro, 0, []⟩]⟩,
  ⟨0x340050, 1, 0, 1, 0, 1, 0, [⟨0, 0, .wo, 0, []⟩]⟩,
  ⟨0x340100, 0x20, 4, 1, 0, 1, 0, [⟨31, 31, .rwl, 0, []⟩, ⟨30, 30, .rwl, 0, []⟩, ⟨15, 0, .rwl, 0x3e8, [(1, 0xffff)]⟩]⟩]

/-- The register table of the LIO block. -/
def lioRows : List RegRow := lioRows0

/-! ### PANEL block (chapter 18) -/

abbrev rPANEL_CTRL : Nat := 0x350000
abbrev fPANEL_CTRL_LOCK : Fld := ⟨rPANEL_CTRL, 31, 31⟩
abbrev fPANEL_CTRL_EN : Fld := ⟨rPANEL_CTRL, 16, 16⟩
abbrev fPANEL_CTRL_IDLE_RATE : Fld := ⟨rPANEL_CTRL, 15, 8⟩
abbrev fPANEL_CTRL_RATE : Fld := ⟨rPANEL_CTRL, 7, 0⟩
abbrev rPANEL_IDLE : Nat := 0x350004
abbrev fPANEL_IDLE_SEC : Fld := ⟨rPANEL_IDLE, 15, 0⟩
abbrev rPANEL_DRIVE : Nat := 0x350008
abbrev fPANEL_DRIVE_VPANEL : Fld := ⟨rPANEL_DRIVE, 23, 16⟩
abbrev fPANEL_DRIVE_IPEAK : Fld := ⟨rPANEL_DRIVE, 8, 0⟩
abbrev rPANEL_STAT : Nat := 0x35000c
abbrev fPANEL_STAT_STATE : Fld := ⟨rPANEL_STAT, 31, 29⟩
abbrev fPANEL_STAT_SWAP_PEND : Fld := ⟨rPANEL_STAT, 28, 28⟩
abbrev fPANEL_STAT_IDLE : Fld := ⟨rPANEL_STAT, 27, 27⟩
abbrev fPANEL_STAT_RATE_CUR : Fld := ⟨rPANEL_STAT, 7, 0⟩
abbrev rPANEL_FLAGS : Nat := 0x350010
abbrev fPANEL_FLAGS_OPEN : Fld := ⟨rPANEL_FLAGS, 4, 4⟩
abbrev fPANEL_FLAGS_OVERTEMP : Fld := ⟨rPANEL_FLAGS, 3, 3⟩
abbrev fPANEL_FLAGS_SUPPLY : Fld := ⟨rPANEL_FLAGS, 2, 2⟩
abbrev fPANEL_FLAGS_FRAME_BAD : Fld := ⟨rPANEL_FLAGS, 1, 1⟩
abbrev fPANEL_FLAGS_CRC_BAD : Fld := ⟨rPANEL_FLAGS, 0, 0⟩
abbrev rPANEL_SWAP : Nat := 0x350014
abbrev fPANEL_SWAP_VALUE : Fld := ⟨rPANEL_SWAP, 31, 0⟩
abbrev rPANEL_FRONT_CRC : Nat := 0x350018
abbrev fPANEL_FRONT_CRC_VALUE : Fld := ⟨rPANEL_FRONT_CRC, 31, 0⟩
abbrev rPANEL_CNT_SWAP : Nat := 0x35001c
abbrev fPANEL_CNT_SWAP_VALUE : Fld := ⟨rPANEL_CNT_SWAP, 31, 0⟩
abbrev rPANEL_GAMMA (n : Nat) : Nat := 0x350040 + n * 4
abbrev fPANEL_GAMMA_LEVEL (n : Nat) : Fld := ⟨rPANEL_GAMMA n, 7, 0⟩
abbrev rPANEL_FB (n : Nat) : Nat := 0x358000 + n * 4
abbrev fPANEL_FB_PIXELS (n : Nat) : Fld := ⟨rPANEL_FB n, 31, 0⟩

def panelRows0 : List RegRow := [
  ⟨0x350000, 1, 0, 1, 0, 1, 0, [⟨31, 31, .w1s, 0, []⟩, ⟨16, 16, .rw, 0, []⟩, ⟨15, 8, .rw, 1, []⟩, ⟨7, 0, .rw, 0x64, [(1, 0x78)]⟩]⟩,
  ⟨0x350004, 1, 0, 1, 0, 1, 0, [⟨15, 0, .rw, 0x3c, []⟩]⟩,
  ⟨0x350008, 1, 0, 1, 0, 1, 0, [⟨23, 16, .rwl, 0x82, [(0x78, 0x96)]⟩, ⟨8, 0, .rwl, 0x96, [(0, 0x12c)]⟩]⟩,
  ⟨0x35000c, 1, 0, 1, 0, 1, 0, [⟨31, 29, .ro, 0, []⟩, ⟨28, 28, .ro, 0, []⟩, ⟨27, 27, .ro, 0, []⟩, ⟨7, 0, .ro, 0, []⟩]⟩,
  ⟨0x350010, 1, 0, 1, 0, 1, 0, [⟨4, 4, .w1c, 0, []⟩, ⟨3, 3, .w1c, 0, []⟩, ⟨2, 2, .w1c, 0, []⟩, ⟨1, 1, .w1c, 0, []⟩, ⟨0, 0, .w1c, 0, []⟩]⟩,
  ⟨0x350014, 1, 0, 1, 0, 1, 0, [⟨31, 0, .wo, 0, []⟩]⟩,
  ⟨0x350018, 1, 0, 1, 0, 1, 0, [⟨31, 0, .ro, 0, []⟩]⟩,
  ⟨0x35001c, 1, 0, 1, 0, 1, 0, [⟨31, 0, .ro, 0, []⟩]⟩,
  ⟨0x350040, 0x10, 4, 1, 0, 1, 0, [⟨7, 0, .rw, 0, []⟩]⟩,
  ⟨0x358000, 0x800, 4, 1, 0, 1, 0, [⟨31, 0, .rw, 0, []⟩]⟩]

/-- The register table of the PANEL block. -/
def panelRows : List RegRow := panelRows0

/-- The scalar pair's bound-channel register takes the place of the frame register (spec/04_judin_model.md R159). -/
abbrev fSCALAR_BIND_VALID (j : Nat) : Fld := ⟨scalarPage j + 4, 31, 31⟩
abbrev fSCALAR_BIND_CH (j : Nat) : Fld := ⟨scalarPage j + 4, 16, 0⟩

/-- The rows that can hold offset `off`, by the block map of spec/01_architecture.md R42. -/
def rowsOf (off : Nat) : List RegRow :=
  if off < 0x010000 then sysRows
  else if off < 0x020000 then rstRows
  else if off < 0x030000 then evtRows
  else if off < 0x040000 then schedRows
  else if off < 0x050000 then partRows
  else if off < 0x060000 then partcRows
  else if off < 0x100000 then []
  else if off < 0x120000 then pressRows
  else if off < 0x130000 then scalarRows
  else if off < 0x131000 then scalarcRows
  else if off < 0x13D000 then []
  else if off < 0x13E000 then presscRows
  else if off < 0x140000 then press2Rows
  else if off < 0x160000 then fabRows
  else if off < 0x180000 then stepRows
  else if off < 0x1A0000 then convRows
  else if off < 0x1C0000 then ledgRows
  else if off < 0x1F0000 then []
  else if off < 0x200000 then trlcRows
  else if off < 0x280000 then trlRows
  else if off < 0x2A0000 then rackRows
  else if off < 0x2C0000 then hostRows
  else if off < 0x300000 then mbxRows
  else if off < 0x310000 then mgtRows
  else if off < 0x320000 then caskRows
  else if off < 0x330000 then timeRows
  else if off < 0x340000 then canRows
  else if off < 0x350000 then lioRows
  else if off < 0x360000 then panelRows
  else []

/-- Whether the row occupies the offset: an array element at each dimension's index. -/
def RegRow.holds (r : RegRow) (off : Nat) : Bool :=
  decide (r.base ≤ off) &&
    (let d := off - r.base
     let i1 := if r.s1 = 0 then 0 else min (d / r.s1) (r.n1 - 1)
     let d1 := d - i1 * r.s1
     let i2 := if r.s2 = 0 then 0 else min (d1 / r.s2) (r.n2 - 1)
     let d2 := d1 - i2 * r.s2
     let i3 := if r.s3 = 0 then 0 else min (d2 / r.s3) (r.n3 - 1)
     decide (d2 = i3 * r.s3))

/-- The row of the register at an offset, if a register occupies it. -/
def regRow? (off : Nat) : Option RegRow := (rowsOf off).find? (fun r => r.holds off)

/-- A row's reset word, from the Reset column. -/
def RegRow.resetWord (r : RegRow) : Nat := r.fields.foldl (fun a f => a + f.reset * 2 ^ f.lo) 0

/-- Limits of sensor `i` (spec/19_management.md R568) as LO and HI: WARN, then CRIT. A temperature's LO of 0x8000 is disabled, and so is
VBAT's HI of 0x7FFF, which the spec does not state. -/
def sensorLimits (i : Nat) : (Nat × Nat) × (Nat × Nat) :=
  if i ≤ 3 then ((0x8000, 10000), (0x8000, 11000))
  else if i = 4 then ((0x8000, 8500), (0x8000, 9500))
  else if i = 5 then ((11000, 13000), (10800, 13200))
  else if i = 6 then ((728, 773), (713, 788))
  else if i = 7 then ((776, 824), (760, 840))
  else if i = 8 then ((873, 927), (855, 945))
  else if i = 9 then ((970, 1030), (950, 1050))
  else if i = 10 then ((3135, 3465), (3000, 3600))
  else ((2200, 0x7FFF), (1800, 0x7FFF))

/-- Region `r` of the cask (spec/20_reset_watchdog_cask.md R604): first 4 KB unit and size in 4 KB units. -/
def caskRegion (r : Nat) : Nat × Nat :=
  if r = 0 then (0, 1) else if r = 1 then (1, 128) else if r = 2 then (129, 512) else if r = 3 then (641, 16)
  else if r = 4 then (657, 512) else if r = 5 then (1169, 2560) else if r < 15 then (3729 + 32 * (r - 6), 32) else (4017, 79)

/-- Array elements whose reset value depends on the index: STEP_TBL_STEP[b] = 16b, STEP_TBL_LIM[b] = 512 + 4b,
PART_CFG[0] (R76, R80), TRL_POS_STAT.ROW = 16p + k, PANEL_GAMMA[g] = 17g, SENSOR limits of R568, CASK_REGION of R604,
and PANEL_FRONT_CRC, the CRC-32 of 8,192 zero bytes. -/
def regResetSpecial (off : Nat) : Option Nat :=
  if off = 0x160014 then some 16
  else if off = 0x16001C then some 516
  else if off = 0x040008 then some (128 * 2 ^ 24 + 2 ^ 20)
  else if 0x200000 ≤ off ∧ off < 0x280000 then
    let q := off % 0x4000
    if 0x10 ≤ q ∧ q < 0x50 then some (((off - 0x200000) / 0x4000 * 16 + (q - 0x10) / 4) * 2 ^ 16) else none
  else if 0x350040 ≤ off ∧ off < 0x350080 then some (17 * ((off - 0x350040) / 4))
  else if off = 0x350018 then some 0xd8f49994
  else if 0x3000C0 ≤ off ∧ off < 0x300180 ∧ (off % 16 = 4 ∨ off % 16 = 8) then
    let l := sensorLimits ((off - 0x3000C0) / 16)
    let v := if off % 16 = 4 then l.1 else l.2
    some (v.2 * 2 ^ 16 + v.1)
  else if 0x310040 ≤ off ∧ off < 0x310080 then
    let g := caskRegion ((off - 0x310040) / 4)
    some (g.2 * 2 ^ 16 + g.1)
  else none

/-- Reset value of the register at each offset: the spec's tables; 0 where no register stands (R11). -/
def regReset (off : Nat) : Word :=
  match regResetSpecial off with
  | some v => BitVec.ofNat 32 v
  | none =>
    match regRow? off with
    | some r => BitVec.ofNat 32 r.resetWord
    | none => 0

end Sys2Proof.Machine
end

