-- ==== Sys2Proof/Machine/State.lean ====
section
/-! DEFINITION. The state of the module as plain data, and its reset value. Registers live in the register file under their BAR0 offsets; everything else the spec gives the module has a field of its own. -/

namespace Sys2Proof.Machine

/-- Reasons a command stops with a fault: none. The spec names an effect, a rejection or an exception for every command. -/
inductive Fault where
  deriving DecidableEq, Repr

/-- Reasons a command has no meaning. -/
inductive Refusal where
  /-- The model gives the command no meaning; raised by the dispatcher alone; safe. -/
  | notModelled (mnemonic : String)
  deriving DecidableEq, Repr

/-- One lane's registers (spec/04_judin_model.md R124): byte accumulators, index registers, flags V N C Z L in bits 4 … 0. -/
structure Lane where
  a : BitVec 8 := 0
  b : BitVec 8 := 0
  x : BitVec 16 := 0
  y : BitVec 16 := 0
  f : BitVec 5 := 0
  deriving DecidableEq, Repr

/-- A return-stack entry (R145); `exc` marks an entry made by an exception. -/
structure StackEnt where
  pc : BitVec 16 := 0
  fs : List (BitVec 5) := []
  lm : BitVec 256 := 0
  exc : Bool := false
  deriving DecidableEq, Repr

/-- What an instruction does once its context's outstanding writes have completed (R155, R157, R186). -/
inductive After where
  | fence
  | finish
  | sev (e : Nat)
  | goSend (ch : Nat) (msg : List Word)
  | goDone (ch user : Nat)
  | trig (t : Nat)
  deriving DecidableEq, Repr

/-- Why a context is stalled: its outstanding writes, with the line time at which the wait began; an event or deadline (with the wake seen); a mailbox answer; a row whose
channel variables are not yet migrated, with whether the frame loader has taken the row's claim for it (R404). -/
inductive Stall where
  | fence (k : After) (since : Nat)
  | event (e : Nat) (deadline : Option Nat) (woken : Option Nat)
  | mbxSend (ch : Nat) (msg : List Word)
  | mbxRead (ch : Nat)
  | migrate (row : Nat) (claimed : Bool)
  deriving DecidableEq, Repr

/-- A fabric write in its pair's compare buffer (spec/12_twin_presses.md R380): clocks its context had used, and line time, when its
instruction was issued; rule epoch and cycle at that issue; the 128-byte line; the bytes, and the lanes whose bytes it carries. -/
structure BufWr where
  clk : Nat
  lt : Nat
  ruleEpoch : Nat
  cycle : Nat
  line : Nat
  bytes : List (Nat × Byte)
  lanes : BitVec 256
  deriving DecidableEq, Repr

/-- A version of a partition's program (spec/13_graft.md R392): code run in 1 KB granules, fault entry, constants in 256-byte
units of the table store, variable layout, map granule and how many maps it holds. -/
structure Version where
  codeKb : Nat := 0
  codeAt : Nat := 0
  entry : Nat := 0
  constAt : Nat := 0
  constGran : Nat := 0
  constLen : Nat := 0
  var : Nat := 0
  mapAt : Option Nat := none
  maps : Nat := 0
  deriving DecidableEq, Repr

/-- An execution context on a press pair or a scalar pair (R121, R124, R139): its partition, row, cycle and version, its
registers, return stack and exception fields, its stall, what the frame load latched (the system records), and what its
write-back will hand over; `buf` is the pair's compare buffer, oldest first, and `released` counts the fabric writes that have left it
(spec/12_twin_presses.md R380, R383). -/
structure Ctx where
  running : Bool := false
  scalar : Bool := false
  part : Nat := 0
  row : Nat := 0
  cycle : Nat := 0
  late : Bool := false
  frame : Nat := 0
  ver : Version := {}
  lanes : List Lane := []
  pc : BitVec 16 := 0
  dp : BitVec 16 := 0
  rsp : BitVec 6 := 0
  rsFull : Bool := false
  rsPar : Bool := false
  lm : BitVec 256 := 0
  stack : SMap StackEnt := []
  excCause : Nat := 0
  excLane : Nat := 0
  excPc : BitVec 16 := 0
  excAddr : Nat := 0
  excBar : Nat := 0
  excLanes : BitVec 256 := 0
  clkUsed : Nat := 0
  toSeen : Bool := false
  toPend : Bool := false
  busPend : Option (Nat × Nat × BitVec 256) := none
  wakeSrc : Nat := 0x3FF
  ltNow : DWord := 0
  bind : Nat := 0
  stall : Option Stall := none
  scratch : Mem := []
  sysrec : List Byte := []
  cutoff : Nat := 0
  ended : Bool := false
  granules : List Nat := []
  cmdLanes : BitVec 256 := 0
  held : List Byte := []
  buf : List BufWr := []
  released : Nat := 0
  migrated : Bool := false
  deriving DecidableEq, Repr

/-- What stays of a context on its pair when it is gone: the fields of the press control range that nothing clears (R123, R139), the command
bytes held for a scalar pair (R141), and buffered writes of instructions that have matched (spec/12_twin_presses.md R380, R383). -/
def Ctx.rest (x : Ctx) : Ctx :=
  { excCause := x.excCause, excLane := x.excLane, excPc := x.excPc, excAddr := x.excAddr, excBar := x.excBar, excLanes := x.excLanes
    wakeSrc := x.wakeSrc, ltNow := x.ltNow, held := x.held, buf := x.buf, part := if x.buf.isEmpty then 0 else x.part }

/-- What an idle pair's context slot reads as. -/
def ctx0 : Nat → Ctx := fun _ => {}

/-- A press frame: the row it holds, the row's 36 KB in the layout of R33, what the load latched (R138),
and whether the load migrated its channel variables (R403). -/
structure Frame where
  row : Option Nat := none
  part : Nat := 0
  cycle : Nat := 0
  late : Bool := false
  loaded : Bool := false
  mem : Mem := []
  sysrec : List Byte := []
  migrated : Bool := false
  deriving DecidableEq, Repr

/-- What an empty frame reads as. -/
def frame0 : Nat → Frame := fun _ => {}

/-- A row's standing with the scheduler (spec/02_control_cycle.md R49 … R74): the cycles in which its harvest was last
accepted, in which it last ripened and passed the step sequencer, and whose conversion waits (R52); the cycle work in hand (its
claim is SCHED_ROW_STAT[r]) and the work that waits behind it (cycle, whether stretched); the input and step-state sections kept for
work of a cycle whose records conversion has overwritten; the cycle last stretched, and what PREV_OUTCOME and PREV_MISSED tell its
late execution; outcomes decided and not yet counted, by cycle; what each cycle's slot carries where that is not the standing
records (`none`: nothing); the last counted outcome and its cycle; the cycle of the latest write-back; and what PREV_MISSED tells. -/
structure RowSt where
  harv : Option Nat := none
  ripe : Option Nat := none
  passed : Option Nat := none
  exOwner : Option Nat := none
  noHarvest : Option Nat := none
  job : Option Nat := none
  jobLate : Bool := false
  next : List (Nat × Bool) := []
  olds : List (Nat × Mem) := []
  convWait : Option Nat := none
  stretched : Option Nat := none
  latePrev : Nat × Bool := (10, false)
  stopped : Option Nat := none
  decs : List (Nat × Nat) := []
  pours : List (Nat × Option (List Byte)) := []
  outcome : Nat := 10
  poured : Option Nat := none
  wrote : Option Nat := none
  dueBefore : Bool := false
  dueServed : Bool := false
  deriving DecidableEq, Repr

/-- What a row nothing has touched reads as. -/
def row0 : Nat → RowSt := fun _ => {}

/-- A partition's data behind its table entry: EST history (R66), counters as latched at the last boundary (R74),
whether it is admitted and counts in D (R60), a mode request not yet acted on, its scalar context's place in the pair's
queue and running cycle (R645), its pending sources (R208), its versions (R391) and its graft in hand: the commit or
rollback cycle fixed, the master that armed it, whether a map is still to be applied and in which direction, the line
time the window ends. -/
structure PartSt where
  est : List Nat := []
  latched : List Nat := [0, 0, 0, 0]
  admitted : Bool := false
  pendReq : Bool := false
  scalarWait : Option Nat := none
  scalarOn : Option Nat := none
  pend : List Nat := []
  run : Version := {}
  other : Version := {}
  commitAt : Option Nat := none
  rollback : Bool := false
  armer : Nat := 0
  swapCode : Bool := false
  migrate : Option (Nat × Bool) := none
  windowEnd : Option Nat := none
  deriving DecidableEq, Repr

/-- What a partition nothing has touched reads as. -/
def part0 : Nat → PartSt := fun _ => {}

/-- A fabric request in flight (R108): the tag's fields, and the bytes of a write. `cx` and `lanes` name the context
and lanes of a press or scalar-core write; `frm` names the pair and frame of a frame load, `void` one whose claim was released. -/
structure FabReq where
  tag : Nat
  initiator : Nat
  master : Nat
  ruleEpoch : Nat
  tagEpoch : Nat
  cycle : Nat
  write : Bool
  addr : Nat
  bytes : List (Nat × Byte)
  cx : Option Nat
  lanes : BitVec 256
  waited : Nat
  frm : Option (Nat × Nat) := none
  void : Bool := false
  deriving DecidableEq, Repr

/-- A scalar context's step command on its way to the step sequencer (R646): the writing pair, the channel, the eight bytes. -/
structure ScalarCmd where
  cx : Nat
  ch : Nat
  bytes : List Byte
  deriving DecidableEq, Repr

/-- A trigger waiting for the reflex decoder (spec/11_board_obligations_reflex.md R367): kind, its match value, row and
lanes. -/
structure Trigger where
  kind : Nat
  arg : Nat
  row : Nat
  lanes : BitVec 256
  deriving DecidableEq, Repr

/-- A grant-table write held under R106. -/
structure HeldGrant where
  off : Nat
  value : Word
  deriving DecidableEq, Repr

/-- A record waiting for the cellar book's intake (spec/19_management.md R575 … R577). -/
structure CellarRec where
  code : Nat
  src : Nat
  flags : Nat
  lt : DWord
  wallSec : Nat
  wallEpoch : Nat
  p0 : Nat
  p1 : Nat
  p2 : Nat
  deriving DecidableEq, Repr

/-- The media the module hands messages to. -/
inductive Medium where
  | trellis | rack | hostDma | msix | aer | eng | arp | icmp | ptp | can | lioDown | lioUp | reply
  deriving DecidableEq, Repr

/-- An ordered racking frame kept until the peer acknowledges it (spec/14_racking_standby.md R426): kind, OSEQ, payload. -/
structure RackMsg where
  kind : Nat
  seq : Nat
  data : List Nat
  deriving DecidableEq, Repr

/-- A message handed to a medium: `dst` and `kind` are the medium's own (port and frame kind, function and vector, lane,
controller), `data` its bytes or parameters. The list of them is the model's own record of what the module emits. -/
structure Msg where
  medium : Medium
  dst : Nat
  kind : Nat
  data : List Nat
  deriving DecidableEq, Repr

/-- The values the factory fuses fix (spec/00_scope.md R3; log 1). -/
structure Fuses where
  window : Nat := 1
  grade : Nat := 0
  stepping : Nat := 0
  serial : DWord := 0
  dies : List Nat := []
  deriving DecidableEq, Repr


/-- Wall time (spec/16_engineering_time.md R491 … R496), in units of 2^−16 ns: the offset O, the slew left, a step decided and not yet
due with the line time of the decision, the hold (W_h and O_t), an ACCEPT_BACK waiting for its boundary, outliers in a row. -/
structure Wall where
  off : Int := 0
  epoch : Nat := 0
  slewLeft : Int := 0
  step : Option (Int × Nat) := none
  hold : Option (Int × Int) := none
  acceptBack : Bool := false
  outliers : Nat := 0
  outlierPos : Bool := false
  deriving DecidableEq, Repr

/-- A foreign master (spec/16_engineering_time.md R498; the default BMCA of IEEE 1588-2019): source port identity, data set in the
order of comparison up to the grandmaster identity, stepsRemoved, UTC data, and the line times of its last two Announces. -/
structure Foreign where
  src : Nat
  rank : List Nat
  gm : Nat
  steps : Nat
  utc : Nat
  last : Nat
  prev : Option Nat
  window : Nat
  deriving DecidableEq, Repr

/-- The PTP port (R498 … R500), times in units of 2^−16 ns: parent; foreign masters; a two-step Sync awaiting its Follow_Up (sequence,
line time, correction); the latest Sync used (line time, master time); the last 16 of them; the request in flight (sequence,
line time); a two-step Pdelay_Resp (request receipt, line time of arrival, correction); mean path delay; measurements in the lock band in
a row; sequence number of the next request; whether it has been SLAVE since reset. -/
structure Ptp where
  parent : Option Nat := none
  foreign : List Foreign := []
  pend : Option (Nat × Int × Int) := none
  sync : Option (Int × Int) := none
  hist : List (Int × Int) := []
  req : Option (Nat × Int) := none
  resp : Option (Int × Int × Int) := none
  path : Option Int := none
  good : Nat := 0
  seq : Nat := 0
  wasSlave : Bool := false
  deriving DecidableEq, Repr

/-- The option block in use (spec/20_reset_watchdog_cask.md R598), with the defaults of its table. -/
structure OptBlock where
  autoStart : Bool := false
  failLimit : Nat := 3
  startOkS : Nat := 60
  listenMs : Nat := 1000
  warmEn : Bool := false
  flushOnReset : Bool := false
  wdtPeriod : Nat := 10000
  subsysVid : Nat := 0
  subsysId : Nat := 0
  retain : List (Nat × Nat) := []
  pw : List (Nat × Nat) := []
  deriving DecidableEq, Repr

/-- An MSI-X table entry: message address and data, and its mask, set at reset (PCIe rules; log 18). -/
structure MsixEnt where
  addr : Nat := 0
  data : Nat := 0
  masked : Bool := true
  pending : Bool := false
  deriving DecidableEq, Repr

/-- What an MSI-X entry nothing has written reads as. -/
def msix0 : Nat → MsixEnt := fun _ => {}

/-- What the step sequencer and the ledger keep of a channel beside its step state (spec/07_step_sequencer.md,
spec/09_bus_ledger.md): passes in which each comparator was not evaluated for a held sample, whether a DVDT window has its
first sample, the class of its last request, the ledger's answer not yet taken (1 admitted, 2 refused), whether it posted a
pre-booking in this step, and its racked stamp (cycle, V, I) until its first pass after a takeover (R445). -/
structure ChX where
  held0 : Nat := 0
  held1 : Nat := 0
  held2 : Nat := 0
  winOpen : Bool := false
  cls : Nat := 1
  answer : Nat := 0
  posted : Bool := false
  rack : Option (Nat × Int × Int) := none
  deriving DecidableEq, Repr

/-- What a channel nothing has touched reads as. -/
def chx0 : Nat → ChX := fun _ => {}

/-- Kinds of queue entry of the ledger (R292). -/
inductive LedgKind where
  | wait | tentative | tentWait | paused
  deriving DecidableEq, Repr

/-- A queue entry of the ledger (R289 … R299): channel, class, partition priority, the cycle it is dated from, the bus-side
estimate, a pre-booking's horizon, and whether the step sequencer has cancelled it. -/
structure LedgEnt where
  kind : LedgKind
  ch : Nat
  cls : Nat
  prio : Nat
  date : Nat
  amount : Int
  horizon : Nat
  cancelled : Bool
  deriving DecidableEq, Repr

/-- A bus of the ledger: the configuration in force since the last boundary (R284), consecutive boundaries over the shed level,
the shed quota left of each side, the cycle its hold-off ends, the row after which shedding goes on and the row it began with
(R298), and the exact sums in force and tentative of each side (R283). -/
structure LedgBus where
  en : Bool := false
  holdoff : Nat := 16
  confirm : Nat := 3
  kImp : Nat := 1126
  kExp : Nat := 922
  impBudget : Nat := 0
  expBudget : Nat := 0
  impShed : Nat := 0xFFFFFFFF
  expShed : Nat := 0xFFFFFFFF
  overImp : Nat := 0
  overExp : Nat := 0
  quotaImp : Nat := 0
  quotaExp : Nat := 0
  holdUntil : Nat := 0
  lastRow : Nat := 511
  shedFirst : Nat := 0
  sumImp : Nat := 0
  sumExp : Nat := 0
  tentImp : Nat := 0
  tentExp : Nat := 0
  deriving DecidableEq, Repr

/-- A bus at reset. -/
def bus0 : Nat → LedgBus := fun _ => {}

/-- Losses of a partition's result records not yet told in its queue (spec/15_host_mailboxes.md R461). -/
structure Loss where
  part : Nat
  lt : Nat
  wallSec : Nat
  wallEpoch : Nat
  ltLast : Nat
  count : Nat
  deriving DecidableEq, Repr

/-- A staged result record (R457): its queue, its staging slot, its 64 bytes, and the loss record that goes before it. -/
structure Staged where
  queue : Nat
  slot : Nat
  data : List Byte
  loss : Option Loss
  deriving DecidableEq, Repr

/-- A taste whose deviations await the calibration engine (spec/08_conversion_calibration.md R276, R277). -/
structure Taste where
  ch : Nat
  point : Nat
  dv : Int
  di : Int
  deriving DecidableEq, Repr

/-- A board position of a port (spec/10_trellis_link.md R327 … R341): its accepted measurements, latest last (link_rtt, CORR_UP and
CORR_DN, in 2^−16 ns), those an active makes from its own side while the position is far, its racked medians on a standby (DN_LINK,
CORR_UP, CORR_DN), rejections in a row for distance from the median, discovery rounds missed
in a row, whether it answered the round in hand, and the median of its last RESULT. -/
structure Pos where
  meas : List (Int × Int × Int) := []
  near : List (Int × Int × Int) := []
  racked : Option (Int × Int × Int) := none
  bad : Nat := 0
  miss : Nat := 0
  answered : Bool := false
  sent : Option Int := none
  deriving DecidableEq, Repr

/-- What a position nothing has touched reads as. -/
def pos0 : Nat → Pos := fun _ => {}

/-- A TRIP frame with repeats left (R335): the cycle of the next one, row, decode instant, payload. -/
structure Trip where
  left : Nat
  due : Nat
  row : Nat
  lt : Nat
  payload : List Byte
  deriving DecidableEq, Repr

/-- A port's engine (R321 … R341): requests due in the next control period, the control periods since the last HELLO REQ, the
cycle of the last delay round, its requests still to send and their stamps by target, RESULTs to send, TRIP sequence and repeats, whether its
committed table comes into force at the next boundary, line-end measurements and, on a standby, the line end's racked medians, split-line
operation (first far position, cycle confirmed; the boundary it ends at; break reported), the cycle of the last control period with the
byte times its frames have taken and, on a standby, SYNCs missed and received in a row. -/
structure PortSt where
  helloNow : Bool := false
  helloAge : Nat := 0
  delayNow : Bool := false
  delayAt : Nat := 0
  seq : Nat := 0
  stamps : List (Nat × Nat × Nat) := []
  reqs : List Nat := []
  results : List Nat := []
  tseq : Nat := 0
  trips : List Trip := []
  swap : Bool := false
  lineEnd : List (Int × Int × Int) := []
  lineRacked : Option (Int × Int × Int) := none
  far : Option (Nat × Nat) := none
  leaveAt : Option Nat := none
  ctlAt : Option Nat := none
  ctlUsed : Nat := 0
  report : Bool := false
  missed : Nat := 0
  heard : Nat := 0
  deriving DecidableEq, Repr

/-- What a port nothing has touched reads as. -/
def port0 : Nat → PortSt := fun _ => {}

/-- The module's power and control pins (spec/21_electrical_mechanical.md; log 2): AUX3V3 and 12V_MAIN present, RESET_N,
PWR_FAIL_N and PERST_N (true: high), PANEL_ID (true: no panel). -/
structure Pins where
  aux : Bool := true
  main : Bool := true
  resetN : Bool := true
  pwrFailN : Bool := true
  perstN : Bool := true
  panelId : Bool := false
  deriving DecidableEq, Repr

/-- The cellar book's RAM and what its firmware keeps (spec/19_management.md R574 … R582): the ring and the first-fault region by
slot (an empty list: not held), HEAD at the last commit, when the freeze began, and records lost and not yet told. `lost` tells
that the RAM has lost its contents. -/
structure Cellar where
  ring : SMap (List Byte) := []
  ff : SMap (List Byte) := []
  saved : Nat := 0
  savedFf : Nat := 0
  frozenAt : Nat := 0
  untold : Nat := 0
  lost : Bool := true
  deriving DecidableEq, Repr

/-- A flash write in progress (spec/19_management.md R560): address in the flash and data; no data for the refused. -/
structure FlashJob where
  addr : Nat
  data : List Byte
  deriving DecidableEq, Repr

/-- A sensor's consecutive readings beyond its WARN and CRIT limits, and inside them by the margin (spec/19_management.md R569). -/
structure Sensor where
  bw : Nat := 0
  bc : Nat := 0
  iw : Nat := 0
  ic : Nat := 0
  deriving DecidableEq, Repr

/-- What a sensor nothing has read reads as. -/
def sensor0 : Nat → Sensor := fun _ => {}

/-- The management island (spec/19_management.md): restarting; a start's steps 0 … 5 ended and the peer's line time taken; the
start set's progress (next section's offset and its index), its wait for a casting's commit, and the line time of the release; a flash write in progress; a
scrub in progress and the line time of the last; sensors; the junction readings of the hour; T(0) as the release fixed it. -/
structure Mgt where
  down : Bool := false
  startDone : Bool := false
  peerTime : Bool := false
  startSet : Option (Nat × Nat) := none
  setWait : Bool := false
  t0 : Nat := 0
  releasedAt : Option Nat := none
  fw : Option FlashJob := none
  scrubbing : Bool := false
  scrubAt : Nat := 0
  sens : SMap Sensor := []
  lifeSum : Int := 0
  lifeN : Nat := 0
  lifeAt : Nat := 0
  deriving DecidableEq, Repr

/-- The flush in hand (spec/20_reset_watchdog_cask.md R612 … R614): when it began, whether its stop phase has ended, and the cycle,
line time, wall seconds and epoch at that end. -/
structure Flush where
  since : Nat := 0
  quiet : Bool := false
  main : Bool := false
  cycle : Nat := 0
  lt : Nat := 0
  sec : Nat := 0
  epoch : Nat := 0
  deriving DecidableEq, Repr

/-- The racking port (spec/14_racking_standby.md): LT of the peer's last BEAT and own line time at its reception; the last eight one-way
delays in 1/16 ns; the cycle of the last BEAT and BEATs missed in a row; a SWAP notice not yet acknowledged, the swap cycle W, and
whether a standby holds a SWAP notice; a YIELD seen; the takeover cause a settle runs for (0 at a start); the takeover cycle t
still to come; SLOT_ID and ROLE of the peer's HELLO; whether the next ordered frame starts a fill's count; whether a lane in use was
lost; sweeps done, BEATs since the last HELLO, the stamps held by row, and the cycle of the last observed pour by row; each lane's link
state and media (R423); fill data not yet sent; where the service of changed channels and entries goes on (R432); RACK_PART in force by
partition (R435); the cycle last found without a BEAT (R439). -/
structure Rack where
  ltRx : Nat := 0
  rxAt : Nat := 0
  delays : List Int := []
  beat : Option Nat := none
  missed : Nat := 0
  swapSeq : Option Nat := none
  swapW : Option Nat := none
  swapNotice : Bool := false
  yielded : Bool := false
  settle : Option Nat := none
  takeAt : Option Nat := none
  peer : Option (Bool × Nat) := none
  fresh : Bool := false
  laneLost : Bool := false
  sweeps : Nat := 0
  helloAge : Nat := 0
  stamps : SMap (Option (Nat × Nat)) := []
  pours : SMap (Option Nat) := []
  lanes : SMap (Nat × Nat) := []
  fill : List (List Nat) := []
  stepPtr : Nat := 0
  coefPtr : Nat := 0
  parts : SMap Nat := []
  missAt : Option Nat := none
  deriving DecidableEq, Repr

/-- An unlock of a cask region (spec/20_reset_watchdog_cask.md R610). -/
structure Unlock where
  region : Nat
  write : Bool
  master : Nat
  deriving DecidableEq, Repr

/-- The cask's controller (R606, R610): the commit buffer by cask address, bytes held while a commit runs, whether a commit of the option
block began before the host's, unlocks oldest first, and until when each region refuses unlocks. -/
structure CaskCtl where
  buf : SMap (Option Byte) := []
  optFirst : Bool := false
  held : List (Nat × Byte) := []
  unlocks : List Unlock := []
  refused : SMap Nat := []
  deriving DecidableEq, Repr

/-- A result queue (spec/15_host_mailboxes.md R463): records written and not yet signalled, and the line time of the first of them. -/
structure Hq where
  unsig : Nat := 0
  since : Nat := 0
  deriving DecidableEq, Repr

/-- What a queue nothing has touched reads as. -/
def hq0 : Nat → Hq := fun _ => {}

/-- A snapshot set (R467 … R469): a GO not yet acted on; the snapshot in progress: its first cycle, rows captured, and the
earliest and latest captured cycles. -/
structure SnapSt where
  go : Bool := false
  since : Nat := 0
  next : Nat := 0
  first : Nat := 0
  last : Nat := 0
  deriving DecidableEq, Repr

/-- What a set nothing has touched reads as. -/
def snapSt0 : Nat → SnapSt := fun _ => {}

/-- A CAN controller beside its registers (spec/17_service_bus.md): stored entries of 20 words, the head first; whether the head is
locked; the entry that reads show (the locked one, then the removed one); the number of the next entry; buffers whose abort waits for
their frame's end; valid frames in a row of a rate search; a bus-off recovery in progress. -/
structure CanSt where
  fifo : List (List Nat) := []
  locked : Bool := false
  shown : List Nat := []
  next : Nat := 0
  abort : List Nat := []
  good : Nat := 0
  recovering : Bool := false
  deriving DecidableEq, Repr

/-- What a controller nothing has touched reads as. -/
def can0 : Nat → CanSt := fun _ => {}

/-- The local-IO logic die beside its registers (spec/18_local_io_panel.md R532 … R548): SEQ and configuration slot of the next
downstream frame, an ARM asked for, whether an upstream frame has been discarded since the last valid one, its STATUS count, and the
levels it carried. -/
structure LioLogic where
  seq : Nat := 0
  slot : Nat := 0
  arm : Bool := false
  gap : Bool := false
  status : Nat := 0
  deriving DecidableEq, Repr

/-- The local-IO field die (R534 … R545), as FIELD_SUPPLY_RISE starts it: SHUTDOWN; the outputs commanded, the outputs driven and those
shut off by their protection; directions and types by bit, debounce times, retry period; debounced levels and their changes since the
last build; SEQ of the last valid downstream frame and frames discarded, modulo 16. -/
structure LioField where
  shutdown : Bool := true
  out : Nat := 0
  on : Nat := 0
  fault : Nat := 0
  dir : Nat := 0
  typ : Nat := 0
  deb : SMap Nat := []
  retry : Nat := 10
  level : Nat := 0
  chg : SMap Nat := []
  seq : Nat := 0
  bad : Nat := 0
  deriving DecidableEq, Repr

/-- A point's debounce time at the field die's power-up, µs. -/
def deb0 : Nat → Nat := fun _ => 1000

/-- The panel driver beside its registers (spec/18_local_io_panel.md R549 … R553): the value of the swap in hand and whether its checksum
has been found right; the front buffer by word; PANEL_DRIVE as the frame in progress uses it. -/
structure PanelSt where
  swap : Nat := 0
  ready : Bool := false
  front : SMap Word := []
  drive : Nat := 130 * 2 ^ 16 + 150
  deriving DecidableEq, Repr

/-- The response kept for a client of the engineering service (spec/16_engineering_time.md R483): its address, port and SEQ, and the bytes. -/
structure EngClient where
  ip : Nat
  port : Nat
  seq : Nat
  resp : List Byte
  deriving DecidableEq, Repr

/-- A casting in the load buffer (R488): partition, length, the chunks received, and the buffer. -/
structure EngLoad where
  part : Nat
  total : Nat
  have' : List Nat
  buf : SMap Byte
  deriving DecidableEq, Repr

/-- The actions whose end an engineering request waits for (R482): a graft check of a partition, a cask commit, a flash write. -/
inductive EngJob where
  | graft (n : Nat)
  | cask
  | flash
  deriving DecidableEq, Repr

/-- The engineering service (R480 … R490): kept responses, latest used first; the request in execution and what it waits for; requests
waiting; the load buffer; a RESTART answered and not yet done, with its mode. -/
structure EngSt where
  clients : List EngClient := []
  job : Option (Nat × EngReq × EngJob) := none
  waiting : List (Nat × EngReq) := []
  load : Option EngLoad := none
  restart : Option Bool := none
  deriving DecidableEq, Repr

/-- The state of the module. -/
structure State where
  pending : List Instr := []
  out : List Msg := []
  free : Nat := 0
  fuses : Fuses := {}
  regs : SMap Word := []
  latHi : SMap Word := []
  heldLo : SMap Word := []
  fnRegs : SMap Word := []
  spareNow : List Nat := [32, 33]
  mem : Mem := []
  ecc : SMap Nat := []
  lt : DWord := 0
  ltFrac : Nat := 0
  cycle : DWord := 0
  tn : DWord := 0
  started : Bool := false
  applyOfs : Nat := 6000
  modeReqPend : Bool := false
  rows : SMap RowSt := []
  parts : SMap PartSt := []
  frames : SMap Frame := []
  ctxs : SMap Ctx := []
  inflight : List FabReq := []
  tagEpochs : SMap Nat := []
  scalarCmds : List ScalarCmd := []
  triggers : List Trigger := []
  rfxMet : SMap (List Byte) := []
  heldGrants : List HeldGrant := []
  evLatch : SMap Bool := []
  msix : SMap MsixEnt := []
  msixEn : List Nat := []
  msixFmask : List Nat := []
  vfs : Nat := 0
  hq : SMap Hq := []
  snaps : SMap SnapSt := []
  noticePend : List Nat := []
  almSeen : SMap Bool := []
  almIssued : List Nat := []
  undone : List (Nat × Nat) := []
  chx : SMap ChX := []
  ledgQ : List LedgEnt := []
  ledgBuses : SMap LedgBus := []
  rowMeas : SMap (Int × Int) := []
  losses : List Loss := []
  staged : List Staged := []
  stepMap : List Nat := []
  coefMap : List Nat := []
  nowParts : List Nat := []
  tastePlan : SMap (Option (Nat × Nat × Nat)) := []
  tastes : List Taste := []
  descOld : SMap (Option (List Word)) := []
  planOld : SMap (Option (Nat × Nat × Nat)) := []
  descPrev : SMap (Option (List Word)) := []
  restored : List (Nat × Nat) := []
  estWait : List Nat := []
  copyWait : Bool := false
  calSince : Nat := 0
  calRows : Nat := 0
  calBad : Nat := 0
  calStaged : Bool := false
  calHost : Bool := false
  calLast : Option Nat := none
  ports : SMap PortSt := []
  poss : SMap Pos := []
  rackSeq : Nat := 0
  rackApplied : Nat := 0
  rackUnacked : List RackMsg := []
  rackProgress : Nat := 0
  rackSent : SMap Nat := []
  rack : Rack := {}
  cellarQ : List CellarRec := []
  wall : Wall := {}
  ptp : Ptp := {}
  rtcFired : Bool := false
  opt : OptBlock := {}
  flushFor : Option (Nat × Nat) := none
  startOk : Bool := false
  wdtStart : Nat := 0
  pins : Pins := {}
  cask : SMap Byte := []
  flash : SMap Byte := []
  scrubDue : Bool := false
  recReq : Bool := false
  cb : Cellar := {}
  mgt : Mgt := {}
  flush : Flush := {}
  ck : CaskCtl := {}
  eng : EngSt := {}
  can : SMap CanSt := []
  lio : LioLogic := {}
  lioF : LioField := {}
  panel : PanelSt := {}
  busyAcc : Nat := 0
  linesAcc : Nat := 0
  deriving DecidableEq, Repr

/-- The module after reset: every register at its reset value, every store unwritten, nothing pending. -/
def State.reset : State := {}

/-- What a module reset keeps outside the register file (spec/20_reset_watchdog_cask.md R584): the always-on island, the
cask, the flash, and the model's own queue, messages and free values. The registers it keeps are State.resetNow's. -/
def State.keepAcrossReset (s : State) : State :=
  { pending := s.pending, out := s.out, free := s.free, fuses := s.fuses, pins := s.pins, cellarQ := s.cellarQ, cb := s.cb
    cask := s.cask, flash := s.flash, scrubDue := s.scrubDue, recReq := s.recReq
    rtcFired := s.rtcFired, lioF := s.lioF, panel := s.panel }

end Sys2Proof.Machine
end

