-- ==== Sys2Proof/Machine/Ops.lean ====
section
/-! DEFINITION. The named operations over registers, memory, events, records and messages that every command's meaning is written in. -/

namespace Sys2Proof.Machine

/-- The answer of a command. -/
abbrev Out := Host.Outcome State Fault Refusal

/-- The register file's word at a BAR0 offset. -/
def State.reg (s : State) (off : Nat) : Word := SMap.get regReset s.regs off

/-- Sets a register's word. -/
def State.setReg (s : State) (off : Nat) (v : Word) : State := { s with regs := SMap.put regReset off v s.regs }

/-- A register field's value. -/
def State.fget (s : State) (f : Fld) : Nat := bitsOf (s.reg f.off).toNat f.hi f.lo

/-- Sets a register field; the other fields of the register stay. -/
def State.fset (s : State) (f : Fld) (v : Nat) : State :=
  s.setReg f.off (BitVec.ofNat 32 (setBits (s.reg f.off).toNat f.hi f.lo v))

/-- Whether a one-bit field is 1. -/
def State.fbit (s : State) (f : Fld) : Bool := decide (s.fget f ≠ 0)

/-- Increments a saturating field (R198). -/
def State.fsat (s : State) (f : Fld) : State :=
  if s.fget f + 1 < 2 ^ (f.hi + 1 - f.lo) then s.fset f (s.fget f + 1) else s

/-- Adds `n` to a saturating field. -/
def State.fsatN (s : State) (f : Fld) (n : Nat) : State :=
  s.fset f (min (s.fget f + n) (2 ^ (f.hi + 1 - f.lo) - 1))

/-- Increments a wrapping field (R198). -/
def State.fwrap (s : State) (f : Fld) : State := s.fset f (s.fget f + 1)

/-- Adds `n` to a wrapping field. -/
def State.fwrapN (s : State) (f : Fld) (n : Nat) : State := s.fset f (s.fget f + n)

/-- Runs `f` where the condition holds. -/
def State.when (s : State) (b : Bool) (f : State → State) : State := if b then f s else s

/-- Runs `f` on each element of a list in turn. -/
def State.each {α : Type} (s : State) (l : List α) (f : State → α → State) : State := l.foldl f s

/-- Takes the next free value of the model (log 10). -/
def State.freeW (s : State) : DWord × State := (Config.freeWord s.free, { s with free := s.free + 1 })

/-- Takes the next free clock count (log 11). -/
def State.freeC (s : State) : Nat × State := (Config.freeClocks s.free, { s with free := s.free + 1 })

/-- A byte of the image, table and program stores, addressed as BAR0 shows them (R42). -/
def State.rdB (s : State) (a : Nat) : Byte := SMap.get store0 s.mem a

/-- `n` bytes of the stores. -/
def State.rdList (s : State) (a n : Nat) : List Byte := (List.range n).map (fun i => s.rdB (a + i))

/-- `n` bytes of the stores, least significant first. -/
def State.rdLE (s : State) (a n : Nat) : Nat := ofLE (s.rdList a n)

/-- Writes a byte of the stores. -/
def State.wrB (s : State) (a : Nat) (b : Byte) : State := { s with mem := SMap.put store0 a b s.mem }

/-- Writes bytes of the stores. -/
def State.wrBytes (s : State) (a : Nat) : List Byte → State
  | [] => s
  | b :: bs => State.wrBytes (s.wrB a b) (a + 1) bs

/-- Writes `n` bytes of the stores, least significant first. -/
def State.wrLE (s : State) (a n v : Nat) : State := s.wrBytes a (leBytes n v)

/-- The canonical form of the stores. -/
abbrev State.memWf (s : State) : Prop := SMap.wf store0 s.mem = true

/-- Hands a message to a medium. -/
def State.emit (s : State) (m : Msg) : State := { s with out := m :: s.out }

/-- Bytes as numbers. -/
def nats (l : List Byte) : List Nat := l.map (fun b => b.toNat)

/-- The module's MAC address with bits 7:0 = `low`, first octet first (TRL_MAC; spec/10_trellis_link.md R345). -/
def State.macAddr (s : State) (low : Nat) : List Byte :=
  BitVec.ofNat 8 2 :: (leBytes 4 s.fuses.serial.toNat).reverse ++ leBytes 1 low

/-- A MAC header in the byte order of IEEE 802.3 (spec/00_scope.md R4): destination, source, EtherType. -/
def macHdr (dst src : List Byte) (ty : Nat) : List Byte := dst ++ src ++ (leBytes 2 ty).reverse

/-- A frame of the engineering port: what it carries follows the port's own MAC address, TRL_MAC with bits 7:0 = 0x30, its source
(spec/16_engineering_time.md R478). -/
def State.engMsg (s : State) (m : Medium) (dst kind : Nat) (data : List Nat) : Msg :=
  { medium := m, dst := dst, kind := kind, data := nats (s.macAddr 0x30) ++ data }

/-- Asserts event source `src` at the router (R206): sets its latch, or merges into a raise not yet served, which
counts in EVT_CNT_MERGE, EVT_STAT.MERGED and EVT_SRC_CNT (R207). -/
def State.assertEv (s : State) (src : Nat) : State :=
  if SMap.get (fun _ => false) s.evLatch src then
    ((s.fwrap fEVT_CNT_MERGE_COUNT).fset fEVT_STAT_MERGED 1).fwrap (fEVT_SRC_CNT_COUNT src)
  else { s with evLatch := SMap.put (fun _ => false) src true s.evLatch }

/-- Wall time in units of 2^−16 ns: L + O, or the held value under a hold (R491, R496). -/
def State.wallTicks (s : State) : Int :=
  match s.wall.hold with
  | some (w, _) => w
  | none => (s.lt.toNat : Int) * 65536 + s.wall.off

/-- Wall time in whole nanoseconds. -/
def State.wallNs (s : State) : Nat := (s.wallTicks / 65536).toNat

/-- Wall seconds, 40 bits. -/
def State.wallSec (s : State) : Nat := s.wallNs / 1000000000 % 2 ^ 40

/-- Nanoseconds within the wall second. -/
def State.wallSubNs (s : State) : Nat := s.wallNs % 1000000000

/-- Management's master identity. -/
abbrev mMgt : Nat := 0x201

/-- The engineering service's master identity. -/
abbrev mEng : Nat := 0x203

/-- The PF's master identity. -/
abbrev mPf : Nat := 0x200

/-- The standby peer's master identity. -/
abbrev mPeer : Nat := 0x202

/-- RACK_STAT.ROLE values (spec/14_racking_standby.md R415). -/
abbrev roleStandby : Nat := 2

/-- A record as it enters the intake now (spec/19_management.md R575 … R577). FLAGS: WALL_UNSET, WALL_HOLD, STANDBY as they stand;
`fl` carries REFUSED or DELAYED. -/
def State.mkRec (s : State) (code src p0 p1 p2 fl : Nat) : CellarRec :=
  { code := code, src := src
    flags := fl + 2 * s.fget fTIME_STAT_WALL_UNSET + 4 * b2n s.wall.hold.isSome
      + 8 * b2n (decide (s.fget fRACK_STAT_ROLE = roleStandby))
    lt := s.lt, wallSec := s.wallSec, wallEpoch := s.wall.epoch
    p0 := p0 % 2 ^ 32, p1 := p1 % 2 ^ 32, p2 := p2 % 2 ^ 32 }

/-- MGT_STAT.BOOT of the boot ROM (R561). -/
abbrev bootRom : Nat := 3

/-- Queues a cellar book record (R579): up to 512 wait at the intake, and 256 more in the main die while management restarts; a
record beyond that is lost and counted. The boot ROM writes none (R561). -/
def State.cellarAs (s : State) (code src p0 p1 p2 fl : Nat) : State :=
  let delayed (r : CellarRec) : Bool := decide (r.flags / 32 % 2 = 1)
  let n := (s.cellarQ.filter (fun r => delayed r == s.mgt.down)).length
  if s.fget fMGT_STAT_BOOT = bootRom then s
  else if (if s.mgt.down then 256 else 512) ≤ n then
    { (s.fsat fMGT_CB_LOST_COUNT).fset fMGT_CB_STAT_LOST 1 with cb := { s.cb with untold := s.cb.untold + 1 } }
  else { s with cellarQ := s.cellarQ ++ [s.mkRec code src p0 p1 p2 (fl + 32 * b2n s.mgt.down)] }

/-- Queues a record the module makes of itself: source 0x201 (R575). -/
def State.cellar (s : State) (code p0 p1 p2 : Nat) : State := s.cellarAs code mMgt p0 p1 p2 0

/-- A critical-state error (spec/01_architecture.md R39). -/
def State.integCrit (s : State) (source detail : Nat) : State :=
  let s1 := ((s.fsat fSYS_INTEG_CRIT_COUNT).fset fSYS_INTEG_LAST_SOURCE source).fset fSYS_INTEG_LAST_DETAIL detail
  let s2 := (s1.fset fSYS_ERR_STAT_INTEG_CRIT 1).assertEv 683
  s2.cellar 0x0011 source detail (s2.fget fSYS_INTEG_CRIT_COUNT)

/-- A corrected error (R40). -/
def State.integCorr (s : State) : State :=
  ((s.fsat fSYS_INTEG_CORR_COUNT).fset fSYS_ERR_STAT_INTEG_CORR 1).assertEv 682

/-- A register write rejected under R12: CFG_REJECT, the first offset and writer, the overflow flag (R13). -/
def State.cfgReject (s : State) (off master : Nat) : State :=
  let s1 :=
    if s.fbit fSYS_ERR_STAT_CFG_REJECT then s.fset fSYS_CFG_REJECT_OVF 1
    else ((s.fset fSYS_ERR_STAT_CFG_REJECT 1).fset fSYS_CFG_REJECT_OFFSET (off - off % 4)).fset
      fSYS_CFG_REJECT_SRC_MASTER master
  s1.assertEv 680

/-- A dropped write, entered in the posted-write error log (spec/15_host_mailboxes.md R455, R456). -/
def State.pweLog (s : State) (off master reason : Nat) : State :=
  let e := s.fget fHOST_PWE_STAT_NEXT
  let n := s.fget fHOST_PWE_STAT_COUNT
  let s1 := s.when (s.fbit (fHOST_PWE_INFO_VALID e)) (fun t => t.fset fHOST_STAT_PWE_WRAP 1)
  let seq := bitsOf (s.reg (rHOST_PWE_INFO ((e + 15) % 16))).toNat 23 16
  let sq := if n = 0 then 0 else (seq + 1) % 256
  let s2 := (s1.setReg (rHOST_PWE_ADDR e) (BitVec.ofNat 32 (off % 2 ^ 26))).setReg (rHOST_PWE_INFO e)
    (BitVec.ofNat 32 (2 ^ 31 + reason * 2 ^ 24 + sq * 2 ^ 16 + master))
  let s3 := (s2.setReg (rHOST_PWE_LT_LO e) (BitVec.ofNat 32 (s.lt.toNat % 2 ^ 32))).setReg (rHOST_PWE_LT_HI e)
    (BitVec.ofNat 32 (s.lt.toNat / 2 ^ 32))
  let s4 := ((s3.fsat fHOST_PWE_STAT_COUNT).fset fHOST_PWE_STAT_NEXT (e + 1)).fset fHOST_STAT_PWE 1
  let s5 := s4.when (s.fbit fHOST_CTRL_AER_EN && (decide (master = mPf) || (decide (0x100 ≤ master) && decide (master < 0x200))))
    (fun t => t.emit { medium := .aer, dst := master, kind := 0, data := [off] })
  s5.assertEv 681

/-- Bit `i` of an array of 32-bit register words that starts at offset `base`. -/
def State.arrBit (s : State) (base i : Nat) : Bool := bitOf (s.reg (base + i / 32 * 4)).toNat (i % 32)

/-- Sets bit `i` of an array of 32-bit register words. -/
def State.setArrBit (s : State) (base i : Nat) (b : Bool) : State :=
  s.fset ⟨base + i / 32 * 4, i % 32, i % 32⟩ (b2n b)

/-- The row's scheduler data. -/
def State.row (s : State) (r : Nat) : RowSt := SMap.get row0 s.rows r

/-- Sets the row's scheduler data; there are rows 0 … 511 (spec/00_scope.md). -/
def State.setRow (s : State) (r : Nat) (v : RowSt) : State := if r < 512 then { s with rows := SMap.put row0 r v s.rows } else s

/-- The partition's scheduler data. -/
def State.part (s : State) (n : Nat) : PartSt := SMap.get part0 s.parts n

/-- Sets the partition's scheduler data. -/
def State.setPart (s : State) (n : Nat) (v : PartSt) : State := { s with parts := SMap.put part0 n v s.parts }

/-- Frame `i` of press pair `k`. -/
def State.frame (s : State) (k i : Nat) : Frame := SMap.get frame0 s.frames (2 * k + i)

/-- Sets frame `i` of press pair `k`. -/
def State.setFrame (s : State) (k i : Nat) (v : Frame) : State :=
  { s with frames := SMap.put frame0 (2 * k + i) v s.frames }

/-- The context's index among all pairs: press pairs 0 … 33, scalar pairs 64 … 79. -/
def cxIdx : Cx → Nat
  | .press k => k.val
  | .scalar j => 64 + j.val

/-- The register page of a context's pair. -/
def cxPage : Cx → Nat
  | .press k => pressPage k.val
  | .scalar j => scalarPage j.val

/-- The context of a pair. -/
def State.cx (s : State) (c : Cx) : Ctx := SMap.get ctx0 s.ctxs (cxIdx c)

/-- Sets the context of a pair. -/
def State.setCx (s : State) (c : Cx) (v : Ctx) : State := { s with ctxs := SMap.put ctx0 (cxIdx c) v s.ctxs }

/-- Every pair's context name. -/
def allCx : List Cx :=
  (List.ofFn (fun k : Fin 34 => Cx.press k)) ++ (List.ofFn (fun j : Fin 16 => Cx.scalar j))

/-- BC in force, µs (R45). -/
def State.bc (s : State) : Nat := s.fget fSCHED_BC_BC_ACTIVE

/-- Owner of a row, if any (R81). -/
def State.owner (s : State) (r : Nat) : Option Nat :=
  if s.fbit (fPART_ROW_OWNER_VALID r) then some (s.fget (fPART_ROW_OWNER_PARTITION r)) else none

/-- The rows a partition owns, ascending. -/
def State.rowsOfPart (s : State) (n : Nat) : List Nat :=
  (List.range 512).filter (fun r => s.arrBit (rPART_ROWMAP n 0) r)

/-- Modes: 0 RUN, 1 STOP, 2 HOLD (R84). -/
def State.partMode (s : State) (n : Nat) : Nat := s.fget (fPART_STAT_CUR n)

/-- The fabric's error registers after a response other than OK and VOID (R117), with the event FAB_ERR. -/
def State.fabErr (s : State) (addr resp master epoch : Nat) (write : Bool) : State :=
  let s1 := (s.setReg rFAB_ERR_ADDR (BitVec.ofNat 32 (addr % 2 ^ 26))).setReg rFAB_ERR_INFO
    (BitVec.ofNat 32 (resp * 2 ^ 29 + b2n write * 2 ^ 28 + epoch * 2 ^ 24 + master))
  let s2 :=
    if resp = 3 then (s1.fset fFAB_STAT_DENIED 1).fsat fFAB_CNT_DENIED_COUNT
    else if resp = 4 then (s1.fset fFAB_STAT_DECERR 1).fsat fFAB_CNT_DECERR_COUNT
    else if resp = 5 then (s1.fset fFAB_STAT_PARITY 1).fsat fFAB_CNT_PARITY_COUNT
    else if resp = 2 then s1.fsat fFAB_CNT_ISLRST_COUNT
    else s1
  s2.assertEv 684

/-- Error state of the 64-bit word of a program or table store address: 1 a single error, 2 uncorrectable. -/
def State.eccAt (s : State) (addr : Nat) : Nat := SMap.get (fun _ => 0) s.ecc (addr / 8)

/-- The words that `n` bytes from `addr` lie in. -/
def wordsOf (addr n : Nat) : List Nat := (List.range ((addr + n - 1) / 8 + 1 - addr / 8)).map (fun i => addr / 8 + i)

/-- Windows of PF BAR0 (spec/01_architecture.md R42). -/
def isTable (a : Nat) : Bool := decide (0x1000000 ≤ a) && decide (a < 0x1800000)
def isProgram (a : Nat) : Bool := decide (0x1800000 ≤ a) && decide (a < 0x1E00000)
def isImage (a : Nat) : Bool := decide (0x2000000 ≤ a) && decide (a < 0x3A00000)

/-- Error state of word `w` of the program and table stores. -/
def State.eccW (s : State) (w : Nat) : Nat := SMap.get (fun _ => 0) s.ecc w

/-- Gives word `w` fresh check bits. -/
def State.eccClear (s : State) (w : Nat) : State := { s with ecc := SMap.put (fun _ => 0) w 0 s.ecc }

/-- A read meets an uncorrectable error in word `w` (R39, R641): SOURCE PROGRAM or TABLE, DETAIL the word's address in its store. -/
def State.critWord (s : State) (w : Nat) : State :=
  if isProgram (8 * w) then s.integCrit 1 (w - 0x1800000 / 8) else s.integCrit 2 (w - 0x1000000 / 8)

/-- Reads words with their check bits (R39, R40, R641): a single error is corrected, rewritten and counted; every word with an
uncorrectable error is a critical-state error of its own, and keeps it. Tells whether the words can be used. -/
def State.rdEcc (s : State) (ws : List Nat) : Bool × State :=
  ws.foldl (fun (q : Bool × State) (w : Nat) =>
    if q.2.eccW w = 0 then q
    else if q.2.eccW w = 1 then (q.1, (q.2.eccClear w).integCorr)
    else (false, q.2.critWord w)) (true, s)

/-- Check bits of the 64-bit words that a write of `n` bytes covers, whole or in part (R641). -/
def State.wrEcc (s : State) (a n : Nat) : State :=
  (wordsOf a n).foldl (fun t w =>
    if t.eccW w = 0 then t
    else if (decide (a ≤ 8 * w) && decide (8 * w + 8 ≤ a + n)) = true then t.eccClear w
    else if t.eccW w = 1 then (t.eccClear w).integCorr
    else (t.critWord w).eccClear w) s

/-- A unit's read of `n` bytes of the table store (R39, R40); a word with an uncorrectable error is not used. -/
def State.tblRd (s : State) (addr n : Nat) : Option (List Byte) × State :=
  let q := s.rdEcc (wordsOf addr n)
  (if q.1 then some (s.rdList addr n) else none, q.2)

/-- A unit's read of `n` bytes of the table or program store whose own use of a word that cannot be corrected is stated by no table's rule:
its errors are corrected or recorded, and it goes on with the word as it stands (DESIGN CHOICE, log 78). -/
def State.tblSee (s : State) (addr n : Nat) : State := if s.ecc.isEmpty then s else (s.rdEcc (wordsOf addr n)).2

/-- Whether `n` bytes hold a word that cannot be corrected. -/
def State.tblBad (s : State) (addr n : Nat) : Bool := !s.ecc.isEmpty && (wordsOf addr n).any (fun w => decide (s.eccW w = 2))

/-- A critical-state error of an item that SYS_INTEG_LAST has no code for: frames of the field ports and of the isolation crossing (R39). Its
SOURCE is one of the codes, which one is free, and its DETAIL is free (log 78). -/
def State.integFree (s : State) : State :=
  s.freeW.2.integCrit (1 + s.freeW.1.toNat % 8) (s.freeW.1.toNat / 8 % 2 ^ 24)

/-- A unit's write to the table store, with the check bits of its words (R641). -/
def State.tblWr (s : State) (a : Nat) (l : List Byte) : State := (s.wrEcc a l.length).wrBytes a l

/-- Whether a function exists: the PF, or a VF up to NumVFs under VF Enable (spec/15_host_mailboxes.md R451). -/
def State.fnExists (s : State) (f : Nat) : Bool := decide (f = 0) || decide (f ≤ s.vfs)

/-- MSI-X message of vector `v` of function `f` (0 the PF): none while the function's MSI-X is disabled; held as pending while
masked, once (spec/06_time_events.md R212; log 18). -/
def State.msixSend (s : State) (f v : Nat) : State :=
  let k := f * 1024 + v
  let e := SMap.get msix0 s.msix k
  if !s.msixEn.contains f then s
  else if s.msixFmask.contains f || e.masked then { s with msix := SMap.put msix0 k { e with pending := true } s.msix }
  else s.emit { medium := .msix, dst := f, kind := v, data := [e.addr, e.data] }

/-- FRAC of the real-time clock at this instant: the crystal's cycles since the second began, which no command counts, so a free count
(spec/16_engineering_time.md R503; log 64). -/
def State.rtcCount (s : State) : State :=
  let f := s.freeC
  f.2.fset fTIME_RTC_FRAC_FRAC (f.1 % 2 ^ 15)

end Sys2Proof.Machine
end

