-- ==== Sys2Proof/Machine/Mailbox.lean ====
section
/-! DEFINITION. The mailbox channels (spec/15_host_mailboxes.md R470 … R475): their state and signals, shared by host, engineering and program commands. -/

namespace Sys2Proof.Machine

/-- Mailbox signals (R473). -/
abbrev sgPosted : Nat := 1
abbrev sgTaken : Nat := 2
abbrev sgEmptied : Nat := 3

/-- A signal of channel `ch`: LAST records it, and source `ch` is raised where its enable is 1 (R473). -/
def State.mbxSignal (s : State) (ch sig : Nat) : State :=
  let en := if sig = sgPosted then s.fbit (fMBX_BIND_POSTED_EV ch)
    else if sig = sgTaken then s.fbit (fMBX_BIND_TAKEN_EV ch) else s.fbit (fMBX_BIND_EMPTY_EV ch)
  (s.fset (fMBX_CH_STAT_LAST ch) sig).when en (fun t => t.assertEv ch)

/-- Whether a channel is bound (R470): an endpoint that is a VF which does not exist disables it (R451). -/
def State.mbxLive (s : State) (ch : Nat) : Bool :=
  let there (m : Nat) : Bool := !(decide (0x100 ≤ m) && decide (m < 0x200)) || s.fnExists (m - 0xFF)
  s.fbit (fMBX_BIND_EN ch) && there (s.fget (fMBX_BIND_SENDER ch)) && there (s.fget (fMBX_BIND_RECEIVER ch))

/-- Whether master `m` is a channel's sender, and its receiver. -/
def State.mbxSends (s : State) (ch m : Nat) : Bool := s.mbxLive ch && decide (s.fget (fMBX_BIND_SENDER ch) = m)
def State.mbxReceives (s : State) (ch m : Nat) : Bool := s.mbxLive ch && decide (s.fget (fMBX_BIND_RECEIVER ch) = m)

/-- Words of the channel's messages. -/
def State.mbxWords (s : State) (ch : Nat) : Nat := if s.fbit (fMBX_BIND_SIZE ch) then 16 else 8

/-- GO on an EMPTY channel (R471). -/
def State.mbxPost (s : State) (ch : Nat) : State :=
  let s1 := ((s.fset (fMBX_CH_STAT_GO ch) 1).fset (fMBX_CH_STAT_DONE ch) 0).fwrap (fMBX_CH_STAT_POSTS ch)
  ((s1.fset (fMBX_ACK_CODE ch) 0).fset (fMBX_ACK_USER ch) 0).mbxSignal ch sgPosted

/-- DONE with user code `u` on a POSTED channel (R471). -/
def State.mbxComplete (s : State) (ch u : Nat) : State :=
  let s1 := (s.fset (fMBX_CH_STAT_GO ch) 0).fset (fMBX_CH_STAT_DONE ch) 1
  ((s1.fset (fMBX_ACK_CODE ch) 2).fset (fMBX_ACK_USER ch) u).mbxSignal ch sgEmptied

/-- TAKE on a POSTED channel (R471). -/
def State.mbxTake (s : State) (ch : Nat) : State := (s.fset (fMBX_ACK_CODE ch) 1).mbxSignal ch sgTaken

/-- WITHDRAW on a POSTED channel (R471). -/
def State.mbxWithdraw (s : State) (ch : Nat) : State :=
  ((s.fset (fMBX_CH_STAT_GO ch) 0).fset (fMBX_ACK_CODE ch) 3).mbxSignal ch sgEmptied

/-- Marks every posted channel received by one of the masters `ms` with an acknowledge code and signals TAKEN (R475). -/
def State.mbxMark (s : State) (ms : List Nat) (code : Nat) : State :=
  (List.range 128).foldl (fun t ch =>
    if t.fbit (fMBX_BIND_EN ch) && t.fbit (fMBX_CH_STAT_GO ch) && ms.contains (t.fget (fMBX_BIND_RECEIVER ch)) then
      (t.fset (fMBX_ACK_CODE ch) code).mbxSignal ch sgTaken
    else t) s

end Sys2Proof.Machine
end

