-- ==== Sys2Proof/Machine/RackOps.lean ====
section
/-! DEFINITION. Sending racking frames (spec/14_racking_standby.md R424 … R426). -/

namespace Sys2Proof.Machine

/-- RKIND values (R425). -/
abbrev rkHello : Nat := 1
abbrev rkBeat : Nat := 2
abbrev rkConfig : Nat := 3
abbrev rkCode : Nat := 4
abbrev rkStepev : Nat := 5
abbrev rkCoef : Nat := 6
abbrev rkSwap : Nat := 7
abbrev rkSweep : Nat := 8
abbrev rkRelay : Nat := 9

/-- RACK_STAT.ROLE values (R415). -/
abbrev roleUndecided : Nat := 0
abbrev roleActive : Nat := 1

/-- RACK_STAT.SYNC values (R436). -/
abbrev syNoPeer : Nat := 0
abbrev syHello : Nat := 1
abbrev syFilling : Nat := 2
abbrev syInSync : Nat := 3
abbrev syLost : Nat := 4

/-- Link states (spec/10_trellis_link.md R326). -/
abbrev lkDisabled : Nat := 0
abbrev lkTraining : Nat := 1
abbrev lkUp : Nat := 2
abbrev lkRetrain : Nat := 3
abbrev lkReset : Nat := 4

/-- RST_START.PHASE values (spec/20_reset_watchdog_cask.md R589). -/
abbrev phStarting : Nat := 0
abbrev phOperating : Nat := 1
abbrev phRecovery : Nat := 2
abbrev phTest : Nat := 3
abbrev phFlush : Nat := 4
abbrev phHeld : Nat := 5

/-- Whether the main die runs: not past the stop phase of a flush, where its ports fall silent and conversion and step passes stop, and not in HELD,
where it is in reset or frozen in the state it held (spec/20_reset_watchdog_cask.md R589, R595, R596, R612). -/
def State.mainRuns (s : State) : Bool := !s.flush.quiet && decide (s.fget fRST_START_PHASE ≠ phHeld)

/-- Whether the module is active: from the opening of its gate (R417). -/
def State.active (s : State) : Bool := decide (s.fget fRACK_STAT_ROLE = roleActive)

/-- Whether the module is a standby. -/
def State.standby (s : State) : Bool := decide (s.fget fRACK_STAT_ROLE = roleStandby)

/-- Racking lanes that are up (R423). -/
def State.rackLanes (s : State) : List Nat := (List.range 4).filter (fun l => bitOf (s.fget fRACK_STAT_LANES) l)

/-- The racking lanes train at a start with the medium then set (R419, R423). -/
def State.trainLanes (s : State) : State :=
  let lane := (lkTraining, s.fget fRACK_CTRL_MEDIA)
  { s with rack := { s.rack with lanes := [(0, lane), (1, lane), (2, lane), (3, lane)] } }

/-- Whether the role is decided (R419): standby, or to become active through the interlock of R417. -/
def State.becomesActive (s : State) : Bool := s.active || decide (s.rack.settle = some 0)

/-- The racking header (R424). -/
def State.rackHdr (s : State) (kind seq len lane : Nat) : List Nat :=
  let h := leBytes 1 1 ++ leBytes 1 kind ++ leBytes 2 (s.fget fTRL_GEN_GEN) ++ leBytes 4 (s.cycle.toNat % 2 ^ 32)
    ++ leBytes 8 s.lt.toNat ++ leBytes 4 seq ++ leBytes 2 len ++ leBytes 1 lane ++ leBytes 1 (s.fget fRACK_STAT_ROLE) ++ leBytes 4 0
  nats (h ++ leBytes 4 (crc32 h))

/-- The MAC header of a racking frame on lane `l` (R423). -/
def State.rackMac (s : State) (l : Nat) : List Nat := nats (macHdr ([3, 0, 0, 0, 0, 3].map (BitVec.ofNat 8)) (s.macAddr (0x20 + l)) 0x88B6)

/-- A list in pieces of at most 9,184, a racking frame's largest payload (R423); at least one. -/
def rackPieces : Nat → List Nat → List (List Nat)
  | 0, l => [l]
  | fuel + 1, l => if l.length ≤ 9184 then [l] else l.take 9184 :: rackPieces fuel (l.drop 9184)

/-- The payloads that carry `data`: where it is longer than one frame may be it goes in several, one after another (DESIGN CHOICE, log 82). -/
def rackSplit (data : List Nat) : List (List Nat) := rackPieces (data.length / 9184) data

/-- Sends a frame on lane `l` (R424): SEQ is OSEQ for ordered kinds, else the lane's frame count. Past a flush's stop phase nothing is
sent, nor by a main die that is held (spec/20_reset_watchdog_cask.md R596, R612). -/
def State.rackOn (s : State) (l kind : Nat) (oseq : Option Nat) (data : List Nat) : State :=
  let c := SMap.get (fun _ => 0) s.rackSent l
  if !s.mainRuns then s
  else ({ s with rackSent := SMap.put (fun _ => 0) l ((c + 1) % 2 ^ 32) s.rackSent }).emit
    { medium := .rack, dst := l, kind := kind, data := s.rackMac l ++ s.rackHdr kind (oseq.getD c) data.length l ++ data }

/-- Sends a payload on the lowest lane that is up, if any: an ordered one in its own frame, any other in as many as it takes. -/
def State.rackOut (s : State) (kind : Nat) (oseq : Option Nat) (data : List Nat) : State :=
  match s.rackLanes with
  | [] => s
  | l :: _ => (match oseq with | some _ => [data] | none => rackSplit data).foldl (fun t d => t.rackOn l kind oseq d) s

/-- A partition's RACK_PART in force, which is what it was at the start of the sweep under way (R435). -/
def State.rackPart (s : State) (n : Nat) : Nat := SMap.get (fun _ => 0x34) s.rack.parts n

/-- Whether the active racks to a peer (R436). -/
def State.racks (s : State) : Bool :=
  s.active && (decide (s.fget fRACK_STAT_SYNC = syFilling) || decide (s.fget fRACK_STAT_SYNC = syInSync))

/-- Whether a standby in sync takes grafts (R397, R436). -/
def State.peerInSync (s : State) : Bool := s.active && decide (s.fget fRACK_STAT_SYNC = syInSync)

/-- Bytes that the racking buffer holds: unacknowledged frames, header and payload (R424, R426). -/
def State.rackHeld (s : State) : Nat := s.rackUnacked.foldl (fun a m => a + 32 + m.data.length) 0

/-- The peer is lost (R436): PEER_LOST is raised. -/
def State.rackLost (s : State) : State := ((s.fset fRACK_STAT_SYNC syLost).fset fRACK_ERR_PEER_LOST 1).assertEv 694

/-- Sends one ordered frame (R426): the next OSEQ, kept until it is acknowledged; one beyond the 256 KB buffer loses the peer (R436). -/
def State.rackOne (s : State) (kind : Nat) (data : List Nat) : State :=
  if s.racks then
    let q := (s.rackSeq + 1) % 2 ^ 32
    let s1 : State := { s with
      rackSeq := q, rackUnacked := s.rackUnacked ++ [({ kind := kind, seq := q, data := data } : RackMsg)]
      rackProgress := if s.rackUnacked.isEmpty then s.cycle.toNat else s.rackProgress }
    if 262144 < s1.rackHeld then s.rackLost else s1.rackOut kind (some q) data
  else s

/-- Sends ordered data (R426), in as many frames as it takes (R423). -/
def State.rackOrdered (s : State) (kind : Nat) (data : List Nat) : State := (rackSplit data).foldl (fun t d => t.rackOne kind d) s

/-- A record of split-line operation, carried by RELAY as the relayed frames are (spec/10_trellis_link.md R338 … R341). Its layout the spec does not
give: the first byte tells it from a frame, whose first byte is the Trellis VERSION 1 (DESIGN CHOICE, log 82). -/
def State.rackNote (s : State) (what p : Nat) (rest : List Byte) : State :=
  s.rackOut rkRelay none (nats (leBytes 1 what ++ leBytes 1 p ++ rest))

/-- What a record of split-line operation tells: a break (standby to active), its confirmation (active to standby), medians of a
position or of the line end (either way). -/
abbrev rnBreak : Nat := 2
abbrev rnConfirm : Nat := 3
abbrev rnMedian : Nat := 4

/-- A racked write (R430): master, address, bytes and cycle. -/
def State.rackCfg (s : State) (m addr : Nat) (bytes : List Byte) : State :=
  s.rackOrdered rkConfig (nats (leBytes 2 m ++ leBytes 4 addr ++ leBytes 8 s.cycle.toNat ++ bytes))

end Sys2Proof.Machine
end

