-- ==== Sys2Proof/Machine/ResetOp.lean ====
section
/-! DEFINITION. Module reset, the start of a flush, and the stop of a partition on a fault: the operations that a fault in any unit can end in. -/

namespace Sys2Proof.Machine

/-- Press-pair and scalar-pair states (spec/04_judin_model.md, PRESS_STAT). -/
abbrev stIdle : Nat := 0
abbrev stExec : Nat := 1
abbrev stWait : Nat := 2
abbrev stWb : Nat := 3
abbrev stSpare : Nat := 4
abbrev stFenced : Nat := 5
abbrev stTest : Nat := 6

/-- Registers whose whole content a module reset keeps: those the RST tables mark Kept, the RTC, the mailbox RAM, the panel driver's (R584). -/
def keptReg (off : Nat) : Bool :=
  decide (off = rRST_CAUSE) || decide (off = rRST_LAST) || decide (off = rRST_FLUSH)
    || (decide (rRST_WDT_CAP ≤ off) && decide (off ≤ rRST_WDT_CAP_LT_HI))
    || (decide (rTIME_RTC_SEC_LO ≤ off) && decide (off ≤ rTIME_RTC_STAT))
    || decide (off = rCASK_WEAR_STAT) || decide (off = rMGT_CB_HEAD)
    || (decide (rMBX_MSG 0 0 ≤ off) && decide (off < 0x2F0000)) || (decide (rPANEL_CTRL ≤ off) && decide (off < 0x360000))

/-- Causes that count as a failed start (R585). -/
def countsFailed (cause : Nat) : Bool :=
  decide (cause = 4) || decide (cause = 5) || decide (cause = 6) || decide (cause = 7) || decide (cause = 9)
    || decide (cause = 10) || decide (cause = 12)

/-- Causes before which the flush runs when FLUSH_ON_RESET = 1 (R585). -/
def flushCause (cause : Nat) : Bool := decide (cause = 4) || decide (cause = 5) || decide (cause = 11)

/-- The reset itself: everything but what R584 lists returns to its reset value; the cause bit is set and RST_LAST takes
cause and detail (R586); FAIL_COUNT counts a failed start (R593). -/
def State.resetNow (s : State) (cause detail : Nat) : State :=
  let fails := s.fget fRST_START_FAIL_COUNT
  let failed := countsFailed cause && (s.startOk || decide (cause = 12))
  let s0 : State :=
    { s.keepAcrossReset with regs := s.regs.filter (fun e => keptReg e.1) }
  let s1 := (s0.fset fRST_START_FAIL_COUNT (if failed then min (fails + 1) 15 else fails)).fset fRST_CLOCK_LOST
    (s.fget fRST_CLOCK_LOST)
  let s2 := [fCASK_STAT_SATURATED, fMGT_CB_STAT_FF_FULL, fMGT_CB_STAT_FF_COUNT, fRACK_STAT_SLOT_ID, fRACK_STAT_PEER_IN,
    fTIME_RTC_STAT_ON_VBAT].foldl (fun t f => t.fset f (s.fget f)) s1
  let s3 := s2.setReg rRST_CAUSE (BitVec.ofNat 32 ((s2.reg rRST_CAUSE).toNat ||| 2 ^ cause))
  (s3.fset fRST_LAST_CAUSE cause).fset fRST_LAST_DETAIL detail

/-- Discards every execution in progress and every loaded frame, with nothing written back (R612). -/
def State.dropExecutions (s : State) : State :=
  let s1 := { s with ctxs := (s.ctxs.map (fun e => (e.1, e.2.rest))).filter (fun e => decide (e.2 ≠ {})), frames := [], inflight := s.inflight.map (fun q => if q.frm.isSome then { q with void := true } else q) }
  allCx.foldl (fun t c =>
    let f := fPAIR_STAT_STATE (cxPage c)
    let v := t.fget f
    t.when (decide (v = stExec) || decide (v = stWait) || decide (v = stWb)) (fun u => u.fset f stIdle)) s1

/-- A flush begins (R612): PWR_FAIL is raised, the PWR_FAIL record written, PHASE := FLUSH, executions discarded. `why` is
the reset cause and detail it runs for, if any. -/
def State.startFlush (s : State) (why : Option (Nat × Nat)) : State :=
  let s1 := (s.assertEv 708).cellar 0x002A 0 0 0
  let s2 := (s1.fset fRST_START_PHASE phFlush).dropExecutions
  { s2 with flushFor := why, flush := { since := s.lt.toNat, main := decide (s.fget fRST_START_PHASE = phOperating) } }

/-- A reset cause of R585 arises. During a flush it is recorded in RST_CAUSE and acted on by nothing (R612); in HELD the main
die is held or frozen and nothing acts on it (R595, R596); else the module resets, after a flush for the causes that R585
names. -/
def State.moduleReset (s : State) (cause detail : Nat) : State :=
  let ph := s.fget fRST_START_PHASE
  if ph = phFlush then
    s.setReg rRST_CAUSE (BitVec.ofNat 32 ((s.reg rRST_CAUSE).toNat ||| 2 ^ cause))
  else if ph = phHeld then s
  else if (ph = phOperating && flushCause cause && s.opt.flushOnReset) = true then s.startFlush (some (cause, detail))
  else s.resetNow cause detail

/-- A critical-state error whose row of spec/01_architecture.md gives module reset, with cause CRIT_STATE (R39, R585). -/
def State.critReset (s : State) (source detail : Nat) : State :=
  (s.integCrit source detail).moduleReset 6 (source * 2 ^ 16 + detail % 2 ^ 16)

/-- SCHED_ROW_STAT claim states. -/
abbrev clNone : Nat := 0
abbrev clReady : Nat := 1
abbrev clLoading : Nat := 2
abbrev clLoaded : Nat := 3
abbrev clExec : Nat := 4
abbrev clWb : Nat := 5

/-- Outcome already decided for a row's cycle `m`, if any. -/
def RowSt.dec (v : RowSt) (m : Nat) : Option Nat := (v.decs.find? (fun e => decide (e.1 = m))).map (fun e => e.2)

/-- Decides the outcome of a row's cycle `m`, replacing one already decided (R67: each row and cycle has exactly one). -/
def RowSt.decide (v : RowSt) (m o : Nat) : RowSt :=
  { v with decs := (v.decs.filter (fun e => Decidable.decide (e.1 ≠ m))) ++ [(m, o)] }

/-- Sets what the slot of a row's cycle `m` carries: bytes, or nothing. -/
def RowSt.pour (v : RowSt) (m : Nat) (p : Option (List Byte)) : RowSt :=
  { v with pours := (v.pours.filter (fun e => Decidable.decide (e.1 ≠ m))) ++ [(m, p)] }

/-- Empties frame `i` of press pair `k`. -/
def State.clearFrame (s : State) (k i : Nat) : State :=
  let s1 := s.setFrame k i {}
  if i = 0 then ((s1.fset (fPAIR_FRAME_V0 (pressPage k)) 0).fset (fPAIR_FRAME_ACT0 (pressPage k)) 0)
  else ((s1.fset (fPAIR_FRAME_V1 (pressPage k)) 0).fset (fPAIR_FRAME_ACT1 (pressPage k)) 0)

/-- The row without the work in hand, and without what was kept for it. -/
def RowSt.drop (v : RowSt) : RowSt :=
  { v with job := none, jobLate := false, olds := v.olds.filter (fun e => Decidable.decide (v.job ≠ some e.1)) }

/-- The sections kept for the row's work of cycle `m`, if any. -/
def RowSt.old (v : RowSt) (m : Nat) : Option Mem := (v.olds.find? (fun e => Decidable.decide (e.1 = m))).map (fun e => e.2)

/-- Whether the outcome of cycle `m` has been counted. -/
def RowSt.counted (v : RowSt) (m : Nat) : Bool := match v.poured with | some q => Decidable.decide (m ≤ q) | none => false

/-- Whether the row holds work of cycle `m`. -/
def RowSt.workAt (v : RowSt) (m : Nat) : Bool := Decidable.decide (v.job = some m) || v.next.any (fun e => Decidable.decide (e.1 = m))

/-- Whether the frame loader migrates the row in place for a scalar context: it has taken the row's claim, which shows as LOADING
(spec/13_graft.md R404). -/
def State.migrating (s : State) (r : Nat) : Bool := s.ctxs.any (fun e => decide (e.2.stall = some (.migrate r true)))

/-- The row's claim becomes NONE or READY; it shows LOADING while the row is migrated in place. -/
def State.restClaim (s : State) (r cl : Nat) : State := s.fset (fSCHED_ROW_STAT_CLAIM r) (if s.migrating r then clLoading else cl)

/-- A row's work in hand is over: its claim ends, and the oldest of the work behind it becomes ready (R69). -/
def State.nextWork (s : State) (r : Nat) : State :=
  let v := (s.row r).drop
  match v.next with
  | [] => ((s.setRow r v).restClaim r clNone).fset (fSCHED_ROW_STAT_LATE r) 0
  | (m, late) :: l => ((s.setRow r { v with job := some m, jobLate := late, next := l }).restClaim r clReady).fset
      (fSCHED_ROW_STAT_LATE r) (b2n late)

/-- The load in flight of a frame whose claim is released will complete VOID (spec/03_partitions_fabric.md R117). -/
def voidLoads (l : List FabReq) (ki : Nat × Nat) : List FabReq := l.map (fun q => if q.frm = some ki then { q with void := true } else q)

/-- Releases the claim of a loaded or loading row with a VOID completion (R58, R65): its frame is emptied and nothing is
written back. The row's work in hand stays. Of a load that ISLAND_RESET ends the spec says only that it is dropped
(spec/03_partitions_fabric.md R118): the model returns its row to READY and counts it here too (DESIGN CHOICE, log 40). -/
def State.voidFrame (s : State) (k i : Nat) : State :=
  match (s.frame k i).row with
  | none => s
  | some r => (({ s with inflight := voidLoads s.inflight (k, i) }.clearFrame k i).fset (fSCHED_ROW_STAT_CLAIM r) clReady).fsat fSCHED_CNT_VOID_COUNT

/-- The frames that hold row `r`, as (pair, frame). -/
def State.framesOf (s : State) (r : Nat) : List (Nat × Nat) :=
  (s.frames.filter (fun e => decide (e.2.row = some r))).map (fun e => (e.1 / 2, e.1 % 2))

/-- Whether a press pair executes the row. -/
def State.executing (s : State) (r : Nat) : Bool :=
  s.ctxs.any (fun e => decide (e.1 < 64) && (e.2.running && decide (e.2.row = r)))

/-- Releases every claim of a row that has not started executing, and drops its work in hand. -/
def State.releaseRow (s : State) (r : Nat) : State :=
  if s.executing r || decide (s.fget (fSCHED_ROW_STAT_CLAIM r) = clWb) then s
  else ((s.framesOf r).foldl (fun t ki => t.voidFrame ki.1 ki.2) s).nextWork r

/-- Sets a partition's current mode, with the PART_MODE record where it changes (spec/19_management.md R577). Entering STOP
marks the posted channels it receives RECEIVER_STOPPED (spec/15_host_mailboxes.md R475); entering RUN from STOP clears its
pending bits (spec/06_time_events.md R210). The standby is sent the mode it shows (spec/14_racking_standby.md R433). -/
def State.setCur (s : State) (n cur : Nat) : State :=
  if s.partMode n = cur then s
  else
    let s1 := if (decide (s.partMode n = 1) && decide (cur = 0)) = true then s.setPart n { s.part n with pend := [] } else s
    let s2 := s1.fset (fPART_STAT_CUR n) cur
    ((s2.rackCfg mMgt (rPART_STAT n) (leBytes 4 (s2.reg (rPART_STAT n)).toNat)).cellar 0x0003 n cur (s2.fget (fPART_STAT_CAUSE n))).when (decide (cur = 1)) (fun t => t.mbxMark [n] 5)

/-- The admitted demand and the overcommit flag after a change of D or C (R60, R62, event 678). -/
def State.overcommit (s : State) : State :=
  let past := decide (s.fget fSCHED_CAPACITY_CLOCKS < s.fget fSCHED_DEMAND_CLOCKS)
  let was := s.fbit fSCHED_STAT_OVERCOMMIT
  (s.fset fSCHED_STAT_OVERCOMMIT (b2n past)).when (past && !was) (fun t => t.assertEv 678)

/-- Peak demand of a partition (R60). -/
def State.peak (s : State) (n : Nat) : Nat :=
  let rows := (s.rowsOfPart n).length
  let per := s.fget (fPART_SCAN_PERIOD n)
  let rpk := if s.fbit (fPART_SCAN_SPREAD n) then (rows + per - 1) / per else rows
  rpk * s.fget (fPART_BUDGET_BUDGET n)

/-- Whether an admitted partition counts in D: class S or F, with rows (R60, R76). -/
def State.countsD (s : State) (n : Nat) : Bool :=
  (s.part n).admitted && decide (s.fget (fPART_CFG_CLASS n) ≤ 1) && decide ((s.rowsOfPart n).length ≠ 0)

/-- Recomputes D over the admitted partitions (R60). -/
def State.demand (s : State) : State :=
  let d := (s.parts.filter (fun e => s.countsD e.1)).foldl (fun a e => a + s.peak e.1) 0
  (s.fset fSCHED_DEMAND_CLOCKS d).overcommit

/-- The cycles whose slots a row may still be poured in: the running one and the one before, but for those already counted. -/
def State.openCycles (s : State) (v : RowSt) : List Nat :=
  let c := s.cycle.toNat
  ((if c = 0 then [c] else [c - 1, c])).filter (fun m => !v.counted m)

/-- Marks every row of a stopped partition whose slot has not yet been poured: its outcome is STOPPED and it is poured REST
(R89). Work that has not started is released; what executes on other pairs runs to its end, and nothing follows it. -/
def State.stopRows (s : State) (n : Nat) : State :=
  (s.rowsOfPart n).foldl (fun t r =>
    let v := t.row r
    let v1 := { (t.openCycles v).foldl (fun (u : RowSt) m => u.decide m 9) v with stopped := v.job, next := [], convWait := none }
    (t.setRow r v1).releaseRow r) s

/-- Captures a fault into the partition's shadow registers, unless they hold one (spec/03_partitions_fabric.md R98). -/
def State.faultCapture (s : State) (n : Nat) (scalar : Bool) (row lane f rsp cause pc addr : Nat) (par parBad : Bool) :
    State :=
  if s.fbit (fPART_FAULT_PC_VALID n) then s
  else
    let s1 := (s.fset (fPART_FAULT_PC_PC n) pc).fset (fPART_FAULT_PC_VALID n) 1
    let s2 := (((s1.fset (fPART_FAULT_FLAGS_SCALAR n) (b2n scalar)).fset (fPART_FAULT_FLAGS_ROW n) row).fset
      (fPART_FAULT_FLAGS_LANE n) lane).fset (fPART_FAULT_FLAGS_F n) f
    let s3 := ((s2.fset (fPART_FAULT_RSP_PAR n) (b2n par)).fset (fPART_FAULT_RSP_PAR_BAD n) (b2n parBad)).fset
      (fPART_FAULT_RSP_RSP n) rsp
    let s4 := ((s3.fset (fPART_FAULT_CAUSE_CAUSE n) cause).fset (fPART_FAULT_LT_LO_LT n) (s.lt.toNat % 2 ^ 32)).fset
      (fPART_FAULT_LT_HI_LT n) (s.lt.toNat / 2 ^ 32)
    s4.fset (fPART_FAULT_ADDR_ADDR n) addr

/-- A partition enters STOP at once on a fault (R89): cause 4 DOUBLE_FAULT, 5 CODE_ECC, 6 RSP_PARITY (R91). The execution on
context `c` ends at the faulting instruction and its frame is discarded; a waiting scalar context is withdrawn; REQ becomes
STOP except for partition 0 (R77); PART_STOPPED is raised and recorded with the faulting PC. -/
def State.partFaultStop (s : State) (c : Cx) (n cause pc : Nat) : State :=
  let x := s.cx c
  let s1 := match c with
    | .press k =>
      ((s.clearFrame k.val x.frame).setRow x.row
        { (s.row x.row).drop with next := [] }).fset (fSCHED_ROW_STAT_CLAIM x.row) clNone
    | .scalar _ => s
  let s2 := ((s1.setCx c x.rest).fset (fPAIR_STAT_STATE (cxPage c)) stIdle)
  let s3 := (s2.fset (fPART_STAT_CAUSE n) cause).setCur n 1
  let on := match c with
    | .scalar _ => none
    | .press _ => (s3.part n).scalarOn
  let v := s3.part n
  let s4 := s3.setPart n { v with admitted := false, pendReq := false, scalarWait := none, scalarOn := on }
  let s5 := (s4.fset (fPART_STAT_BUSY n) 0).when (decide (n ≠ 0)) (fun t => t.fset (fPART_CTRL_REQ n) 1)
  let s6 := (s5.stopRows n).demand
  (s6.assertEv 675).cellar 0x0013 n cause pc

end Sys2Proof.Machine
end

