-- ==== Sys2Proof/Machine/Trap.lean ====
section
/-! DEFINITION. The return stack and Judin exceptions (spec/04_judin_model.md R145 … R153). -/

namespace Sys2Proof.Machine

/-- Exception causes (R150). -/
abbrev cIllegal : Nat := 1
abbrev cAddr : Nat := 2
abbrev cPerm : Nat := 3
abbrev cStackBounds : Nat := 4
abbrev cRstack : Nat := 5
abbrev cBus : Nat := 6
abbrev cTimeout : Nat := 7
abbrev cBreak : Nat := 8
abbrev cCodeEcc : Nat := 9
abbrev cRspParity : Nat := 10

/-- The parity bit that fits RSP and RS_FULL (R145; even parity over the seven bits and the parity bit, log 13). -/
def rspParity (rsp : BitVec 6) (full : Bool) : Bool :=
  (((((rsp.getLsbD 0 != rsp.getLsbD 1) != rsp.getLsbD 2) != rsp.getLsbD 3) != rsp.getLsbD 4) != rsp.getLsbD 5) != full

/-- Whether the stored parity fits (R147). -/
def Ctx.rspGood (x : Ctx) : Bool := x.rsPar == rspParity x.rsp x.rsFull

/-- Sets RSP and RS_FULL with their parity. -/
def Ctx.setRsp (x : Ctx) (rsp : BitVec 6) (full : Bool) : Ctx :=
  { x with rsp := rsp, rsFull := full, rsPar := rspParity rsp full }

/-- What a return-stack entry not yet written reads as. -/
def ent0 : Nat → StackEnt := fun _ => {}

/-- Pushes an entry; none where RS_FULL is 1 (R145; the caller checks parity). -/
def Ctx.push (x : Ctx) (e : StackEnt) : Option Ctx :=
  if x.rsFull then none
  else
    let y := { x with stack := SMap.put ent0 x.rsp.toNat e x.stack }
    some (if x.rsp = 63 then y.setRsp 63 true else y.setRsp (x.rsp + 1) false)

/-- Pops an entry; none where the stack is empty (R145; the caller checks parity). -/
def Ctx.pop (x : Ctx) : Option (StackEnt × Ctx) :=
  if x.rsFull then some (SMap.get ent0 x.stack 63, x.setRsp x.rsp false)
  else if x.rsp = 0 then none
  else some (SMap.get ent0 x.stack (x.rsp - 1).toNat, x.setRsp (x.rsp - 1) false)

/-- The entry of the context as it stands, with the given PC. -/
def Ctx.entry (x : Ctx) (pc : BitVec 16) (exc : Bool) : StackEnt :=
  { pc := pc, fs := x.lanes.map (fun l => l.f), lm := x.lm, exc := exc }

/-- Whether an exception entry is on the return stack (PRESS_EXEC_PC.HANDLER). -/
def Ctx.inHandler (x : Ctx) : Bool :=
  x.stack.any (fun e => (decide (e.1 < x.rsp.toNat) || (x.rsFull && decide (e.1 = 63))) && e.2.exc)

/-- Whether lane `i` is enabled (R127). -/
def Ctx.enabled (x : Ctx) (i : Nat) : Bool := x.lm.getLsbD i

/-- Every lane that exists in the context and is enabled, as a set. -/
def Ctx.enabledSet (x : Ctx) : BitVec 256 := if x.scalar then x.lm &&& 1 else x.lm

/-- The set of lanes in a list. -/
def laneSet (l : List Nat) : BitVec 256 := l.foldl (fun a i => a ||| (BitVec.ofNat 256 1 <<< i)) 0

/-- The lowest lane of a set; 0 where it is empty. -/
def lowestLane (m : BitVec 256) : Nat := ((List.range 256).find? (fun i => m.getLsbD i)).getD 0

/-- An exception to be taken: cause, lanes, lane address and BAR0 address of the failing access. -/
structure Trap where
  cause : Nat
  lanes : BitVec 256
  addr : Nat
  bar : Nat
  deriving DecidableEq, Repr

/-- Counts an exception of a cause in the module-wide counters. -/
def State.countCause (s : State) (c : Cx) (cause : Nat) : State :=
  match c with
  | .press _ => s.fsat (fPRESS_CMN_EXC_COUNT cause)
  | .scalar _ => s.fsat (fSCALAR_CMN_EXC_COUNT cause)

/-- Adds clocks to a context and its pair's counters, `stall` of them stalled. -/
def State.clocks (s : State) (c : Cx) (n stall : Nat) : State :=
  let x := s.cx c
  let s1 := { s with busyAcc := if x.scalar then s.busyAcc else s.busyAcc + n }
  ((s1.setCx c { x with clkUsed := x.clkUsed + n }).fwrapN (fPAIR_CNT_CLK_CLOCKS (cxPage c)) n).fwrapN
    (fPAIR_CNT_STALL_CLOCKS (cxPage c)) stall

/-- The lane of the fault, its flags, and the shadow capture of a fault on context `c` (R98). -/
def State.captureFault (s : State) (c : Cx) (cause : Nat) (lanes : BitVec 256) (pc : Nat) (bar : Nat) : State :=
  let x := s.cx c
  let lane := lowestLane lanes
  let f := ((x.lanes.drop lane).headD {}).f.toNat
  let row := if x.scalar then x.bind / 256 else x.row
  s.faultCapture x.part x.scalar row lane f x.rsp.toNat cause pc bar x.rsPar (!x.rspGood)

/-- A double fault (R153): the shadows capture the cause that was being taken, and the partition stops with DOUBLE_FAULT. With
bad RSP parity it is also a critical-state error, and in partition 0 resets the module (R147). -/
def State.doubleFault (s : State) (c : Cx) (t : Trap) (excPc : Nat) : State :=
  let x := s.cx c
  let s1 := s.captureFault c t.cause t.lanes excPc t.bar
  if x.rspGood then s1.partFaultStop c x.part 4 excPc
  else
    let s2 := s1.integCrit 5 x.part
    if x.part = 0 then s2.moduleReset 6 (5 * 2 ^ 16) else s2.partFaultStop c x.part 4 excPc

/-- Exception entry (R152): the entry is pushed with PC `ret`, the EXC fields are written, and PC takes the fault entry of the
version the context runs. `excPc` is what EXC_PC shows. A failed push is a double fault (R153). -/
def State.takeExc (s : State) (c : Cx) (t : Trap) (excPc ret : BitVec 16) : State :=
  let x := s.cx c
  if x.rspGood then
    match x.push (x.entry ret true) with
    | none => s.doubleFault c t excPc.toNat
    | some y =>
      let z := { y with
        excCause := t.cause, excLane := lowestLane t.lanes, excPc := excPc, excAddr := t.addr, excBar := t.bar
        excLanes := t.lanes, pc := BitVec.ofNat 16 x.ver.entry, stall := none }
      let pg := cxPage c
      let s1 := ((s.setCx c z).fsat (fPAIR_CNT_EXC_COUNT pg)).countCause c t.cause
      let s2 := ((s1.fset (fPAIR_LAST_EXC_CAUSE pg) t.cause).fset (fPAIR_LAST_EXC_PARTITION pg) x.part).fset
        (fPAIR_LAST_EXC_PC pg) excPc.toNat
      (s2.fset (fPAIR_STAT_STATE pg) stExec).clocks c 6 0
  else s.doubleFault c t excPc.toNat

/-- An exception of the instruction at PC, which RTE retries (R151). -/
def State.excHere (s : State) (c : Cx) (t : Trap) : State := s.takeExc c t (s.cx c).pc (s.cx c).pc

/-- ILLEGAL for an encoding fault or a reserved combination: EXC_LANES shows every enabled lane (R162). -/
def State.illegal (s : State) (c : Cx) : State :=
  s.excHere c { cause := cIllegal, lanes := (s.cx c).enabledSet, addr := 0, bar := 0 }

/-- RSP parity bad at a push or pop that is not an exception's: the fault RSP_PARITY of R89, a critical-state error, and in
partition 0 a module reset (R90, R147). -/
def State.rspFault (s : State) (c : Cx) : State :=
  let x := s.cx c
  let s1 := (s.countCause c cRspParity).integCrit 5 x.part
  if x.part = 0 then s1.moduleReset 6 (5 * 2 ^ 16)
  else (s1.captureFault c cRspParity x.enabledSet x.pc.toNat 0).partFaultStop c x.part 6 x.pc.toNat

/-- Priority of causes at one instruction boundary, lower first (R152). -/
def causeRank (cause : Nat) : Nat :=
  if cause = cCodeEcc then 1
  else if cause = cRspParity then 2
  else if cause = cBus then 3
  else if cause = cTimeout then 4
  else if cause = cIllegal then 6
  else if cause = cRstack then 7
  else if cause = cPerm then 8
  else if cause = cAddr then 9
  else if cause = cStackBounds then 10
  else 11

/-- Of the traps that lanes raise, the highest cause, with the lanes that raise it and the addresses of the lowest of them. -/
def worstTrap (l : List (Nat × Nat × Nat × Nat)) : Option Trap :=
  match l with
  | [] => none
  | h :: t =>
    let best := t.foldl (fun b e => if causeRank e.2.1 < causeRank b.2.1 then e else b) h
    let same := l.filter (fun e => decide (e.2.1 = best.2.1))
    let low := same.foldl (fun b e => if e.1 < b.1 then e else b) best
    some { cause := best.2.1, lanes := laneSet (same.map (fun e => e.1)), addr := low.2.2.1, bar := low.2.2.2 }

/-- A context issues an instruction when it runs and is not stalled (R122). -/
def Ctx.issues (x : Ctx) : Bool := x.running && x.stall.isNone

/-- Whether a context issues its next instruction: the main die runs too (spec/20_reset_watchdog_cask.md R596). -/
def State.issues (s : State) (c : Cx) : Bool := s.mainRuns && (s.cx c).issues

end Sys2Proof.Machine
end

