-- ==== Sys2Proof/Machine/Tags.lean ====
section
/-! DEFINITION. Fabric tags and the compare buffer: initiators, reservations and the shared pool, issue, and the release of a pair's matched writes (spec/03_partitions_fabric.md R108, R109, spec/12_twin_presses.md R380). -/

namespace Sys2Proof.Machine

/-- Initiators by index: press pairs 0 … 33 and scalar pairs 64 … 79 as `cxIdx` numbers them, and those below (R109). -/
abbrev inLoader (k : Nat) : Nat := 128 + k
abbrev inHarvest (p : Nat) : Nat := 192 + p
abbrev inRack : Nat := 224
abbrev inLadle : Nat := 225
abbrev inPcie : Nat := 226
abbrev inMgmt : Nat := 227

/-- Tags reserved for an initiator (R109). -/
def tagsReserved (i : Nat) : Nat :=
  if i < 34 ∨ (64 ≤ i ∧ i < 80) then 1
  else if 128 ≤ i ∧ i < 162 then 4
  else if 192 ≤ i ∧ i < 224 then 4
  else if i = inRack ∨ i = inLadle ∨ i = inPcie then 32
  else if i = inMgmt then 16
  else 0

/-- Tags of the shared pool (R109). -/
abbrev tagPool : Nat := 86

/-- Tags that an initiator holds. -/
def State.tagsHeld (s : State) (i : Nat) : Nat := (s.inflight.filter (fun q => decide (q.initiator = i))).length

/-- Tags of the shared pool in use: what initiators hold above their reservations (R109). -/
def State.poolUsed (s : State) : Nat :=
  (((s.inflight.map (fun q => q.initiator)).eraseDups).map (fun i => s.tagsHeld i - tagsReserved i)).sum

/-- Whether an initiator finds a tag, reserved or of the pool; else it waits to issue (R109). -/
def State.mayIssue (s : State) (i : Nat) : Bool := decide (s.tagsHeld i < tagsReserved i) || decide (s.poolUsed < tagPool)

/-- The lowest tag number not in use (log 14). -/
def State.freeTag (s : State) : Nat :=
  ((List.range (s.inflight.length + 1)).find? (fun t => s.inflight.all (fun r => decide (r.tag ≠ t)))).getD 0

/-- FAB_TAGS.HWM after `n` tags have been in use at once. -/
def State.tagsHigh (s : State) (n : Nat) : State := s.fset fFAB_TAGS_HWM (max (min 512 n) (s.fget fFAB_TAGS_HWM))

/-- FAB_TAGS after a change of the requests in flight (R108). -/
def State.tagRegs (s : State) : State :=
  let used := min 512 s.inflight.length
  (s.fset fFAB_TAGS_IN_USE used).tagsHigh used

/-- Issues a fabric request under a tag of its own (R108). -/
def State.issueReq (s : State) (r : FabReq) : State := { s with inflight := s.inflight ++ [r] }.tagRegs

/-- A request completes, and its tag returns to the pool (R108, R119). -/
def State.endReq (s : State) (tag : Nat) : State := { s with inflight := s.inflight.filter (fun p => decide (p.tag ≠ tag)) }.tagRegs

/-- `n` requests of an initiator that the model issues and completes in one command pass through tags, as many at once as it finds
(R108, R109; log 77). -/
def State.passTags (s : State) (i n : Nat) : State :=
  if n = 0 then s
  else
    let room := (tagsReserved i - s.tagsHeld i) + (tagPool - s.poolUsed)
    s.tagsHigh (s.inflight.length + min n (max 1 room))

/-- Tag epoch of an initiator (R119). -/
def State.tagEpoch (s : State) (i : Nat) : Nat := SMap.get (fun _ => 0) s.tagEpochs i

/-- An initiator's island is reset: its tag epoch advances (R119). -/
def State.tagEpochNext (s : State) (i : Nat) : State :=
  { s with tagEpochs := SMap.put (fun _ => 0) i ((s.tagEpoch i + 1) % 8) s.tagEpochs }

/-- A pair by its index among all pairs. -/
def cxOf (i : Nat) : Option Cx :=
  if h : i < 34 then some (.press ⟨i, h⟩)
  else if h : 64 ≤ i ∧ i < 80 then some (.scalar ⟨i - 64, by omega⟩)
  else none

/-- Fabric requests a context has in flight, buffered writes and scalar commands on their way included
(spec/04_judin_model.md R139; spec/07_step_sequencer.md R646; spec/12_twin_presses.md R380). -/
def State.outstanding (s : State) (c : Cx) : Nat :=
  (s.inflight.filter (fun r => decide (r.cx = some (cxIdx c)))).length + (s.cx c).buf.length
    + (s.scalarCmds.filter (fun r => decide (r.cx = cxIdx c))).length

/-- The request of a buffered write, under the lowest free tag. -/
def State.bufReq (s : State) (c : Cx) (part : Nat) (w : BufWr) : FabReq :=
  { tag := s.freeTag, initiator := cxIdx c, master := part, ruleEpoch := w.ruleEpoch, tagEpoch := s.tagEpoch (cxIdx c), cycle := w.cycle
    write := true, addr := w.line * 128, bytes := w.bytes, cx := some (cxIdx c), lanes := w.lanes, waited := 0 }

/-- Whether a buffered write has matched: 3 clocks have passed since its issue, by its context's clocks or by line time
(spec/12_twin_presses.md R380). -/
def BufWr.due (w : BufWr) (clk lt : Nat) : Bool := decide (w.clk + 3 ≤ clk) || decide (w.lt + 3 ≤ lt)

/-- Writes of a context's compare buffer that have matched, or all of them, enter the fabric in their order, as far as they find tags
(spec/12_twin_presses.md R380; R109). -/
def State.releaseBuf (s : State) (c : Cx) (all : Bool) : State :=
  let x := s.cx c
  if x.buf.isEmpty then s
  else
    let q := x.buf.foldl (fun (a : State × List BufWr) w =>
      if a.2.isEmpty && ((all || w.due x.clkUsed s.lt.toNat) && a.1.mayIssue (cxIdx c)) then (a.1.issueReq (a.1.bufReq c x.part w), [])
      else (a.1, a.2 ++ [w])) (s, [])
    q.1.setCx c { x with buf := q.2, released := min (x.released + (x.buf.length - q.2.length)) 0xFFFF }

/-- The same for every pair; a stalled context's writes match while it waits. -/
def State.releaseAll (s : State) : State :=
  (s.ctxs.filter (fun e => !e.2.buf.isEmpty)).foldl (fun t e =>
    match cxOf e.1 with
    | some c => t.releaseBuf c (t.cx c).stall.isSome
    | none => t) s

/-- Instructions whose fabric writes are buffered. -/
def Ctx.bufInstrs (x : Ctx) : Nat := ((x.buf.map (fun w => w.clk)).eraseDups).length

end Sys2Proof.Machine
end

