-- ==== Sys2Proof/Machine/Operands.lean ====
section
/-! DEFINITION. Judin operands: effective addresses, the lane address map, the checks of an access, and loads and stores through the frame, the fabric and press control (spec/04_judin_model.md R126 … R144, spec/03_partitions_fabric.md R99 … R103). -/

namespace Sys2Proof.Machine

/-- An index register. -/
def Lane.r16 (l : Lane) (r : R16) : BitVec 16 := match r with | .x => l.x | .y => l.y

/-- Sets an index register. -/
def Lane.set16 (l : Lane) (r : R16) (v : BitVec 16) : Lane := match r with | .x => { l with x := v } | .y => { l with y := v }

/-- A byte accumulator. -/
def Lane.r8 (l : Lane) (r : R8) : BitVec 8 := match r with | .a => l.a | .b => l.b

/-- Sets a byte accumulator. -/
def Lane.set8 (l : Lane) (r : R8) (v : BitVec 8) : Lane := match r with | .a => { l with a := v } | .b => { l with b := v }

/-- The other index register. -/
def otherReg (r : R16) : R16 := match r with | .x => .y | .y => .x

/-- The scaled index byte. -/
def Lane.scaled (l : Lane) (ix : R8) (sc : BitVec 2) : BitVec 16 := (l.r8 ix).setWidth 16 <<< sc.toNat

/-- Effective address of a format M operand for an access of `n` bytes, and the lane with its base register updated (R142). -/
def mopEa (o : MOp) (l : Lane) (n : Nat) : BitVec 16 × Lane :=
  match o with
  | .abs w => (w, l)
  | .ind b => (l.r16 b, l)
  | .postInc b => (l.r16 b, l.set16 b (l.r16 b + BitVec.ofNat 16 n))
  | .preDec b => (l.r16 b - BitVec.ofNat 16 n, l.set16 b (l.r16 b - BitVec.ofNat 16 n))
  | .disp b d => (l.r16 b + d, l)
  | .index b ix sc => (l.r16 b + l.scaled ix sc, l)
  | .table d ix sc => (d + l.scaled ix sc, l)

/-- Words of an instruction with a format M operand (R160, R164). -/
def mopLen (o : MOp) : Nat :=
  match o with
  | .abs _ => 2
  | .disp _ _ => 2
  | .table _ _ _ => 2
  | _ => 1

/-- Whether the operand updates index register `r`. -/
def mopUpdates (o : MOp) (r : R16) : Bool :=
  match o with
  | .postInc b => decide (b = r)
  | .preDec b => decide (b = r)
  | _ => false

/-- Effective address of a format B operand. -/
def bopEa (o : BOp) (l : Lane) : BitVec 16 :=
  match o with
  | .abs w => w
  | .ind b => l.r16 b
  | .disp b d => l.r16 b + d
  | .indexA b => l.r16 b + l.a.setWidth 16

/-- Words of an instruction with a format B operand. -/
def bopLen (o : BOp) : Nat := match o with | .abs _ => 2 | .disp _ _ => 2 | _ => 1

/-- Effective address of a format R operand. -/
def ropEa (o : ROp) (l : Lane) : BitVec 16 :=
  match o with
  | .abs w => w
  | .ind b => l.r16 b
  | .disp b d => l.r16 b + d

/-- Words of an instruction with a format R operand. -/
def ropLen (o : ROp) : Nat := match o with | .abs _ => 2 | .disp _ _ => 2 | _ => 1

/-- Where a byte of the lane address space lies. -/
inductive Tgt where
  | scratch (k : Nat)
  | frame (k : Nat)
  | fabric (bar : Nat)
  | sysrec (i : Nat)
  | const (bar : Nat)
  | ctl (i : Nat)
  | cmd (i bar : Nat)
  | trap (cause bar : Nat)
  deriving DecidableEq, Repr

/-- BAR0 address of the start of a row's 36 KB (R33). -/
def rowBase (r : Nat) : Nat := 0x2000000 + r * 0x9000

/-- Offset in a row's 36 KB of lane `l`'s byte at lane address `a`, 0x0100 … 0x018F (R33, R133). -/
def rowOfs (l a : Nat) : Nat :=
  if a < 0x120 then l * 32 + (a - 0x100)
  else if a < 0x130 then 0x2000 + l * 16 + (a - 0x120)
  else if a < 0x150 then 0x3000 + l * 32 + (a - 0x130)
  else 0x5000 + l * 64 + (a - 0x150)

/-- The line of the table of R133 that holds a lane address. -/
def rangeId (a : Nat) : Nat :=
  if a < 0x100 then 0 else if a < 0x120 then 1 else if a < 0x130 then 2 else if a < 0x148 then 3
  else if a < 0x150 then 4 else if a < 0x190 then 5 else if a < 0x200 then 6 else if a < 0x600 then 7
  else if a < 0x1000 then 8 else if a < 0x8000 then 9 else if a < 0xC000 then 10 else if a < 0xD000 then 11
  else if a < 0xFF00 then 12 else 13

/-- Where the byte at lane address `a` of lane `l` lies, with the checks of R99 … R103 and R133, R134, R139 … R141. -/
def State.tgt (s : State) (x : Ctx) (l a : Nat) (wr : Bool) : Tgt :=
  let n := x.part
  if a < 0x100 then .scratch (l * 256 + a)
  else if a < 0x190 then
    let ro := decide (a < 0x120) || (decide (0x130 ≤ a) && decide (a < 0x148))
    if x.scalar then
      let r := x.bind / 256
      let bar := rowBase r + rowOfs (x.bind % 256) a
      if (wr && (ro || decide (s.owner r ≠ some n))) = true then .trap cPerm bar
      else if 0x148 ≤ a ∧ a < 0x150 then .cmd (a - 0x148) bar
      else .fabric bar
    else if (wr && ro) = true then .trap cPerm 0
    else .frame (rowOfs l a)
  else if a < 0x200 then .trap cAddr 0
  else if a < 0x600 then
    let r := if x.scalar then x.bind / 256 else x.row
    let bar := 0x3600000 + r * 0x400 + (a - 0x200)
    if (x.scalar && wr && decide (s.owner r ≠ some n)) = true then .trap cPerm bar else .fabric bar
  else if a < 0x1000 then .trap cAddr 0
  else if a < 0x8000 then
    if a - 0x1000 < s.fget (fPART_DATA_SIZE n) * 256 then
      .fabric (0x3680000 + s.fget (fPART_DATA_BASE n) * 256 + (a - 0x1000))
    else .trap cAddr 0
  else if a < 0xC000 then
    let w := (a - 0x8000) / 0x1000
    let o := (a - 0x8000) % 0x1000
    let bar := s.fget (fPART_WIN_BASE_BASE n w) * 0x1000 + o
    let right := if wr then s.fbit (fPART_WIN_CTRL_WR n w) else s.fbit (fPART_WIN_CTRL_RD n w)
    if (s.fbit (fPART_WIN_CTRL_EN n w) && right && decide (o < s.fget (fPART_WIN_CTRL_LIMIT n w) * 256)) = true then
      .fabric bar
    else .trap cPerm bar
  else if a < 0xD000 then (if wr then .trap cPerm 0 else .sysrec (a - 0xC000))
  else if a < 0xFF00 then
    if wr then .trap cPerm 0
    else if a - 0xD000 < x.ver.constLen then
      let bar := 0x1000000 + x.ver.constAt * 256 + (a - 0xD000)
      if SMap.get (fun _ => 0) s.ecc (bar / 8) = 2 then .trap cBus bar else .const bar
    else .trap cAddr 0
  else if wr then
    (if (x.scalar && decide (0xFF20 ≤ a) && decide (a < 0xFF24)) = true then .ctl (a - 0xFF00) else .trap cPerm 0)
  else .ctl (a - 0xFF00)

/-- One access of an instruction in one lane: address, bytes, and whether it writes. -/
structure Access where
  a : Nat
  n : Nat
  wr : Bool
  deriving DecidableEq, Repr

/-- The lane addresses of an access, modulo 2^16 (R142). -/
def Access.bytes (q : Access) : List Nat := (List.range q.n).map (fun i => (q.a + i) % 0x10000)

/-- Where byte `b` of an access lies. An access through a grant window is checked against the window of its first byte: a byte past that
window's end lies beyond its limit (R103). -/
def State.byteTgt (s : State) (x : Ctx) (l : Nat) (q : Access) (b : Nat) : Tgt :=
  let a := q.a % 0x10000
  let w := (a - 0x8000) / 0x1000
  if rangeId a = 10 ∧ rangeId b = 10 ∧ (b - 0x8000) / 0x1000 ≠ w then
    .trap cPerm (s.fget (fPART_WIN_BASE_BASE x.part w) * 0x1000 + (b - (0x8000 + w * 0x1000)))
  else s.tgt x l b q.wr

/-- The trap an access raises, if any: cause, lane address and BAR0 address. Bytes in different ranges raise ADDR (R134); of several causes
the highest of R152 is taken. -/
def State.accTrap (s : State) (x : Ctx) (l : Nat) (q : Access) : Option (Nat × Nat × Nat) :=
  let a := q.a % 0x10000
  let ts := (q.bytes.filterMap (fun b => match s.byteTgt x l q b with | .trap cause bar => some (cause, bar) | _ => none))
    ++ (if q.bytes.any (fun b => decide (rangeId b ≠ rangeId a)) then [(cAddr, 0)] else [])
  (ts.foldl (fun (m : Option (Nat × Nat)) t =>
    match m with | none => some t | some u => if causeRank t.1 < causeRank u.1 then some t else some u) none).map (fun t => (t.1, a, t.2))

/-- Whether partition `n` is due in cycle `m`, for row index `i` under SPREAD (R46). -/
def State.dueAt (s : State) (n m i : Nat) : Bool :=
  let per := s.fget (fPART_SCAN_PERIOD n)
  let ph := s.fget (fPART_SCAN_PHASE n)
  let k := if s.fbit (fPART_SCAN_SPREAD n) then ph + i else ph
  decide ((m + per * (k / per + 1) - k) % per = 0)

/-- Press clocks from the line time now to line time `t`, held within 16 bits. -/
def State.clocksTo (s : State) (t : Nat) : Nat := min 65535 ((t - s.lt.toNat) * 5 / 4)

/-- Line time of the partition's next due T(n) after the cycle now running, within one period. -/
def State.nextDue (s : State) (n : Nat) : Nat :=
  let per := s.fget (fPART_SCAN_PERIOD n)
  let k := ((List.range per).find? (fun i => s.dueAt n (s.cycle.toNat + 1 + i) 0)).getD 0
  s.tn.toNat + (k + 1) * s.bc * 1000

/-- Byte `i` of a value, least significant first. -/
def byteOf (v i : Nat) : Byte := BitVec.ofNat 8 (v / 256 ^ i % 256)

/-- Byte `i` of the press control range as lane `l` reads it (R139). -/
def State.ctlByte (s : State) (c : Cx) (x : Ctx) (l i : Nat) : Byte :=
  let row := if x.scalar then x.bind / 256 else x.row
  let chan := if x.scalar then x.bind else x.row * 256 + l
  if i = 0x00 then byteOf (if x.scalar then 0 else l) 0
  else if 0x02 ≤ i ∧ i < 0x04 then byteOf row (i - 0x02)
  else if 0x04 ≤ i ∧ i < 0x08 then byteOf chan (i - 0x04)
  else if 0x08 ≤ i ∧ i < 0x10 then byteOf x.ltNow.toNat (i - 0x08)
  else if 0x10 ≤ i ∧ i < 0x14 then byteOf x.clkUsed (i - 0x10)
  else if 0x14 ≤ i ∧ i < 0x16 then
    byteOf (if x.scalar then s.clocksTo (s.nextDue x.part) else if (s.row x.row).jobLate then 0 else s.clocksTo x.cutoff)
      (i - 0x14)
  else if i = 0x16 then byteOf (b2n x.scalar + 2 * b2n x.late + 4 * b2n x.toSeen) 0
  else if i = 0x18 then byteOf (x.rsp.toNat + 64 * b2n x.rsFull) 0
  else if 0x20 ≤ i ∧ i < 0x24 then byteOf chan (i - 0x20)
  else if 0x24 ≤ i ∧ i < 0x26 then byteOf (s.outstanding c) (i - 0x24)
  else if 0x26 ≤ i ∧ i < 0x28 then byteOf x.wakeSrc (i - 0x26)
  else if i = 0x30 then byteOf x.excCause 0
  else if i = 0x31 then byteOf x.excLane 0
  else if 0x32 ≤ i ∧ i < 0x34 then byteOf x.excPc.toNat (i - 0x32)
  else if 0x34 ≤ i ∧ i < 0x36 then byteOf x.excAddr (i - 0x34)
  else if 0x38 ≤ i ∧ i < 0x3C then byteOf x.excBar (i - 0x38)
  else if 0x40 ≤ i ∧ i < 0x60 then byteOf x.lm.toNat (i - 0x40)
  else if 0x60 ≤ i ∧ i < 0x80 then byteOf x.excLanes.toNat (i - 0x60)
  else 0

/-- A fabric byte as the context reads it: its own writes to the byte are seen, those in flight and, later, those in the compare buffer
(R112; spec/12_twin_presses.md R381). -/
def State.fabByte (s : State) (c : Cx) (bar : Nat) : Byte :=
  let at' (l : List (Nat × Byte)) : Option Byte := (l.find? (fun b => decide (b.1 = bar))).map (fun b => b.2)
  let own := s.inflight.filterMap (fun r => if r.write && decide (r.cx = some (cxIdx c)) then at' r.bytes else none)
  (own ++ (s.cx c).buf.filterMap (fun w => at' w.bytes)).getLastD (s.rdB bar)

/-- The byte a lane reads at a lane address the checks let through. -/
def State.laneByte (s : State) (c : Cx) (x : Ctx) (l a : Nat) : Byte :=
  match s.tgt x l a false with
  | .scratch k => x.scratch.rd k
  | .frame k => match c with
    | .press p => (s.frame p.val x.frame).mem.rd k
    | .scalar _ => 0
  | .fabric bar => s.fabByte c bar
  | .sysrec i => x.sysrec.getD i 0
  | .const bar => s.rdB bar
  | .ctl i => s.ctlByte c x l i
  | .cmd _ bar => s.rdB bar
  | .trap _ _ => 0

/-- `n` bytes a lane reads from lane address `a`, least significant first. -/
def State.laneRead (s : State) (c : Cx) (x : Ctx) (l a n : Nat) : Nat :=
  ofLE ((List.range n).map (fun i => s.laneByte c x l ((a + i) % 0x10000)))

/-- The BAR0 addresses an access takes through the fabric, and those it takes through the table network. -/
def State.accBars (s : State) (x : Ctx) (l : Nat) (q : Access) : List Nat × List Nat :=
  q.bytes.foldl (fun p b =>
    match s.tgt x l b q.wr with
    | .fabric bar => (p.1 ++ [bar], p.2)
    | .sysrec i => (p.1 ++ [0x4000000 + i], p.2)
    | .cmd _ bar => (if q.wr then p else (p.1 ++ [bar], p.2))
    | .const bar => (p.1, p.2 ++ [bar])
    | _ => p) ([], [])

/-- Number of distinct 128-byte lines among addresses. -/
def lineCount (l : List Nat) : Nat := (l.map (fun a => a / 128)).eraseDups.length

/-- Corrects and counts each single error among table store words read (R40). -/
def State.scrubWords (s : State) (bars : List Nat) : State :=
  ((bars.map (fun a => a / 8)).eraseDups).foldl (fun t w =>
    if SMap.get (fun _ => 0) t.ecc w = 1 then { t with ecc := SMap.put (fun _ => 0) w 0 t.ecc }.integCorr else t) s

/-- BAR0 address of the code word at word address `pc` of a context's version. -/
def Ctx.wordBar (x : Ctx) (pc : Nat) : Nat := 0x1800000 + x.ver.codeAt * 1024 + pc * 2

/-- A code word. -/
def State.codeWord (s : State) (x : Ctx) (pc : Nat) : BitVec 16 := BitVec.ofNat 16 (s.rdLE (x.wordBar pc) 2)

/-- The words of the instruction at PC have been read: a single error among them is corrected, rewritten and counted
(spec/01_architecture.md R40). -/
def State.fetched (s : State) (c : Cx) : State :=
  if s.ecc.isEmpty then s
  else
    let x := s.cx c
    let pc := x.pc.toNat
    s.scrubWords ([x.wordBar pc] ++ (if judinLong (s.codeWord x pc) then [x.wordBar ((pc + 1) % 65536)] else []))

/-- Puts a context's write of bytes to one line into the compare buffer (R155; spec/12_twin_presses.md R380), with the rule epoch and the
cycle current at its issue (R104, R108). -/
def State.postWrite (s : State) (c : Cx) (bytes : List (Nat × Byte)) (lanes : BitVec 256) : State :=
  let x := s.cx c
  s.setCx c { x with buf := x.buf ++ [{
    clk := x.clkUsed, lt := s.lt.toNat, ruleEpoch := s.fget fPART_RULE_EPOCH, cycle := s.cycle.toNat % 65536
    line := (bytes.headD (0, 0)).1 / 128, bytes := bytes, lanes := lanes }] }

/-- One byte that a lane writes: lane, target, value. -/
structure Put where
  lane : Nat
  t : Tgt
  v : Byte
  deriving DecidableEq, Repr

/-- Writes the private bytes of an instruction: scratch, frame, held command bytes and BIND, in lane order (R135). -/
def State.putPrivate (s : State) (c : Cx) (p : Put) : State :=
  let x := s.cx c
  match p.t with
  | .scratch k => s.setCx c { x with scratch := x.scratch.wr k p.v }
  | .frame k =>
    match c with
    | .scalar _ => s
    | .press q =>
      let f := s.frame q.val x.frame
      let s1 := s.setFrame q.val x.frame { f with mem := f.mem.wr k p.v }
      if 0x5000 ≤ k then
        (if x.granules.contains (k / 16) then s1 else s1.setCx c { x with granules := x.granules ++ [k / 16] })
      else if (decide (0x3000 ≤ k) && decide (k % 32 = 0x18)) = true then
        s1.setCx c { x with cmdLanes := x.cmdLanes ||| (BitVec.ofNat 256 1 <<< p.lane) }
      else s1
  | .cmd i _ => s.setCx c { x with held := (x.held ++ List.replicate (8 - x.held.length) 0).set i p.v }
  | .ctl i =>
    s.setCx c { x with bind := ofLE ((leBytes 4 x.bind).set (i - 0x20) p.v) }
  | _ => s

/-- The fabric bytes among an instruction's writes, each with its lane. -/
def fabPuts (l : List Put) : List (Nat × Nat × Byte) :=
  l.filterMap (fun p => match p.t with | .fabric bar => some (bar, p.lane, p.v) | _ => none)

/-- Posts the fabric bytes of an instruction, one request for each distinct line; on a byte that several lanes write the
highest lane wins (R135), and only the lanes whose bytes a request carries are its lanes (R151). -/
def State.putFabric (s : State) (c : Cx) (l : List (Nat × Nat × Byte)) : State :=
  ((l.map (fun e => e.1 / 128)).eraseDups).foldl (fun t line =>
    let here := l.filter (fun e => decide (e.1 / 128 = line))
    let won := ((here.map (fun e => e.1)).eraseDups).map (fun a => (here.filter (fun e => decide (e.1 = a))).getLastD (a, 0, 0))
    t.postWrite c (won.map (fun e => (e.1, e.2.2))) (laneSet (won.map (fun e => e.2.1)))) s

/-- Hands over a scalar context's command: a write to 0x0148 takes the held bytes with it and clears them (R249, R646). -/
def State.handCmd (s : State) (c : Cx) (l : List Put) : State :=
  if l.any (fun p => match p.t with | .cmd 0 _ => true | _ => false) then
    let x := s.cx c
    { s.setCx c { x with held := [] } with
      scalarCmds := s.scalarCmds ++ [{ cx := cxIdx c, ch := x.bind, bytes := x.held }] }
  else s

/-- Performs an instruction's writes. The bound channel of a command is the one before a write to BIND takes effect. -/
def State.puts (s : State) (c : Cx) (l : List Put) : State :=
  ((l.foldl (fun t p => t.putPrivate c p) s).handCmd c l).putFabric c (fabPuts l)

/-- The writes of one lane: addresses, bytes and values. -/
def State.lanePuts (s : State) (x : Ctx) (l : Nat) (ws : List (Nat × Nat × Nat)) : List Put :=
  ws.flatMap (fun w => (List.range w.2.1).map (fun i =>
    { lane := l, t := s.tgt x l ((w.1 + i) % 0x10000) true, v := byteOf w.2.2 i }))

/-- A store to BIND that would leave it above 131,071 raises ADDR at the store's address (R139, R140). -/
def bindTrap (x : Ctx) (ws : List (Nat × Nat × Nat)) : Option (Nat × Nat × Nat) :=
  let b := ws.foldl (fun (v : List Byte) w =>
    (List.range w.2.1).foldl (fun (u : List Byte) i =>
      let a := (w.1 + i) % 0x10000
      if 0xFF20 ≤ a ∧ a < 0xFF24 then u.set (a - 0xFF20) (byteOf w.2.2 i) else u) v) (leBytes 4 x.bind)
  let hit := ws.find? (fun w => (List.range w.2.1).any (fun i => decide (0xFF20 ≤ (w.1 + i) % 0x10000) && decide ((w.1 + i) % 0x10000 < 0xFF24)))
  if (x.scalar && decide (131071 < ofLE b)) = true then some (cAddr, (hit.map (fun w => w.1 % 0x10000)).getD 0xFF20, 0) else none

/-- What one lane of an instruction does: its accesses, and from what it reads its new registers and its writes. -/
structure LaneAct where
  accs : List Access
  run : (Nat → Nat → Nat) → Lane × List (Nat × Nat × Nat)

/-- Whether an access touches the channel variables of a row that a graft has not yet migrated (R404). -/
def State.needsMigration (s : State) (x : Ctx) (q : Access) : Bool :=
  x.scalar && decide (rangeId (q.a % 0x10000) = 5) && !s.arrBit (rPART_GRF_ROWMIG 0) (x.bind / 256)

/-- Advances the context past an instruction of `len` words that took `n` clocks, `stall` of them stalled. -/
def State.advance (s : State) (c : Cx) (len n stall : Nat) : State :=
  let x := s.cx c
  (s.setCx c { x with pc := x.pc + BitVec.ofNat 16 len }).clocks c n stall

/-- Records the accesses a grant check denied: one DENIED for each distinct line (R103, R117, R135). -/
def State.logDenied (s : State) (x : Ctx) (l : List (Nat × Access)) : State :=
  let bars := l.flatMap (fun e => e.2.bytes.filterMap (fun b =>
    if rangeId b = 10 then
      (match s.byteTgt x e.1 e.2 b with | .trap _ bar => some (bar / 128 * 128, bar, e.2.wr) | _ => none) else none))
  ((bars.map (fun e => e.1)).eraseDups).foldl (fun t line =>
    match bars.find? (fun e => decide (e.1 = line)) with
    | some e => t.fabErr e.2.1 3 x.part (s.fget fPART_RULE_EPOCH) e.2.2
    | none => t) s

/-- The lanes in which a per-lane instruction acts: the enabled ones, or all of them where `all` holds (R127, R129). -/
def Ctx.acting (x : Ctx) (all : Bool) : List (Nat × Lane) :=
  (x.lanes.zipIdx.map (fun e => (e.2, e.1))).filter (fun e => all || x.enabled e.1)

/-- The accesses of every acting lane, in lane order. -/
def Ctx.accsBy (x : Ctx) (all : Bool) (accs : Nat → Lane → List Access) : List (Nat × Access) :=
  (x.acting all).flatMap (fun e => (accs e.1 e.2).map (fun q => (e.1, q)))

/-- The context as an instruction's reads see it: a read of the lowest byte of LT latches line time (R139). -/
def State.readCtx (s : State) (x : Ctx) (accs : List (Nat × Access)) : Ctx :=
  if accs.any (fun e => e.2.bytes.contains 0xFF08 && !e.2.wr) then { x with ltNow := s.lt } else x

/-- What acting lane `i` of an instruction with these accesses reads: `n` bytes at lane address `a`. -/
def State.reader (s : State) (c : Cx) (all : Bool) (accs : Nat → Lane → List Access) (i a n : Nat) : Nat :=
  s.laneRead c (s.readCtx (s.cx c) ((s.cx c).accsBy all accs)) i a n

/-- Clocks that reads stall a context: through the fabric the stall of R156 and one for each further line, and up to 3 more while a write to
one of the lines is still in the compare buffer (spec/12_twin_presses.md R381); through the constants window its own stall
(spec/05_judin_reference.md R169). `k` is free within the bounds (log 11). -/
def State.readStall (s : State) (c : Cx) (rf rc : List Nat) (k : Nat) : Nat :=
  let x := s.cx c
  let held := (x.buf.filter (fun w => rf.any (fun a => decide (a / 128 = w.line)))).foldl (fun m w => max m (w.clk + 3 - x.clkUsed)) 0
  (if rf.isEmpty then 0 else 14 + k + (lineCount rf - 1) + min 3 held) + (if rc.isEmpty then 0 else 12 + k % 5 + (lineCount rc - 1))

/-- A context is about to issue an instruction with fabric writes while the compare buffer holds 8 instructions' writes: it stalls a clock,
after which those that have matched are out (spec/12_twin_presses.md R380). -/
def State.bufRoom (s : State) (c : Cx) : State :=
  let t := s.releaseBuf c false
  if (t.cx c).bufInstrs < 8 then t else (t.clocks c 1 1).releaseBuf c false

/-- The effect of an instruction that acts per lane and raises nothing: every acting lane reads, and then the registers change and the
writes are made, in lane order. With no lane to act in it takes the issue clock alone (spec/05_judin_reference.md R169). -/
def State.laneEffect (s : State) (c : Cx) (len base : Nat) (x : Ctx) (accs : List (Nat × Access))
    (res : List (Nat × Lane × List (Nat × Nat × Nat))) : State :=
  let bars := accs.map (fun e => (e.2.wr, s.accBars x e.1 e.2))
  let rf := (bars.filter (fun e => !e.1)).flatMap (fun e => e.2.1)
  let rc := bars.flatMap (fun e => e.2.2)
  let wf := (bars.filter (fun e => e.1)).flatMap (fun e => e.2.1)
  let fs := if rf.isEmpty && rc.isEmpty then (0, s) else s.freeC
  let stall := s.readStall c rf rc fs.1
  let more := lineCount wf - 1
  let lanes := x.lanes.mapIdx (fun i l => match res.find? (fun e => decide (e.1 = i)) with | some e => e.2.1 | none => l)
  let ps := res.flatMap (fun e => s.lanePuts x e.1 e.2.2)
  let n := if res.isEmpty then 1 else base
  ((((fs.2.passTags (cxIdx c) (lineCount rf)).setCx c { x with lanes := lanes }).scrubWords rc).puts c ps).advance c len (n + stall + more) (stall + more)

/-- An instruction that acts per lane (R127), in every enabled lane, or in every lane where `all` holds (R129): the accesses
of all acting lanes are checked first and the highest cause is taken with no effect in any lane (R151, R152); else it has its effect
(`laneEffect`). `base` is its clocks without access. An instruction with fabric writes that finds the compare buffer full, because no tag
is free, is not issued yet. -/
def State.perLane (s0 : State) (c : Cx) (len base : Nat) (all : Bool) (act : Nat → Lane → LaneAct) : State :=
  if s0.issues c then
    let s1 := s0.fetched c
    let acc (i : Nat) (l : Lane) : List Access := (act i l).accs
    let accs := (s1.cx c).accsBy all acc
    let posts := accs.any (fun e => e.2.wr && !(s1.accBars (s1.cx c) e.1 e.2).1.isEmpty)
    let s := if posts then s1.bufRoom c else s1
    let x0 := s.cx c
    if posts && decide (8 ≤ x0.bufInstrs) then s
    else match accs.find? (fun e => s.needsMigration x0 e.2) with
    | some _ => s.setCx c { x0 with stall := some (.migrate (x0.bind / 256) false) }
    | none =>
      let traps := accs.filterMap (fun e => (s.accTrap x0 e.1 e.2).map (fun t => (e.1, t)))
      match worstTrap traps with
      | some t =>
        let s1 := if t.cause = cPerm then s.logDenied x0 accs else s
        let s2 := if t.cause = cBus then s1.integCrit 2 ((t.bar - 0x1000000) / 8) else s1
        s2.excHere c t
      | none =>
        let x := s.readCtx x0 accs
        let res := (x0.acting all).map (fun e => (e.1, (act e.1 e.2).run (s.reader c all acc e.1)))
        match res.findSome? (fun e => bindTrap x e.2.2) with
        | some t => s.excHere c { cause := t.1, lanes := x.enabledSet, addr := t.2.1, bar := 0 }
        | none => s.laneEffect c len base x accs res
  else s0

/-- A per-lane instruction without memory operand: registers and flags of the enabled lanes change. With no enabled lane it takes the
issue clock alone (spec/05_judin_reference.md R169). -/
def State.regLanes (s0 : State) (c : Cx) (len base : Nat) (f : Lane → Lane) : State :=
  if s0.issues c then
    let s := s0.fetched c
    let x := s.cx c
    (s.setCx c { x with lanes := x.lanes.mapIdx (fun i l => if x.enabled i then f l else l) }).advance c len
      (if (x.acting false).isEmpty then 1 else base) 0
  else s0

/-- The lane whose registers a uniform instruction reads: the lowest enabled lane, or lane 0 (R163). -/
def Ctx.leadLane (x : Ctx) : Nat := lowestLane x.enabledSet

/-- That lane's registers. -/
def Ctx.lead (x : Ctx) : Lane := (x.lanes.drop x.leadLane).headD {}

end Sys2Proof.Machine
end

