-- ==== Sys2Proof/Machine/Ending.lean ====
section
/-! DEFINITION. The end of an execution, the watchdog's service, and what an instruction does once its context's writes have completed (spec/02_control_cycle.md R54, R66, R67, spec/04_judin_model.md R155, R157, spec/20_reset_watchdog_cask.md R600 … R603). -/

namespace Sys2Proof.Machine

/-- The latest 16 entries of a list. -/
def last16 (l : List Nat) : List Nat := l.drop (l.length - 16)

/-- A completed row execution of `clk` clocks enters the partition's EST (R66). -/
def State.noteExec (s : State) (n clk : Nat) : State :=
  let v := s.part n
  let l := last16 (v.est ++ [clk])
  let est := l.foldl max 0
  let s1 := (s.setPart n { v with est := l }).fset (fSCHED_P_EST_CLOCKS n) est
  s1.when (decide (s.fget (fPART_BUDGET_BUDGET n) < est)) (fun t => t.fset fSCHED_STAT_OVERBUDGET 1)

/-- Slack of an execution that ends now against its cut-off (R74). -/
def State.noteSlack (s : State) (n cutoff : Nat) : State :=
  let d : Int := (cutoff : Int) - (s.lt.toNat : Int)
  let s1 := s.fset (fSCHED_P_SLACK_LAST_NS n) (unsgn 32 d)
  let m := sgn 32 (s.fget (fSCHED_P_SLACK_MIN_NS n))
  s1.when (decide (d < m)) (fun t => t.fset (fSCHED_P_SLACK_MIN_NS n) (unsgn 32 d))

/-- The outcome that the end of an execution of the row's cycle `m` gives: STOPPED where its partition faulted meanwhile (R89),
else what the cut-off decided (R68, R70), else SERVED (R67, R71). A cycle whose outcome has been counted keeps it. -/
def RowSt.endOf (v : RowSt) (m : Nat) : RowSt :=
  if v.jobLate || v.counted m || (v.dec m).isSome then v
  else if v.stopped = some m then v.decide m 9
  else v.decide m 1

/-- END on a press pair: the row goes to write-back (R54). -/
def State.endLane (s : State) (k : Fin 34) : State :=
  let c := Cx.press k
  let x := s.cx c
  let s1 := ((s.noteExec x.part x.clkUsed).noteSlack x.part x.cutoff).setCx c { x with running := false, ended := true, stall := none }
  let s2 := (s1.fset (fPAIR_STAT_STATE (pressPage k.val)) stWb).fsat (fPAIR_CNT_EXEC_COUNT (pressPage k.val))
  (s2.setRow x.row ((s2.row x.row).endOf x.cycle)).fset (fSCHED_ROW_STAT_CLAIM x.row) clWb

/-- END on a scalar pair: the context is gone; command bytes held for the pair stay (R141, R645). -/
def State.endScalar (s : State) (j : Fin 16) : State :=
  let c := Cx.scalar j
  let x := s.cx c
  let s1 := (s.setCx c x.rest).setPart x.part { s.part x.part with scalarOn := none }
  (s1.fset (fPAIR_STAT_STATE (scalarPage j.val)) stIdle).fsat (fPAIR_CNT_EXEC_COUNT (scalarPage j.val))

/-- The context ends (R121). -/
def State.endContext (s : State) (c : Cx) : State :=
  match c with
  | .press k => s.endLane k
  | .scalar j => s.endScalar j

/-- Watchdog states (WDT_STAT). -/
abbrev wdOff : Nat := 0
abbrev wdFirst : Nat := 1
abbrev wdClosed : Nat := 2

/-- The watchdog capture across the die link before its reset (R603): kind, partition 0's scalar pair, its PC. -/
def State.wdtCapture (s : State) (kind : Nat) : State :=
  let j := s.fget (fPART_CFG_SCALAR_PAIR 0)
  let x := SMap.get ctx0 s.ctxs (64 + j)
  let s1 := ((s.fset fRST_WDT_CAP_KIND kind).fset fRST_WDT_CAP_PAIR j).fset fRST_WDT_CAP_VALID (b2n x.running)
  let s2 := s1.fset fRST_WDT_CAP_PC x.pc.toNat
  (s2.setReg rRST_WDT_CAP_LT_LO (s.reg rWDT_LAST_SVC_LO)).setReg rRST_WDT_CAP_LT_HI (s.reg rWDT_LAST_SVC_HI)

/-- The watchdog starts: state FIRST (R600). -/
def State.wdtFirst (s : State) : State := { s.fset fWDT_STAT_STATE wdFirst with wdtStart := s.lt.toNat }

/-- The watchdog goes OFF (R600). -/
def State.wdtOff (s : State) : State := s.fset fWDT_STAT_STATE wdOff

/-- The watchdog expires (R602). -/
def State.wdtExpire (s : State) : State :=
  if s.fget fWDT_STAT_STATE = wdOff then s else (s.wdtCapture 1).moduleReset 4 0

/-- Quarters of the period before the window opens, by the fuse (R3, R600): W1 one, W2 two, W3 three. -/
def State.wdtQuarters (s : State) : Nat := s.fuses.window

/-- A service of the watchdog (R601, R602): accepted in the first period and in the open window; with the window closed the
module resets WDT_EARLY; at or past the period's end it is late. -/
def State.wdtService (s : State) : State :=
  let st := s.fget fWDT_STAT_STATE
  let e := s.lt.toNat - s.wdtStart
  let p := s.opt.wdtPeriod * 1000
  if st = wdOff then s
  else if p ≤ e then s.wdtExpire
  else if st ≠ wdFirst ∧ e * 4 < p * s.wdtQuarters then (s.wdtCapture 2).moduleReset 5 0
  else
    let s1 := (s.fset fWDT_STAT_STATE wdClosed).fwrap fWDT_CNT_SVC_COUNT
    let s2 := (s1.setReg rWDT_LAST_SVC_LO (BitVec.ofNat 32 (s.lt.toNat % 2 ^ 32))).setReg rWDT_LAST_SVC_HI
      (BitVec.ofNat 32 (s.lt.toNat / 2 ^ 32))
    { s2 with wdtStart := s.lt.toNat }

/-- The lanes of a software trigger: the enabled lanes with L = 1 (R186). -/
def Ctx.trigLanes (x : Ctx) : List Nat :=
  ((x.lanes.zipIdx.filter (fun e => x.enabled e.2 && fL e.1.f)).map (fun e => e.2))

/-- Raises software trigger `t` of the reflex table with row and lanes; with no lane none is raised (R186). -/
def State.raiseTrig (s : State) (c : Cx) (t : Nat) : State :=
  let x := s.cx c
  let ls := x.trigLanes
  if ls.isEmpty then s
  else
    let g : Trigger := if x.scalar then { kind := 1, arg := x.part * 256 + t, row := x.bind / 256, lanes := laneSet [x.bind % 256] }
      else { kind := 1, arg := x.part * 256 + t, row := x.row, lanes := laneSet ls }
    { s with triggers := s.triggers ++ [g] }

/-- SEV's raise (R211); partition 0's own source sent from its scalar context services the watchdog (R601). -/
def State.sevRaise (s : State) (c : Cx) (e : Nat) : State :=
  let x := s.cx c
  let s1 := s.assertEv e
  if (x.scalar && decide (x.part = 0) && decide (e = 128)) = true then s1.wdtService else s1

/-- The effect of an instruction that first waits as FENCE does, once its context's writes are out: a read or write of a posted failure, or
a TIMEOUT, that arose meanwhile is taken at this boundary, BUS before TIMEOUT (R151, R152). -/
def State.atBoundary (s : State) (c : Cx) : State :=
  let x := s.cx c
  if !s.issues c then s
  else match x.busPend with
  | some (cause, bar, lanes) =>
    (s.setCx c { x with busPend := none }).excHere c { cause := cause, lanes := lanes, addr := 0, bar := bar }
  | none =>
    if x.toPend then
      (s.setCx c { x with toPend := false }).excHere c { cause := cTimeout, lanes := x.enabledSet, addr := 0, bar := 0 }
    else s

/-- Whether an exception of the context's posted writes, or its TIMEOUT, waits for the end of the instruction that stalls: of one that
waits for a mailbox answer, for a migration under way, or as FENCE does. END's wait has no boundary after it: there the exception is taken at once, END not yet
issued (DESIGN CHOICE, log 16). -/
def Ctx.defersExc (x : Ctx) : Bool :=
  match x.stall with
  | some (.mbxSend _ _) => true
  | some (.mbxRead _) => true
  | some (.migrate _ true) => true
  | some (.fence .finish _) => false
  | some (.fence _ _) => true
  | _ => false

/-- A posted write of a context has failed (R151): the exception is taken at the next boundary with the address and lanes of
the write. -/
def State.postedFail (s : State) (c : Cx) (cause bar : Nat) (lanes : BitVec 256) : State :=
  let x := s.cx c
  if !x.running then s
  else if x.defersExc then s.setCx c { x with busPend := some (cause, bar, lanes) }
  else s.excHere c { cause := cause, lanes := lanes, addr := 0, bar := bar }

/-- Response codes (spec/03_partitions_fabric.md R117). -/
def respCode : Resp → Nat
  | .ok => 0
  | .void => 1
  | .islandReset => 2
  | .denied => 3
  | .decerr => 4
  | .parity => 5

/-- The exception that a press or scalar pair takes for a response (spec/03_partitions_fabric.md R118). -/
def respCause : Resp → Nat
  | .denied => cPerm
  | .decerr => cAddr
  | _ => cBus

/-- Whether a response is an error. -/
def respErr : Resp → Bool
  | .ok => false
  | .void => false
  | _ => true

/-- The error registers for a response, and the critical-state error of PARITY (spec/03_partitions_fabric.md R117). -/
def State.noteResp (s : State) (addr : Nat) (r : Resp) (master epoch : Nat) (write : Bool) (tag : Nat) : State :=
  if respErr r then (s.fabErr addr (respCode r) master epoch write).when (decide (r = .parity)) (fun t => t.integCrit 3 tag) else s

/-- A program's GO.DONE reaches the mailbox RAM: in POSTED it completes the message, else it is ignored and counted (R471). While the
management island restarts it ends with ISLAND_RESET (spec/03_partitions_fabric.md R120; spec/15_host_mailboxes.md R475), a failed posted
write of the pair's; its address, MBX_CMD[ch], and its lanes, none, are the model's choice (DESIGN CHOICE, log 79). -/
def State.progDone (s : State) (c : Cx) (ch u : Nat) : State :=
  if s.mgt.down then
    (s.noteResp (rMBX_CMD ch) .islandReset (s.cx c).part (s.fget fPART_RULE_EPOCH) true 0).postedFail c cBus (rMBX_CMD ch) 0
  else if s.fbit (fMBX_CH_STAT_GO ch) then s.mbxComplete ch u
  else (s.fsat fMBX_CNT_IGNORED_COUNT).fset fMBX_STAT_IGNORED 1

/-- What an instruction that waits as FENCE does, does once OUTSTANDING is 0 (R155, R157, R186), after `w` clocks of waiting (R169): 3 clocks
more for the effects that leave the pair. A reset that SEV causes leaves no context to go on. -/
def State.doAfter (s0 : State) (c : Cx) (k : After) (w : Nat) : State :=
  let s := s0.setCx c { s0.cx c with stall := none }
  match k with
  | .fence => (s.advance c 1 (1 + w) w).atBoundary c
  | .finish => (s.clocks c (1 + w) w).endContext c
  | .sev e => ((s.advance c 1 (4 + w) (3 + w)).sevRaise c e).atBoundary c
  | .goSend ch msg => (s.clocks c (4 + w) (3 + w)).setCx c { (s.clocks c (4 + w) (3 + w)).cx c with stall := some (.mbxSend ch msg) }
  | .goDone ch u => ((s.advance c 1 (4 + w) (3 + w)).progDone c ch u).atBoundary c
  | .trig t => ((s.advance c 1 (4 + w) (3 + w)).raiseTrig c t).atBoundary c

/-- An instruction that first waits as FENCE does: at once where nothing is outstanding, else the context stalls. Its buffered writes match
while it waits, and enter the fabric (spec/12_twin_presses.md R380). -/
def State.afterDrain (s : State) (c : Cx) (k : After) : State :=
  if s.outstanding c = 0 then s.doAfter c k 0
  else (s.setCx c { s.cx c with stall := some (.fence k s.lt.toNat) }).releaseBuf c true

/-- Called when a request of a context has completed: a stall for its outstanding writes ends with the last of them, and its clocks, 0.8 ns
each of line time, count (R169). -/
def State.drained (s : State) (c : Cx) : State :=
  match (s.cx c).stall with
  | some (.fence k since) => if s.outstanding c = 0 then s.doAfter c k ((s.lt.toNat - since) * 5 / 4) else s
  | _ => s

end Sys2Proof.Machine
end

