-- ==== Sys2Proof/Machine/Sched.lean ====
section
/-! DEFINITION. The row scheduler: schedule positions and cut-offs, readiness, placement, eviction, stretching and outcomes (spec/02_control_cycle.md R46 … R73). -/

namespace Sys2Proof.Machine

/-- BAR0 address of copy `c` of port `p`'s schedule table (spec/10_trellis_link.md R321). -/
def State.schedTbl (s : State) (p c : Nat) : Nat := 0x1000000 + s.fget fTRL_TBL_SCHED_BASE * 4096 + (2 * p + c) * 256

/-- The table in force of a port. -/
def State.tblInForce (s : State) (p : Nat) : Nat := s.schedTbl p (s.fget (fTRL_PORT_SCHED_COPY p))

/-- Positions of a port's line, by its table in force. -/
def State.boards (s : State) (p : Nat) : Nat := s.rdLE (s.tblInForce p) 1

/-- The row at position `k` of port `p`, by its table in force; 0xFFFF for none. -/
def State.rowAt (s : State) (p k : Nat) : Nat := s.rdLE (s.tblInForce p + 0x20 + 4 * k) 2

/-- Pour slot length of a port, ns. -/
def State.pourLen (s : State) (p : Nat) : Nat := s.rdLE (s.tblInForce p + 8) 2

/-- Whether a port is enabled. -/
def State.portEn (s : State) (p : Nat) : Bool := s.fbit (fTRL_PORT_CTRL_EN p)

/-- The position of row `r` in the tables in force of the enabled ports (R644): port and position. -/
def State.posOf (s : State) (r : Nat) : Option (Nat × Nat) :=
  ((List.range 32).filter (fun p => s.portEn p)).findSome? (fun p =>
    ((List.range (s.boards p)).find? (fun k => decide (s.rowAt p k = r))).map (fun k => (p, k)))

/-- T(m) of a cycle, from the cycle now running (R44). -/
def State.tOf (s : State) (m : Nat) : Nat := s.tn.toNat + m * (s.bc * 1000) - s.cycle.toNat * (s.bc * 1000)

/-- Whether a position is served through the standby in split-line operation (spec/10_trellis_link.md R327, R340). -/
def State.isFar (s : State) (p k : Nat) : Bool := decide (s.fget (fTRL_POS_STAT_STATE p k) = 6)

/-- Start of position `k`'s pour slot after the opening of its window (R323); a far position's by the mirrored table (R340). -/
def State.slotOfs (s : State) (p k : Nat) : Nat := (if s.isFar p k then k else s.boards p - 1 - k) * s.pourLen p

/-- Time from a position's pour cut-off to its slot (R54), 1,000 ns more for a relayed row (R340). -/
def State.cutLead (s : State) (p k : Nat) : Nat := if s.isFar p k then 1250 else 250

/-- Pour cut-off of a row's cycle `m`: its slot's start less 250 ns (R54). -/
def State.cutoffOf (s : State) (r m : Nat) : Nat :=
  match s.posOf r with
  | some (p, k) => s.tOf (m + 1) + s.slotOfs p k - s.cutLead p k
  | none => s.tOf (m + 1) - 250

/-- Whether row `r` of partition `n` is due in cycle `m` (R46). -/
def State.rowDue (s : State) (n r m : Nat) : Bool := s.dueAt n m ((s.rowsOfPart n).idxOf r)

/-- Pairs in service and not fenced, spare or under test. -/
def State.inService (s : State) (k : Nat) : Bool :=
  let v := s.fget (fPAIR_STAT_STATE (pressPage k))
  decide (v ≤ stWb)

/-- Class of a row's owner; V where it has none. -/
def State.classOf (s : State) (r : Nat) : Nat := match s.owner r with | some n => s.fget (fPART_CFG_CLASS n) | none => 3

/-- The row's outcome in the cycle before `m` (R74): one decided and not yet counted, else the last counted. -/
def State.prevOutcome (s : State) (r m : Nat) : Nat :=
  let v := s.row r
  if m = 0 then v.outcome else (v.dec (m - 1)).getD v.outcome

/-- Whether the row's previous due cycle before `m` was not SERVED (R74). -/
def State.prevMissed (s : State) (r m : Nat) : Bool :=
  let v := s.row r
  let due (c : Nat) : Bool := match s.owner r with | some n => s.rowDue n r c | none => false
  let open' := (v.decs.filter (fun e => decide (e.1 < m) && due e.1)).foldl (fun (b : Option (Nat × Nat)) e =>
    match b with | none => some e | some x => if x.1 < e.1 then some e else b) none
  match open' with
  | some e => decide (e.2 ≠ 1)
  | none => v.dueBefore && !v.dueServed

/-- The latest-ripe instant of position `k` of port `p` in cycle `m` (R50; spec/10_trellis_link.md R340). -/
def State.latestRipeAt (s : State) (p k m : Nat) : Nat :=
  let t := s.tblInForce p
  let kk := if s.isFar p k then s.boards p - 1 - k else k
  s.tOf m + s.rdLE (t + 4) 4 + (kk + 1) * s.rdLE (t + 2) 2 + s.fget fSCHED_RIPE_GRACE_GRACE + (if s.isFar p k then 1000 else 0)

/-- Whether a row may still ripen in cycle `m`: its latest-ripe instant lies past T(m + 1) and has not come (R50). -/
def State.mayRipen (s : State) (r m : Nat) : Bool :=
  let v := s.row r
  match s.posOf r with
  | none => false
  | some (p, k) => decide (v.noHarvest ≠ some m) && (decide (v.ripe ≠ some m) && decide (s.tOf (m + 1) < s.latestRipeAt p k m))

/-- Whether a row that ripened in cycle `m` still waits for its step pass of that cycle. -/
def RowSt.mayPass (v : RowSt) (m : Nat) : Bool := Decidable.decide (v.ripe = some m) && Decidable.decide (v.passed ≠ some m)

/-- The cycle that a row's latest-ripe instant and ripening belong to now: the cycle before the running one while the row may still
ripen in it, else the running one (R50, R52). -/
def State.ripeCycle (s : State) (r : Nat) : Nat :=
  let n := s.cycle.toNat
  if (decide (0 < n) && s.mayRipen r (n - 1) && !(s.row r).counted (n - 1)) = true then n - 1 else n

/-- Outcome of a row that is not executed in cycle `m`, by the precedence of R71; none where the row has work of that cycle or may
still come to have it. -/
def State.idleOutcome (s : State) (r m : Nat) : Option Nat :=
  let v := s.row r
  match s.owner r with
  | none => some 10
  | some n =>
    if s.partMode n = 1 then some 9
    else if s.partMode n = 2 ∧ v.workAt m = false then some 8
    else if s.rowDue n r m = false then some 0
    else if v.noHarvest = some m ∨ (s.posOf r).isNone then some 5
    else if s.mayRipen r m then none
    else if v.stretched.map (· + 1) = some m then some 7
    else if v.workAt m = true ∨ v.stretched = some m ∨ v.mayPass m = true then none
    else some 5

/-- A row without work of cycle `m` has its outcome decided, where it can be. SCHED_STAT.NO_HARVEST tells of a row that takes
SKIPPED_NO_HARVEST; a mapped row's was set at its latest-ripe instant (R50, R644, R71). -/
def State.closeRow (s : State) (r m : Nat) : State :=
  let v := s.row r
  if (v.counted m || (v.dec m).isSome) = true then s
  else match s.idleOutcome r m with
    | some o => (s.setRow r (v.decide m o)).when (decide (o = 5) && decide (v.noHarvest ≠ some m)) (fun t => t.fset fSCHED_STAT_NO_HARVEST 1)
    | none => s

/-- A row of class S or F is stretched in its cycle `m` (R68): outcome STRETCHED, nothing poured in its slot, the work goes on
as a late execution and any work behind it is dropped (R69); S_LATE for class S (R67). Where late work of an earlier cycle is still
in hand, the work of `m` waits behind it as late work of its own. What its scan record tells of earlier cycles (R74) is noted now:
its late load may come after the outcome of `m` itself has been counted. -/
def State.stretch (s : State) (r m : Nat) : State :=
  let v := s.row r
  let w := ((v.decide m 2).pour m none)
  let inHand := decide (v.job = some m)
  let next := if inHand then [] else (v.next.takeWhile (fun e => decide (e.1 ≠ m))) ++ [(m, true)]
  let s1 := s.setRow r { w with
    stretched := some m, jobLate := v.jobLate || inHand, next := next, latePrev := (s.prevOutcome r m, s.prevMissed r m) }
  let s2 := (s1.fset fSCHED_STAT_STRETCH 1).fset (fSCHED_ROW_STAT_LATE r) (b2n (v.jobLate || inHand))
  s2.when (decide (s.classOf r = 0)) (fun t => (t.fset fSCHED_STAT_S_LATE 1).assertEv 676)

/-- A row of class G or V takes SKIPPED_LOAD for cycle `m` (R64); work of a later cycle behind it stays. A cycle whose outcome
stands already (a row of a fenced pair that had passed its cut-off, R72) keeps it. -/
def State.skipLoad (s : State) (r m : Nat) : State :=
  let v := s.row r
  let s1 := if (v.counted m || (v.dec m).isSome) = true then s else (s.setRow r (v.decide m 3)).fset fSCHED_STAT_SKIP_LOAD 1
  if v.job = some m then s1.nextWork r
  else s1.setRow r { s1.row r with next := v.next.filter (fun e => decide (e.1 ≠ m)) }

/-- The output records of a row as they stand in the image store, 4 KB. -/
def State.standing (s : State) (r : Nat) : List Byte := s.rdList (rowBase r + 0x2000) 4096

/-- The cut-off of row `r` for cycle `m` passes (R54, R64, R68, R69, R70). -/
def State.passCutoff (s : State) (r m : Nat) : State :=
  let v := s.row r
  let cl := s.fget (fSCHED_ROW_STAT_CLAIM r)
  if v.stretched = some m ∨ ((v.dec m).isSome ∧ v.workAt m = true) then s
  else if v.job = some m then
    if s.classOf r ≤ 1 then s.stretch r m
    else if cl = clReady ∨ s.migrating r = true then s.skipLoad r m
    else (s.setRow r ((v.decide m 4).pour m (some (s.standing r)))).fset fSCHED_STAT_SKIP_LOAD 1
  else if v.workAt m then
    (if s.classOf r ≤ 1 then s.stretch r m else s.skipLoad r m)
  else if (v.stretched.map (· + 1) = some m ∧ v.workAt (m - 1) = true) then
    (if v.pours.any (fun e => decide (e.1 = m)) then s else s.setRow r (v.pour m none))
  else s

/-- The cycle whose cut-off a row's slot in the tables in force meets now: the running cycle where the cut-off lies before
T(n + 1), else the cycle before (R54). -/
def State.cutoffCycle (s : State) (r : Nat) : Option Nat :=
  match s.posOf r with
  | none => none
  | some (p, k) =>
    if s.slotOfs p k < s.cutLead p k then some s.cycle.toNat
    else if s.cycle.toNat = 0 then none else some (s.cycle.toNat - 1)

/-- At the slot of a row's cycle `m` its outcome is decided (R71): as its cut-off and the rules for rows not executed give it, and
SKIPPED_NO_HARVEST for a row that none of them has brought to an execution. -/
def State.settle (s : State) (r m : Nat) : State :=
  if ((s.row r).dec m).isSome then s
  else
    let t := s.passCutoff r m
    if ((t.row r).dec m).isSome then t
    else
      let u := t.closeRow r m
      if ((u.row r).dec m).isSome then u else u.setRow r ((u.row r).decide m 5)

/-- POUR_CUTOFF. -/
def execPourCutoff (r : Fin 512) (s : State) : Out :=
  .next (match (if s.mainRuns then s.cutoffCycle r.val else none) with | some m => s.passCutoff r.val m | none => s)

/-- A row's rank for placement: group, then cut-off (oldest cycle first for a stretched row), then class S before others, then
row number; as one list compared in order (R63). -/
def State.rankOf (s : State) (gFirst : Bool) (r : Nat) : List Nat :=
  let v := s.row r
  let m := v.job.getD 0
  if v.jobLate then [1, m, s.cutoffOf r (m + 1), 0, r]
  else
    let c := s.classOf r
    let g := if c ≤ 1 then 2 else if c = 2 then (if gFirst then 2 else 3) else 4
    [g, s.cutoffOf r m, if c = 0 then 0 else 1, 0, r]

/-- Whether one rank comes before another. -/
def rankLt : List Nat → List Nat → Bool
  | a :: as, b :: bs => decide (a < b) || (decide (a = b) && rankLt as bs)
  | _, _ => false

/-- The best-ranked of a list of rows, with its rank. -/
def bestOf (l : List (List Nat × Nat)) : Option (List Nat × Nat) :=
  l.foldl (fun b e => match b with | none => some e | some h => if rankLt e.1 h.1 then some e else some h) none

/-- Rows that wait ready for a frame. -/
def State.readyRows (s : State) : List Nat :=
  (s.rows.filter (fun e => decide (s.fget (fSCHED_ROW_STAT_CLAIM e.1) = clReady))).map (fun e => e.1)

/-- The S/F backlog times P: the EST of every ready, unstarted S and F row (R63). -/
def State.backlog (s : State) : Nat :=
  s.rows.foldl (fun a e =>
    let cl := s.fget (fSCHED_ROW_STAT_CLAIM e.1)
    if (decide (clReady ≤ cl) && decide (cl ≤ clLoaded) && e.2.job.isSome && decide (s.classOf e.1 ≤ 1)) = true then
      a + (match s.owner e.1 with | some n => s.fget (fSCHED_P_EST_CLOCKS n) | none => 0)
    else a) 0

/-- Whether class G ranks in group 2 now. -/
def State.gFirst (s : State) : Bool :=
  let k := s.fget fSCHED_G_SLACK_SLACK
  decide (k ≠ 0) && decide (s.backlog ≤ k * s.fget fSCHED_PAIRS_IN_SERVICE)

/-- EST of a frame's row, 0 for an empty frame. -/
def State.frameEst (s : State) (k i : Nat) : Nat :=
  match (s.frame k i).row with
  | some _ => s.fget (fSCHED_P_EST_CLOCKS (s.frame k i).part)
  | none => 0

/-- Press clocks until pair `k` could start another row: what EST leaves of the row it executes, and EST of the row loaded in
its other frame (DESIGN CHOICE, log 19). -/
def State.remaining (s : State) (k i : Nat) : Nat :=
  let x := SMap.get ctx0 s.ctxs k
  let run := if x.running then s.fget (fSCHED_P_EST_CLOCKS x.part) - x.clkUsed else 0
  let o := 1 - i
  run + (if x.running && decide (x.frame = o) then 0 else s.frameEst k o)

/-- Whether a class G or V row chosen for frame `i` of pair `k` passes its cut-off (R64), compared in tenths of ns. -/
def State.tooLate (s : State) (r k i : Nat) : Bool :=
  let n := (s.owner r).getD 0
  decide (s.cutoffOf r ((s.row r).job.getD 0) * 10
    < s.lt.toNat * 10 + (s.remaining k i + s.fget (fSCHED_P_EST_CLOCKS n)) * 8)

/-- Whether the row's work of the cycle before `m` is still in hand, so that its outcome is not decided yet: what PREV_OUTCOME and
PREV_MISSED then tell is not stated, and is free (log 22). -/
def State.prevOpen (s : State) (r m : Nat) : Bool :=
  let v := s.row r
  decide (0 < m) && (v.dec (m - 1)).isNone && v.workAt (m - 1)

/-- What PREV_OUTCOME and PREV_MISSED tell an execution of the row's cycle `m` (R74): a late one what stood when it was stretched. -/
def State.prevTold (s : State) (r m : Nat) (late : Bool) : Nat × Bool :=
  if late then (s.row r).latePrev
  else if s.prevOpen r m then (s.freeW.1.toNat % 16, bitOf s.freeW.1.toNat 8)
  else (s.prevOutcome r m, s.prevMissed r m)

/-- The free value of an undecided previous outcome is used up. -/
def State.prevUsed (s : State) (r m : Nat) (late : Bool) : State := if s.prevOpen r m && !late then s.freeW.2 else s

/-- The scan record and the partition record that a frame load or a scalar start latches (R74; spec/04_judin_model.md R138). -/
def State.sysRecords (s : State) (n r m : Nat) (late : Bool) : List Byte :=
  let lat (i : Nat) : Nat := (s.part n).latched.getD i 0
  leBytes 8 m ++ leBytes 8 (s.tOf m) ++ leBytes 4 (lat 0) ++ leBytes 4 (lat 1) ++ leBytes 4 (lat 2) ++ leBytes 4 (lat 3)
    ++ leBytes 4 (s.fget (fSCHED_P_SLACK_LAST_NS n)) ++ leBytes 4 (s.fget (fSCHED_P_SLACK_MIN_NS n))
    ++ leBytes 4 (s.fget (fSCHED_P_EST_CLOCKS n)) ++ leBytes 4 (s.fget (fPART_BUDGET_BUDGET n))
    ++ leBytes 1 (b2n late + 2 * b2n (s.prevTold r m late).2 + 4 * s.fget fSCHED_STAT_OVERCOMMIT)
    ++ leBytes 1 (s.prevTold r m late).1 ++ leBytes 2 (s.fget (fPART_SCAN_PERIOD n)) ++ leBytes 2 (s.fget (fPART_SCAN_PHASE n))
    ++ leBytes 2 r ++ leBytes 8 0
    ++ leBytes 1 n ++ leBytes 1 (s.fget (fPART_CFG_CLASS n)) ++ leBytes 1 (s.partMode n) ++ leBytes 1 0 ++ leBytes 2 s.bc
    ++ leBytes 2 0 ++ leBytes 8 s.lt.toNat ++ leBytes 8 s.wallSec ++ leBytes 4 s.wallSubNs ++ leBytes 1 s.wall.epoch
    ++ leBytes 3 0 ++ leBytes 4 s.applyOfs ++ leBytes 28 0

/-- Starts the load of row `r` into frame `i` of pair `k` (R65). The system records are latched now, under the settings in force at
the load's issue (spec/03_partitions_fabric.md R115). The load's 288 requests stand as one, under one tag of the loader; the master it serves
is taken as the row's partition, which the spec does not say (DESIGN CHOICE, log 77). -/
def State.loadInto (s : State) (r k i : Nat) : State :=
  let v := s.row r
  let pg := pressPage k
  let n := (s.owner r).getD 0
  let m := v.job.getD 0
  let s0 := (s.passTags (inLoader k) 288).issueReq { tag := s.freeTag, initiator := inLoader k, master := n, ruleEpoch := s.fget fPART_RULE_EPOCH
                                                     tagEpoch := s.tagEpoch (inLoader k), cycle := s.cycle.toNat % 65536, write := false
                                                     addr := rowBase r, bytes := [], cx := none, lanes := 0, waited := 0, frm := some (k, i) }
  let s1 := (s0.setFrame k i { row := some r, part := n, cycle := m, late := v.jobLate, sysrec := s.sysRecords n r m v.jobLate }).prevUsed r m v.jobLate
  let s2 := ((s1.fset (fSCHED_ROW_STAT_CLAIM r) clLoading).fset (fSCHED_ROW_STAT_PAIR r) k).fset (fSCHED_ROW_STAT_LATE r) (b2n v.jobLate)
  if i = 0 then ((s2.fset (fPAIR_FRAME_ROW0 pg) r).fset (fPAIR_FRAME_V0 pg) 1).fset (fPAIR_FRAME_ACT0 pg) 0
  else ((s2.fset (fPAIR_FRAME_ROW1 pg) r).fset (fPAIR_FRAME_V1 pg) 1).fset (fPAIR_FRAME_ACT1 pg) 0

/-- Fills frame `i` of pair `k` with the best-ranked ready row; class G and V rows that cannot meet their cut-off are skipped
on the way, at most `fuel` of them (R63, R64). -/
def State.fillFrame (s : State) (k i : Nat) : Nat → State
  | 0 => s
  | fuel + 1 =>
    let g := s.gFirst
    match bestOf (s.readyRows.map (fun r => (s.rankOf g r, r))) with
    | none => s
    | some (_, r) =>
      if (decide (2 ≤ s.classOf r) && !(s.row r).jobLate && s.tooLate r k i) = true then
        State.fillFrame (s.skipLoad r ((s.row r).job.getD 0)) k i fuel
      else s.loadInto r k i

/-- The spares, as SCHED_SPARE named them at the last transition from STOP to RUN. -/
def State.spares (s : State) : List Nat := s.spareNow

/-- A healthy spare enters service while fewer than 32 pairs serve (R73). -/
def State.enterSpare (s : State) (k : Nat) : State :=
  let n := ((List.range 34).filter (fun j => s.inService j)).length
  if (decide (n < 32) && decide (s.fget (fPAIR_STAT_STATE (pressPage k)) = stSpare)) = true then
    (s.fset (fPAIR_STAT_STATE (pressPage k)) stIdle).fset fSCHED_PAIRS_SPARES_LEFT (s.fget fSCHED_PAIRS_SPARES_LEFT - 1)
  else s

/-- The free frames in the order in which they are filled: those of idle pairs, then the others, each in ascending pair (R63). A pair whose loader finds no tag waits (spec/03_partitions_fabric.md R109). -/
def State.freeFrames (s : State) : List (Nat × Nat) :=
  let fr (k : Nat) : List (Nat × Nat) := ([0, 1].filter (fun i => (s.frame k i).row.isNone)).map (fun i => (k, i))
  let serving := (List.range 34).filter (fun k => s.inService k && s.mayIssue (inLoader k))
  let idle (k : Nat) : Bool := decide (s.fget (fPAIR_STAT_STATE (pressPage k)) = stIdle)
  (serving.filter idle).flatMap fr ++ (serving.filter (fun k => !idle k)).flatMap fr

/-- Loaded, unstarted rows with the frames that hold them. -/
def State.evictable (s : State) : List (Nat × Nat × Nat) :=
  s.frames.filterMap (fun e => match e.2.row with
    | some r => if e.2.loaded && decide (s.fget (fSCHED_ROW_STAT_CLAIM r) = clLoaded) then some (r, e.1 / 2, e.1 % 2) else none
    | none => none)

/-- The loaded, unstarted row of the lowest rank. -/
def State.lowestLoaded (s : State) : Option (List Nat × Nat × Nat × Nat) :=
  let g := s.gFirst
  (s.evictable.map (fun e => (s.rankOf g e.1, e))).foldl (fun b e =>
    match b with | none => some e | some h => if rankLt h.1 e.1 then some e else some h) none

/-- Evictions for stretched rows that find no frame free (R65): the lowest-ranked loaded row gives way where it ranks after the
stretched row. -/
def State.evict (s : State) : Nat → State
  | 0 => s
  | fuel + 1 =>
    let g := s.gFirst
    let late := (s.readyRows.filter (fun r => (s.row r).jobLate)).map (fun r => (s.rankOf g r, r))
    match bestOf late, s.lowestLoaded with
    | some (rk, r), some (lo, _, k, i) =>
      if rankLt rk lo && s.mayIssue (inLoader k) then State.evict ((s.voidFrame k i).loadInto r k i) fuel else s
    | _, _ => s

/-- PLACEMENT_DECISION: spares enter service (R73), the free frames are filled (R63), and stretched rows evict (R65). -/
def execPlacementDecision (s : State) : Out :=
  let s1 := s.spares.foldl (fun t k => t.enterSpare k) s
  let s2 := s1.freeFrames.foldl (fun t ki => t.fillFrame ki.1 ki.2 512) s1
  .next (if s.mainRuns then s2.evict 68 else s)

/-- LATEST_RIPE (R50, R51): a mapped row that has not ripened in cycle `n` takes SKIPPED_NO_HARVEST, where no outcome that comes
first in R71 applies; the port's NO_HARVEST goes with that outcome, NOHARV_RUN with the missed harvest. -/
def State.noHarvestRow (s : State) (r n : Nat) : State :=
  match s.posOf r with
  | none => s
  | some (p, k) =>
    let v := s.row r
    if v.ripe = some n ∨ v.noHarvest = some n then s
    else
      let s0 := s.setRow r { v with noHarvest := some n, convWait := none }
      let s1 := s0.when (decide (s0.idleOutcome r n = some 5)) (fun t => (t.fset fSCHED_STAT_NO_HARVEST 1).assertEv (384 + 4 * p + 1))
      let s2 := s1.fsat (fSCHED_ROW_STAT_NOHARV_RUN r)
      let run := s2.fget (fSCHED_ROW_STAT_NOHARV_RUN r)
      s2.when (decide (run = s2.fget fSCHED_CTRL_NOHARV_LIMIT) && decide (s.fget (fSCHED_ROW_STAT_NOHARV_RUN r) < run)) (fun t =>
        ((t.assertEv 673).cellar 0x0014 r 0 0).when (decide (t.fget (fTRL_POS_STAT_STATE p k) = 3))
          (fun u => u.fset (fTRL_POS_STAT_STATE p k) 5))

/-- A row's step pass of cycle `n` is done: it becomes ready where its partition is in RUN, it is due, and it is not the
follower of a stretched cycle (R46, R63, R69, R84). Work still in hand keeps the new work behind it. -/
def State.readyRow (s : State) (r n : Nat) : State :=
  let v := { s.row r with passed := some n }
  let s1 := s.setRow r v
  match s.owner r with
  | none => s1
  | some q =>
    if (decide (s.partMode q = 0) && s.rowDue q r n && decide (v.stretched.map (· + 1) ≠ some n) && (v.dec n).isNone && !v.counted n) = true then
      if v.job.isSome then s1.setRow r { v with next := v.next ++ [(n, false)] }
      else ((s1.setRow r { v with job := some n, jobLate := false }).restClaim r clReady).fset
        (fSCHED_ROW_STAT_LATE r) 0
    else s1

/-- Counts an outcome for the row's owner and the module (R71, R74). -/
def State.countOutcome (s : State) (r o : Nat) : State :=
  let byPart (f : Nat → Fld) (t : State) : State := match t.owner r with | some n => t.fwrap (f n) | none => t
  if o = 1 then byPart fSCHED_P_SERVED_COUNT s
  else if o = 2 then (byPart fSCHED_P_STRETCHED_COUNT s).fsat fSCHED_CNT_STRETCH_COUNT
  else if 3 ≤ o ∧ o ≤ 7 then
    let s1 := (byPart fSCHED_P_SKIPPED_COUNT s).fsat fSCHED_CNT_SKIP_COUNT
    if o = 5 then (byPart fSCHED_P_NOHARV_COUNT s1).fsat fSCHED_CNT_NOHARV_COUNT else s1
  else s

/-- The outcome of a row's cycle `m` is final: it shows in SCHED_ROW_STAT and counts; what PREV_MISSED tells is noted. -/
def State.commitOutcome (s : State) (r m : Nat) : State :=
  let v := s.row r
  match v.dec m with
  | none => s
  | some o =>
    let due := match s.owner r with | some n => s.rowDue n r m | none => false
    let w := { v with
      decs := v.decs.filter (fun e => decide (m < e.1)), pours := v.pours.filter (fun e => decide (m < e.1))
      outcome := o, poured := some m, dueBefore := v.dueBefore || due
      dueServed := if due then decide (o = 1) else v.dueServed }
    ((s.setRow r w).fset (fSCHED_ROW_STAT_OUTCOME r) o).countOutcome r o

/-- At T(m + 1): every row without work of cycle `m` has its outcome decided; an unmapped row's counts at once (R71, R644). -/
def State.closeCycle (s : State) (m : Nat) : State :=
  (List.range 512).foldl (fun t r =>
    let t1 := t.closeRow r m
    if (t1.posOf r).isNone then (t1.passCutoff r m).commitOutcome r m else t1) s

/-- What cancelling the row's work of cycle `m` leaves (R58): SKIPPED_CANCELLED where it was not stretched; where it was, its slot
after a commit carries nothing. -/
def RowSt.cancel (v : RowSt) (m : Nat) (late commit : Bool) : RowSt :=
  if late then (if commit then v.pour (m + 1) none else v) else v.decide m 6

/-- Drops the work that waits behind a row's work in hand where its cycle lies before `n`, and what of cycle `n − 1` still waits for
its ripeness or its step pass (R58). -/
def State.cancelNext (s : State) (r n : Nat) (commit : Bool) : State :=
  let v := s.row r
  let w := (v.next.filter (fun e => decide (e.1 < n))).foldl (fun (u : RowSt) e => u.cancel e.1 e.2 commit) v
  let open' := decide (0 < n) && (s.mayRipen r (n - 1) || v.mayPass (n - 1)) && (w.dec (n - 1)).isNone && !w.counted (n - 1)
  let w1 := if open' then { w.decide (n - 1) 6 with convWait := none } else w
  s.setRow r { w1 with next := v.next.filter (fun e => decide (n ≤ e.1)) }

/-- Cancels a row's work of cycles before `n` that has not started executing (R58). -/
def State.cancelRow (s0 : State) (r n : Nat) (commit : Bool) : State :=
  let s := s0.cancelNext r n commit
  let v := s.row r
  match v.job with
  | none => s
  | some m =>
    let cl := s.fget (fSCHED_ROW_STAT_CLAIM r)
    if (decide (n ≤ m) || decide (clExec ≤ cl)) = true then s
    else
      (s.setRow r (v.cancel m v.jobLate commit)).releaseRow r

end Sys2Proof.Machine
end

