-- ==== Sys2Proof/Machine/Curves.lean ====
section
/-! DEFINITION. The curve unit (spec/08_conversion_calibration.md R261, R262), shared by conversion and the step sequencer. -/

namespace Sys2Proof.Machine

/-- BAR0 address of the table store's byte offset `o`. -/
def tblAt (o : Nat) : Nat := 0x1000000 + o % 0x800000

/-- A signed 32-bit value of four bytes. -/
def i32At (l : List Byte) (i : Nat) : Int := sgn 32 (leAt l i 4)

/-- Binary search of the segment that holds `x`, between points `lo` and `hi`: at most `fuel` point reads (R262). -/
def State.curveSeg (s : State) (ofs : Nat) (x : Int) (lo hi : Nat) : Nat → Option Nat × State
  | 0 => (some lo, s)
  | fuel + 1 =>
    if hi ≤ lo + 1 then (some lo, s)
    else
      let mid := (lo + hi) / 2
      match s.tblRd (tblAt (ofs + mid * 8)) 4 with
      | (none, t) => (none, t)
      | (some l, t) => if i32At l 0 ≤ x then State.curveSeg t ofs x mid hi fuel else State.curveSeg t ofs x lo mid fuel

/-- Reads point `j` of a curve. -/
def State.curvePt (s : State) (ofs j : Nat) : Option (Int × Int) × State :=
  match s.tblRd (tblAt (ofs + j * 8)) 8 with
  | (none, t) => (none, t)
  | (some l, t) => (some (i32At l 0, i32At l 4), t)

/-- The interpolation between points `j` and `j + 1`; fails where they do not increase. -/
def State.curveAt (s : State) (ofs j : Nat) (x : Int) : Option Int × State :=
  match s.curvePt ofs j with
  | (none, t) => (none, t)
  | (some (x0, y0), t) =>
    match t.curvePt ofs (j + 1) with
    | (none, u) => (none, u)
    | (some (x1, y1), u) =>
      if x1 ≤ x0 then (none, u) else (some (y0 + roundHalf ((x - x0) * (y1 - y0)) (x1 - x0)), u)

/-- The directory entry of curve `c`: offset and count, where it is valid (R261, R262). -/
def State.curveDir (s : State) (c : Nat) : Option (Nat × Nat) × State :=
  match s.tblRd (tblAt (s.fget fCONV_TBL_CURVE_BASE * 4096 + c * 8)) 8 with
  | (none, t) => (none, t)
  | (some l, t) =>
    let ofs := leAt l 0 4
    let cnt := leAt l 4 2
    if (decide (ofs < 2 ^ 23) && decide (ofs % 8 = 0) && decide (2 ≤ cnt) && decide (cnt ≤ 256) && decide (leAt l 6 2 = 1)) = true then
      (some (ofs, cnt), t) else (none, t)

/-- Curve `c` at `x`; none where the evaluation fails (R262). -/
def State.curve (s : State) (c : Nat) (x : Int) : Option Int × State :=
  match s.curveDir c with
  | (none, t) => (none, t)
  | (some (ofs, cnt), t) =>
    match t.curvePt ofs 0 with
    | (none, u) => (none, u)
    | (some (x0, y0), u) =>
      if x ≤ x0 then (some y0, u)
      else
        match u.curvePt ofs (cnt - 1) with
        | (none, w) => (none, w)
        | (some (xn, yn), w) =>
          if xn ≤ x then (some yn, w)
          else
            match w.curveSeg ofs x 0 (cnt - 1) 8 with
            | (none, v) => (none, v)
            | (some j, v) => v.curveAt ofs j x

end Sys2Proof.Machine
end

