-- ==== Sys2Proof/Machine/Ledger.lean ====
section
/-! DEFINITION. The bus ledger: estimates, requests, tentative bookings, the boundary walk and shedding (spec/09_bus_ledger.md). -/

namespace Sys2Proof.Machine

/-- A bus. -/
def State.bus (s : State) (b : Nat) : LedgBus := SMap.get bus0 s.ledgBuses b

/-- Sets a bus. -/
def State.setBus (s : State) (b : Nat) (v : LedgBus) : State := { s with ledgBuses := SMap.put bus0 b v s.ledgBuses }

/-- What is kept of a channel. -/
def State.ch (s : State) (c : Nat) : ChX := SMap.get chx0 s.chx c

/-- Sets what is kept of a channel. -/
def State.setCh (s : State) (c : Nat) (v : ChX) : State := { s with chx := SMap.put chx0 c v s.chx }

/-- The bus of a channel's row (R282). -/
def State.busOf (s : State) (ch : Nat) : Nat := s.fget (fLEDG_ROW_BUS_BUS (ch / 256))

/-- BAR0 address of a channel's ledger record (R293). -/
def State.ledgRec (s : State) (ch : Nat) : Nat := 0x1000000 + s.fget fLEDG_TBL_CH_BASE * 4096 + ch * 4

/-- A channel's booked value, mW. -/
def State.booked (s : State) (ch : Nat) : Int := sgn 24 (s.rdLE (s.ledgRec ch) 3)

/-- Sets STATE and CAUSE of a channel's record. -/
def State.ledgMark (s : State) (ch state cause : Nat) : State := s.tblWr (s.ledgRec ch + 3) (leBytes 1 (state + 8 * cause))

/-- Record states and causes (R293). -/
abbrev lsNone : Nat := 0
abbrev lsWait : Nat := 1
abbrev lsTent : Nat := 2
abbrev lsTentWait : Nat := 3
abbrev lsPaused : Nat := 4
abbrev lsRefused : Nat := 5
abbrev lcNone : Nat := 0
abbrev lcBudget : Nat := 1
abbrev lcQueued : Nat := 2
abbrev lcDelayed : Nat := 3
abbrev lcHoldoff : Nat := 4
abbrev lcTooLarge : Nat := 5
abbrev lcQueueFull : Nat := 6
abbrev lcShedImp : Nat := 7
abbrev lcShedExp : Nat := 8
abbrev lcExpired : Nat := 9
abbrev lcCancelled : Nat := 10
abbrev lcRevoked : Nat := 11

/-- Request classes (R288). -/
abbrev clsSafety : Nat := 0
abbrev clsContinuing : Nat := 1
abbrev clsNew : Nat := 2
abbrev clsGrade : Nat := 3

/-- Magnitude of a value on the import side, or on the export side. -/
def sideImp (v : Int) : Nat := v.toNat
def sideExp (v : Int) : Nat := (-v).toNat

/-- A sum as its 32-bit register shows it: a larger one reads 0xFFFFFFFF, while the ledger keeps it exactly (R283; DESIGN CHOICE,
log 80). -/
def show32 (x : Nat) : Nat := min x 0xFFFFFFFF

/-- Sets a bus, and the registers that show its four sums (R283). -/
def State.setSums (s : State) (b : Nat) (k : LedgBus) : State :=
  ((((s.setBus b k).fset (fLEDG_BUS_IMP_BOOKED_MW b) (show32 k.sumImp)).fset (fLEDG_BUS_EXP_BOOKED_MW b) (show32 k.sumExp)).fset
    (fLEDG_BUS_IMP_TENT_MW b) (show32 k.tentImp)).fset (fLEDG_BUS_EXP_TENT_MW b) (show32 k.tentExp)

/-- A booked value leaves a bus's sums and another enters them. -/
def State.bookSum (s : State) (b : Nat) (v o : Int) : State :=
  let k := s.bus b
  s.setSums b { k with sumImp := k.sumImp + sideImp v - sideImp o, sumExp := k.sumExp + sideExp v - sideExp o }

/-- Sets a channel's booked value and the bus's booked sums (R283). -/
def State.setBooked (s : State) (ch : Nat) (v : Int) : State :=
  (s.tblWr (s.ledgRec ch) (leBytes 3 (unsgn 24 v))).bookSum (s.busOf ch) v (s.booked ch)

/-- Adds or takes a tentative booking's capacity. -/
def State.tentSum (s : State) (b : Nat) (v : Int) (hold : Bool) : State :=
  let k := s.bus b
  if hold then s.setSums b { k with tentImp := k.tentImp + sideImp v, tentExp := k.tentExp + sideExp v }
  else s.setSums b { k with tentImp := k.tentImp - sideImp v, tentExp := k.tentExp - sideExp v }

/-- Sets the queue and what LEDG_QUEUE and LEDG_BUS_STAT[b] tell of it. -/
def State.setQ (s : State) (b : Nat) (l : List LedgEnt) : State :=
  let n := l.length
  let s1 := { s with ledgQ := l }
  let mine := l.filter (fun e => decide (s.busOf e.ch = b))
  let s2 := (s1.fset fLEDG_QUEUE_IN_USE n).fset fLEDG_QUEUE_HWM (max n (s.fget fLEDG_QUEUE_HWM))
  (s2.fset (fLEDG_BUS_STAT_WAITING b) (mine.filter (fun e => e.kind = .wait || e.kind = .tentWait)).length).fset
    (fLEDG_BUS_STAT_PAUSED b) (mine.filter (fun e => e.kind = .paused)).length

/-- A row goes over to another bus (R282, R283): `s0` is the state before. What its channels still book and hold moves to the new bus's
sums, and both buses count their queue entries anew. -/
def State.moveRow (s0 s : State) (r : Nat) : State :=
  let o := s0.busOf (r * 256)
  let b := s.busOf (r * 256)
  if o = b then s
  else
    let s1 := (List.range 256).foldl (fun t l =>
      let v := s0.booked (r * 256 + l)
      if v = 0 then t else (t.bookSum o 0 v).bookSum b v 0) s
    let s2 := (s0.ledgQ.filter (fun e => decide (e.ch / 256 = r) && e.kind = .tentative)).foldl
      (fun t e => (t.tentSum o e.amount false).tentSum b e.amount true) s1
    (s2.setQ o s2.ledgQ).setQ b s2.ledgQ

/-- Clamp of powers to the range of BOOKED (R285). -/
def clampMw (x : Int) : Int := clampI (-8388607) 8388607 x

/-- Cell power of a step (R285): mode, I_SET as its field is read, V_SET, and V_live. -/
def cellPower (mode : Nat) (iSet : Int) (vSet vLive : Int) : Int :=
  if mode ≤ 1 then 0
  else if mode = 5 then clampMw iSet
  else if mode = 3 then
    clampMw (if vLive ≤ vSet then divUp (vSet * iSet.natAbs * 10) 1000000000 else divUp (-(vLive * iSet.natAbs * 10)) 1000000000)
  else
    clampMw (if 0 ≤ iSet then divUp (vSet * iSet * 10) 1000000000 else divUp (-(vLive * iSet.natAbs * 10)) 1000000000)

/-- A cell-side power scaled by the bus factor of its direction (R285). -/
def State.scaled (s : State) (b : Nat) (p : Int) : Int :=
  let k := s.bus b
  if 0 < p then divUp (p * k.kImp) 1024 else divUp (p * k.kExp) 1024

/-- The bus-side estimate of a cell-side power (R285). -/
def State.busSide (s : State) (b : Nat) (p : Int) : Int :=
  clampMw (s.scaled b p)

/-- Whether an estimate raises the import or the export above the booked value (R287). -/
def raises (booked est : Int) : Bool := decide (sideImp booked < sideImp est) || decide (sideExp booked < sideExp est)

/-- Whether a request fits beside the given tentative sums (R284). -/
def State.fitsWith (s : State) (b : Nat) (v : Int) (tImp tExp : Nat) : Bool :=
  let k := s.bus b
  !k.en || (if 0 < v then decide (k.sumImp + tImp + sideImp v ≤ k.impBudget)
    else if v < 0 then decide (k.sumExp + tExp + sideExp v ≤ k.expBudget) else true)

/-- Whether a request fits now. -/
def State.fits (s : State) (b : Nat) (v : Int) : Bool :=
  s.fitsWith b v (s.bus b).tentImp (s.bus b).tentExp

/-- Whether an estimate alone exceeds the budget of its side (R292). -/
def State.tooLarge (s : State) (b : Nat) (v : Int) : Bool :=
  let k := s.bus b
  k.en && (decide (k.impBudget < sideImp v) || decide (k.expBudget < sideExp v))

/-- Kinds of entry that are requests, and kinds that are pre-bookings. -/
def LedgEnt.asks (e : LedgEnt) : Bool := e.kind = .wait || e.kind = .paused
def LedgEnt.books (e : LedgEnt) : Bool := e.kind = .tentative || e.kind = .tentWait

/-- An entry's rank (R289). -/
def LedgEnt.rank (e : LedgEnt) : List Nat := [e.cls, if e.cls = clsNew then e.prio else 0, e.date, e.ch]

/-- Order of two lists, place by place. -/
def lexLt : List Nat → List Nat → Bool
  | a :: as, b :: bs => decide (a < b) || (decide (a = b) && lexLt as bs)
  | _, _ => false

/-- Inserts an entry in rank order. -/
def insEnt (e : LedgEnt) : List LedgEnt → List LedgEnt
  | [] => [e]
  | h :: t => if lexLt e.rank h.rank then e :: h :: t else h :: insEnt e t

/-- Entries in rank order. -/
def sortEnts (l : List LedgEnt) : List LedgEnt := l.foldl (fun a e => insEnt e a) []

/-- The queue entries of bus `b` of the kinds that wait: requests and resumes. -/
def State.waiting (s : State) (b : Nat) : List LedgEnt :=
  s.ledgQ.filter (fun e => decide (s.busOf e.ch = b) && e.asks)

/-- The request is admitted: its amount is booked (R290). -/
def State.ledgAdmit (s : State) (ch : Nat) (v : Int) : State :=
  ((s.setBooked ch v).ledgMark ch lsNone lcNone).fsat fLEDG_CNT_ADMIT_COUNT

/-- The request is answered REFUSED (R292). -/
def State.ledgRefuse (s : State) (ch cause : Nat) : State :=
  let s1 := ((s.ledgMark ch lsRefused cause).fsat fLEDG_CNT_REFUSED_COUNT).fset fLEDG_STAT_REFUSED 1
  (s1.setCh ch { s1.ch ch with answer := 2 }).assertEv 689

/-- Removes the queue entries that satisfy `p`; a holding pre-booking's capacity is freed. -/
def State.ledgDropWhere (s : State) (b : Nat) (p : LedgEnt → Bool) : State :=
  let s1 := (s.ledgQ.filter p).foldl (fun t e => if e.kind = .tentative then t.tentSum b e.amount false else t) s
  s1.setQ b (s.ledgQ.filter (fun e => !p e))

/-- The channel's record after some of its entries have ended (R293): what a pre-booking left over shows, else NONE. -/
def State.ledgEnded (s : State) (ch : Nat) : State :=
  match s.ledgQ.find? (fun e => decide (e.ch = ch)) with
  | none => s.ledgMark ch lsNone lcNone
  | some e => if e.kind = .tentative then s.ledgMark ch lsTent lcNone else if e.kind = .tentWait then s.ledgMark ch lsTentWait lcNone else s

/-- Ends the entries of channel `ch` that satisfy `p`: their request or booking is outstanding no longer, and the record says so. -/
def State.ledgEnd (s : State) (ch : Nat) (p : LedgEnt → Bool) : State :=
  let q (e : LedgEnt) : Bool := decide (e.ch = ch) && p e
  if s.ledgQ.any q then (s.ledgDropWhere (s.busOf ch) q).ledgEnded ch else s

/-- Ends a channel's waiting request or resume request. -/
def State.ledgDrop (s : State) (ch : Nat) : State := s.ledgEnd ch LedgEnt.asks

/-- Ends a channel's pre-booking that is not cancelled. -/
def State.ledgUnbook (s : State) (ch : Nat) : State := s.ledgEnd ch (fun e => !e.cancelled && e.books)

/-- Ends every queue entry of a channel. -/
def State.ledgClear (s : State) (ch : Nat) : State := s.ledgEnd ch (fun _ => true)

/-- Marks a pre-booking's state and cause; a waiting or paused step's record keeps its own (R299). -/
def State.tentMark (s : State) (ch state cause : Nat) : State :=
  if s.ledgQ.any (fun q => decide (q.ch = ch) && q.asks) then s else s.ledgMark ch state cause

/-- Why a request that does not fit waits (R290, R293): whether it would fit with no holding tentative booking counted. -/
def State.waitCause (s : State) (b : Nat) (v : Int) : Nat := if s.fitsWith b v 0 0 then lcDelayed else lcBudget

/-- Whether the bus is in its hold-off in cycle `n` (R299); a bus with EN = 0 admits every request at once (R284). -/
def State.holding (s : State) (b n : Nat) : Bool := (s.bus b).en && decide (n < (s.bus b).holdUntil)

/-- A request of channel `ch` for `v` mW in class `cls`, dated from cycle `date` (R290): SAFETY is admitted at once (R288), as is
every request of a bus with EN = 0 (R284). The channel's earlier booking has been released. The answer is left for the
step sequencer where it is REFUSED; the result says whether it was admitted. A WAIT code of NONE refuses what is not
admitted in its pass (R229). -/
def State.ledgAsk (s0 : State) (ch cls prio date : Nat) (v : Int) (noWait : Bool) : Bool × State :=
  let s := s0.setBooked ch 0
  let b := s.busOf ch
  let e : LedgEnt := { kind := .wait, ch := ch, cls := cls, prio := prio, date := date, amount := v, horizon := 0, cancelled := false }
  let join (cause : Nat) : Bool × State :=
    if 8192 ≤ s.ledgQ.length then (false, (s.ledgRefuse ch lcQueueFull).fset fLEDG_STAT_QUEUE_FULL 1)
    else if noWait then (false, s.ledgRefuse ch cause)
    else (false, ((s.setQ b (s.ledgQ ++ [e])).ledgMark ch lsWait cause).fsat fLEDG_CNT_WAIT_COUNT)
  if cls = clsSafety ∨ (s.bus b).en = false then (true, s.ledgAdmit ch v)
  else if s.tooLarge b v then (false, s.ledgRefuse ch lcTooLarge)
  else if s.holding b s.cycle.toNat then join lcHoldoff
  else if s.fits b v then
    (if (s.waiting b).any (fun w => lexLt w.rank e.rank) then join lcQueued else (true, s.ledgAdmit ch v))
  else join (s.waitCause b v)

/-- A channel's pre-booking, if it stands. -/
def State.booking (s : State) (ch : Nat) : Option LedgEnt :=
  s.ledgQ.find? (fun e => decide (e.ch = ch) && !e.cancelled && e.books)

/-- The step sequencer cancels a channel's pre-booking; it is freed at the next boundary (R247, R296). -/
def State.cancelBooking (s : State) (ch : Nat) : State :=
  { s with ledgQ := s.ledgQ.map (fun e =>
      if (decide (e.ch = ch) && e.books) = true then { e with cancelled := true } else e) }

/-- Posts a pre-booking (R294); not posted where no queue entry is free. -/
def State.prebook (s : State) (ch cls prio : Nat) (v : Int) (k : Nat) : Bool × State :=
  let b := s.busOf ch
  let n := s.cycle.toNat
  if 8192 ≤ s.ledgQ.length then (false, s.fset fLEDG_STAT_QUEUE_FULL 1)
  else
    let e : LedgEnt := { kind := .tentWait, ch := ch, cls := cls, prio := prio, date := n, amount := v, horizon := k, cancelled := false }
    let s1 := s.fsat fLEDG_CNT_TENT_COUNT
    let hold : Bool × State := (true, ((s1.tentSum b v true).setQ b (s.ledgQ ++ [{ e with kind := .tentative }])).ledgMark ch lsTent lcNone)
    let join (cause : Nat) : Bool × State := (true, (s1.setQ b (s.ledgQ ++ [e])).ledgMark ch lsTentWait cause)
    if cls = clsSafety then hold
    else if s.holding b n then join lcHoldoff
    else if s.fits b v then (if (s.waiting b).any (fun w => lexLt w.rank e.rank) then join lcQueued else hold)
    else join (s.waitCause b v)

/-- The step moves to NEXT with a pre-booking standing (R296). -/
def State.useBooking (s : State) (ch : Nat) (e : LedgEnt) (prio : Nat) (noWait : Bool) : Bool × State :=
  if e.kind = .tentative then
    (true, ((s.ledgUnbook ch).ledgAdmit ch e.amount).fsat fLEDG_CNT_TENT_USED_COUNT)
  else (s.ledgUnbook ch).ledgAsk ch e.cls prio e.date e.amount noWait

/-- Frees a pre-booking with a cause (R291); the record of a channel with a waiting or paused entry keeps that entry's state, and
REFUSED stays until the next request (R293). -/
def State.freeBooking (s : State) (e : LedgEnt) (cause : Nat) : State :=
  let s1 := s.ledgDropWhere (s.busOf e.ch) (fun q => decide (q = e))
  let st := s1.rdLE (s1.ledgRec e.ch + 3) 1 % 8
  if s1.ledgQ.any (fun q => decide (q.ch = e.ch)) || decide (st = lsRefused) then s1 else s1.ledgMark e.ch lsNone cause

/-- Expired and cancelled bookings of a bus are freed at T(n) (R291, R294). -/
def State.freeBookings (s : State) (b n : Nat) : State :=
  (s.ledgQ.filter (fun e => decide (s.busOf e.ch = b) && e.books)).foldl (fun t e =>
    if e.cancelled then t.freeBooking e lcCancelled
    else if e.date + e.horizon + 1 ≤ n then t.freeBooking e lcExpired
    else t) s

/-- Holding tentative bookings of bus `b` in classes lower than `cls`, youngest first (R295). -/
def State.revocable (s : State) (b cls : Nat) : List LedgEnt :=
  let l := s.ledgQ.filter (fun e => decide (s.busOf e.ch = b) && e.kind = .tentative && decide (cls < e.cls))
  l.foldl (fun a e => (a.takeWhile (fun h => decide (e.date < h.date))) ++ e :: (a.dropWhile (fun h => decide (e.date < h.date)))) []

/-- Revokes bookings of a list until `v` fits. -/
def State.revokeUntil (s : State) (b : Nat) (v : Int) : List LedgEnt → State
  | [] => s
  | e :: l =>
    if s.fits b v then s
    else State.revokeUntil (((s.freeBooking e lcRevoked).fsat fLEDG_CNT_REVOKED_COUNT).fset fLEDG_STAT_REVOKED 1) b v l

/-- A waiting entry is admitted at the walk: its amount is booked and the answer is left for its pass (R246, R291). -/
def State.walkAdmit (s : State) (e : LedgEnt) : State :=
  let s1 := (s.ledgDrop e.ch).ledgAdmit e.ch e.amount
  s1.setCh e.ch { s1.ch e.ch with answer := 1 }

/-- Marks a waiting request's cause; a paused step's record keeps its own (R299). -/
def State.walkWait (s : State) (e : LedgEnt) (cause : Nat) : State :=
  if e.kind = .wait then s.ledgMark e.ch lsWait cause else s

/-- The walk over the waiting requests of a bus in rank order; `stop` once one has not fitted (R291, R295). -/
def State.walkReq (s : State) (b n : Nat) (stop : Bool) : List LedgEnt → State
  | [] => s
  | e :: l =>
    if e.kind = .wait ∧ s.tooLarge b e.amount = true then
      State.walkReq ((s.ledgDrop e.ch).ledgRefuse e.ch lcTooLarge) b n stop l
    else if s.holding b n then State.walkReq (s.walkWait e lcHoldoff) b n stop l
    else if stop then State.walkReq (s.walkWait e lcQueued) b n stop l
    else if s.fits b e.amount then State.walkReq (s.walkAdmit e) b n stop l
    else
      let rv := s.revocable b e.cls
      let tImp := (s.bus b).tentImp - (rv.map (fun q => sideImp q.amount)).sum
      let tExp := (s.bus b).tentExp - (rv.map (fun q => sideExp q.amount)).sum
      if s.fitsWith b e.amount tImp tExp then State.walkReq ((s.revokeUntil b e.amount rv).walkAdmit e) b n stop l
      else State.walkReq (s.walkWait e (s.waitCause b e.amount)) b n true l

/-- Pending tentative bookings are tried in rank order, none in hold-off (R291, R299). One that goes on waiting has its cause set afresh
(DEDUCED, log 81). -/
def State.walkTent (s : State) (b n : Nat) : List LedgEnt → State
  | [] => s
  | e :: l =>
    if s.holding b n then State.walkTent (s.tentMark e.ch lsTentWait lcHoldoff) b n l
    else if s.fits b e.amount then
      State.walkTent (((s.tentSum b e.amount true).setQ b
        (s.ledgQ.map (fun q => if q = e then { q with kind := .tentative } else q))).tentMark e.ch lsTent lcNone) b n l
    else State.walkTent (s.tentMark e.ch lsTentWait (s.waitCause b e.amount)) b n l

/-- Takes a bus's configuration in force at the boundary (R284). -/
def State.latchBus (s : State) (b : Nat) : State :=
  s.setBus b { s.bus b with
    en := s.fbit (fLEDG_BUS_CFG_EN b), holdoff := s.fget (fLEDG_BUS_CFG_HOLDOFF b), confirm := s.fget (fLEDG_BUS_CFG_CONFIRM b)
    kImp := s.fget (fLEDG_BUS_K_K_IMP b), kExp := s.fget (fLEDG_BUS_K_K_EXP b)
    impBudget := s.fget (fLEDG_BUS_IMP_BUDGET_MW b), expBudget := s.fget (fLEDG_BUS_EXP_BUDGET_MW b)
    impShed := s.fget (fLEDG_BUS_IMP_SHED_MW b), expShed := s.fget (fLEDG_BUS_EXP_SHED_MW b) }

/-- Closes the measured sums of a bus: the contributions of its rows' latest passes (R286). -/
def State.closeMeas (s : State) (b : Nat) : State :=
  let l := s.rowMeas.filter (fun e => decide (s.fget (fLEDG_ROW_BUS_BUS e.1) = b))
  let imp : Int := l.foldl (fun a e => a + e.2.1) 0
  let exp : Int := l.foldl (fun a e => a + e.2.2) 0
  (s.fset (fLEDG_BUS_IMP_MEAS_MW b) (show32 imp.toNat)).fset (fLEDG_BUS_EXP_MEAS_MW b) (show32 exp.toNat)

/-- The overload test of a bus at T(n) and, with EN = 1, its quota and hold-off (R297, R299). Quota left of the cycle before is
dropped (R298). -/
def State.overloadTest (s : State) (b n : Nat) : State :=
  let k := s.bus b
  let im := s.fget (fLEDG_BUS_IMP_MEAS_MW b)
  let ex := s.fget (fLEDG_BUS_EXP_MEAS_MW b)
  let ci := if k.impShed < im then min 15 (k.overImp + 1) else 0
  let ce := if k.expShed < ex then min 15 (k.overExp + 1) else 0
  let oi := decide (k.confirm ≤ ci)
  let oe := decide (k.confirm ≤ ce)
  let shed := k.en && (oi || oe)
  let s1 := (s.setBus b { k with
    overImp := ci, overExp := ce, shedFirst := (k.lastRow + 1) % 512
    quotaImp := if k.en && oi then im - k.impBudget else 0
    quotaExp := if k.en && oe then ex - k.expBudget else 0
    holdUntil := if shed then max k.holdUntil (n + k.holdoff) else k.holdUntil })
  let s2 := ((s1.fset (fLEDG_BUS_STAT_OVL_IMP b) (b2n oi)).fset (fLEDG_BUS_STAT_OVL_EXP b) (b2n oe))
  let s3 := s2.when shed (fun t => ((t.fsat (fLEDG_BUS_CNT_SHED_COUNT b)).fset fLEDG_STAT_SHED 1).assertEv 688)
  s3.fset (fLEDG_BUS_STAT_HOLDOFF b) (b2n (s3.holding b n))

/-- The walk of a bus at T(n) (R291); a sum above its budget shows in OVER_BOOKED. -/
def State.walkBus (s : State) (b n : Nat) : State :=
  let s1 := s.freeBookings b n
  let s2 := s1.walkReq b n false (sortEnts (s1.waiting b))
  let tents := s2.ledgQ.filter (fun e => decide (s2.busOf e.ch = b) && e.kind = .tentWait && !e.cancelled)
  let s3 := s2.walkTent b n (sortEnts tents)
  let k := s3.bus b
  s3.when (k.en && (decide (k.impBudget < k.sumImp) || decide (k.expBudget < k.sumExp)))
    (fun t => t.fset fLEDG_STAT_OVER_BOOKED 1)

/-- A channel's measured bus-side power (R286). -/
def State.measured (s : State) (b : Nat) (v i : Int) : Int := s.scaled b (roundHalf (v * i) 1000000000)

/-- A channel is paused by shedding (R298). -/
def State.ledgPause (s : State) (ch cls prio : Nat) (v : Int) (imp : Bool) : State :=
  let b := s.busOf ch
  let k := s.bus b
  let e : LedgEnt := { kind := .paused, ch := ch, cls := cls, prio := prio, date := s.cycle.toNat, amount := v, horizon := 0, cancelled := false }
  let s1 := s.setBus b { k with
    quotaImp := if imp then k.quotaImp - sideImp v else k.quotaImp
    quotaExp := if imp then k.quotaExp else k.quotaExp - sideExp v
    lastRow := ch / 256 }
  (((s1.setBooked ch 0).setQ b (s.ledgQ ++ [e])).ledgMark ch lsPaused (if imp then lcShedImp else lcShedExp)).fsat fLEDG_CNT_PAUSED_COUNT

end Sys2Proof.Machine
end

