-- ==== Sys2Proof/Machine/Results.lean ====
section
/-! DEFINITION. Staging of result records (spec/15_host_mailboxes.md R457, R458, R461). -/

namespace Sys2Proof.Machine

/-- BAR0 address of staging slot `k`. -/
def State.stageSlot (s : State) (k : Nat) : Nat := 0x1000000 + s.fget fHOST_TBL_STAGE_BASE * 4096 + k * 64

/-- Staging slots taken. -/
def State.stageUse (s : State) : State :=
  let n := s.staged.length
  (s.fset fHOST_STAGE_USE_IN_USE n).fset fHOST_STAGE_USE_HWM (max n (s.fget fHOST_STAGE_USE_HWM))

/-- The lowest staging slot not taken. -/
def State.freeSlot (s : State) : Nat :=
  ((List.range 2048).find? (fun k => s.staged.all (fun e => decide (e.slot ≠ k)))).getD 0

/-- Wall seconds at a line time (spec/16_engineering_time.md R491, R496). -/
def State.wallSecAt (s : State) (lt : Nat) : Nat :=
  match s.wall.hold with
  | some _ => s.wallSec
  | none => (((lt : Int) * 65536 + s.wall.off) / 65536 / 1000000000).toNat % 2 ^ 40

/-- Loss `a` taken together with losses `b` of the same partition (R461): the first and the last lost record, and the count. -/
def Loss.join (a b : Loss) : Loss :=
  let f := if a.lt ≤ b.lt then a else b
  { f with ltLast := max a.ltLast b.ltLast, count := min (a.count + b.count) 0xFFFFFFFF }

/-- Records lost in partition `l.part` wait to be told (R461). -/
def State.addLoss (s : State) (l : Loss) : State :=
  match s.losses.find? (fun k => decide (k.part = l.part)) with
  | some k => { s with losses := (s.losses.filter (fun j => decide (j.part ≠ l.part))) ++ [k.join l] }
  | none => { s with losses := s.losses ++ [l] }

/-- A result record of partition `n` is lost (R457). -/
def State.loseResult (s : State) (n q lt : Nat) : State :=
  let s1 := ((s.fsat (fHOST_RQ_LOST_COUNT n)).fset fHOST_STAT_RQ_LOSS 1).fset (fHOST_RQ_STAT_LOSS_PEND q) 1
  (s1.addLoss { part := n, lt := lt, wallSec := s.wallSecAt lt, wallEpoch := s.wall.epoch, ltLast := lt, count := 1 }).when
    (s.losses.all (fun l => decide (l.part ≠ n))) (fun t => t.assertEv 687)

/-- Stages a 64-byte result record of partition `n` (R457, R458): to queue 0, to queue n + 1, or not at all. -/
def State.stageResult (s : State) (n lt : Nat) (data : List Byte) : State :=
  let route := s.fget (fHOST_RQ_ROUTE_ROUTE n)
  if route = 2 then s.fsat (fHOST_RQ_LOST_COUNT n)
  else
    let q := if route = 1 then n + 1 else 0
    let mine := (s.staged.filter (fun e => decide (e.queue = q))).length
    if (decide (2048 ≤ s.staged.length) || decide (256 ≤ mine) || !s.fbit (fHOST_RQ_CFG_EN q) || !s.fnExists q) = true then s.loseResult n q lt
    else
      let k := s.freeSlot
      let loss := s.losses.find? (fun l => decide (l.part = n))
      let s1 := { s.tblWr (s.stageSlot k) data with
        staged := s.staged ++ [({ queue := q, slot := k, data := data, loss := loss } : Staged)]
        losses := s.losses.filter (fun l => decide (l.part ≠ n)) }
      ((s1.stageUse.fset (fHOST_RQ_STAT_STAGED q) (mine + 1)).fsat fSTEP_CNT_RESULT_COUNT).assertEv 686

end Sys2Proof.Machine
end

