-- ==== Sys2Proof/Machine/StepTable.lean ====
section
/-! DEFINITION. Step entries, limit sets and step states as the step sequencer reads and writes them (spec/07_step_sequencer.md R221 … R244). -/

namespace Sys2Proof.Machine

/-- A step state (R236, R237). -/
structure StepSt where
  step : Nat
  status : Nat
  flags : Nat
  elapsed : Nat
  loop : Nat
  charge : Int
  energy : Int
  lastEnd : Nat
  deb : Nat
  trackV : Nat
  age : Nat
  qFrac : Nat
  eFrac : Nat
  deriving DecidableEq, Repr

/-- STATUS values (R238). -/
abbrev ssIdle : Nat := 0
abbrev ssRunning : Nat := 1
abbrev ssAwait : Nat := 2
abbrev ssPaused : Nat := 3
abbrev ssHeld : Nat := 4
abbrev ssFault : Nat := 5
abbrev ssDone : Nat := 6

/-- The END index (R225). -/
abbrev stepEnd : Nat := 0x7FFF

/-- BAR0 address of a channel's step state. -/
def stepAddr (ch : Nat) : Nat := rowBase (ch / 256) + 0x3000 + ch % 256 * 32

/-- Reads a step state from its 32 bytes. -/
def stepOf (l : List Byte) : StepSt :=
  { step := leAt l 0 2, status := leAt l 2 1, flags := leAt l 3 1, elapsed := leAt l 4 5, loop := leAt l 9 1
    charge := sgn 48 (leAt l 0x0A 6), energy := sgn 48 (leAt l 0x10 6), lastEnd := leAt l 0x16 1, deb := leAt l 0x17 1
    trackV := leAt l 0x18 3, age := leAt l 0x1B 1, qFrac := leAt l 0x1C 2, eFrac := leAt l 0x1E 2 }

/-- A step state's 32 bytes. -/
def StepSt.bytes (t : StepSt) : List Byte :=
  leBytes 2 t.step ++ leBytes 1 t.status ++ leBytes 1 t.flags ++ leBytes 5 t.elapsed ++ leBytes 1 t.loop
    ++ leBytes 6 (unsgn 48 t.charge) ++ leBytes 6 (unsgn 48 t.energy) ++ leBytes 1 t.lastEnd ++ leBytes 1 t.deb
    ++ leBytes 3 t.trackV ++ leBytes 1 t.age ++ leBytes 2 t.qFrac ++ leBytes 2 t.eFrac

/-- A channel's step state. -/
def State.stepSt (s : State) (ch : Nat) : StepSt := stepOf (s.rdList (stepAddr ch) 32)

/-- Inserts a number into an ascending list without repeats. -/
def insNat (n : Nat) : List Nat → List Nat
  | [] => [n]
  | h :: t => if n < h then n :: h :: t else if n = h then h :: t else h :: insNat n t

/-- Writes a channel's step state; a change of STEP, STATUS or LOOP marks the step-event map (spec/14_racking_standby.md R432). -/
def State.setStep (s : State) (ch : Nat) (t : StepSt) : State :=
  let o := s.stepSt ch
  let s1 := s.wrBytes (stepAddr ch) t.bytes
  if (decide (o.step = t.step) && decide (o.status = t.status) && decide (o.loop = t.loop)) = true then s1
  else { s1 with stepMap := insNat ch s1.stepMap }

/-- Whether the channel runs, waits, is paused or is held. -/
def StepSt.live (t : StepSt) : Bool := decide (1 ≤ t.status) && decide (t.status ≤ 4)

/-- Bit `i` of FLAGS set or cleared. -/
def StepSt.setFlag (t : StepSt) (i : Nat) (b : Bool) : StepSt := { t with flags := setBits t.flags i i (b2n b) }

/-- A termination comparator (R230). -/
structure Cmp where
  qty : Nat
  confirm : Nat
  isAnd : Bool
  op : Nat
  act : Nat
  thresh : Int
  raw : Nat
  deriving DecidableEq, Repr

/-- A step entry with its limit set (R226, R234). -/
structure StepEnt where
  mode : Nat
  flags : Nat
  iSet : Int
  vSet : Nat
  k : Nat
  wait : Nat
  loopN : Nat
  next : Nat
  alt : Nat
  refused : Nat
  terms : List Cmp
  vMax : Nat
  vMin : Nat
  iMax : Nat
  tMax : Int
  dvdtW : Nat
  limConfirm : Nat
  limGoto : Bool
  limTarget : Nat
  deriving DecidableEq, Repr

/-- Flags of a step entry (R228). -/
def StepEnt.safety (e : StepEnt) : Bool := bitOf e.flags 0
def StepEnt.grade (e : StepEnt) : Bool := bitOf e.flags 1
def StepEnt.result (e : StepEnt) : Bool := bitOf e.flags 2
def StepEnt.prebook (e : StepEnt) : Bool := bitOf e.flags 3
def StepEnt.track (e : StepEnt) : Nat := bitsOf e.flags 5 4

/-- A comparator's five bytes. -/
def cmpOf (l : List Byte) (i : Nat) : Cmp :=
  let q := leAt l i 1
  let a := leAt l (i + 1) 1
  { qty := bitsOf q 4 0, confirm := bitsOf q 6 5 + 1, isAnd := bitOf q 7, op := bitsOf a 3 0, act := bitsOf a 7 4
    thresh := sgn 24 (leAt l (i + 2) 3), raw := leAt l i 5 }

/-- Whether a comparator holds a reserved encoding in an entry with the given TRACK mode (R230 … R232). -/
def Cmp.reserved (c : Cmp) (track : Nat) : Bool :=
  if c.qty = 0 then decide (c.raw ≠ 0)
  else decide (15 ≤ c.qty) || decide (4 ≤ c.op) || decide (6 ≤ c.act) || (decide (c.qty = 11) && decide (track ≠ 2))
    || (decide (c.qty = 12) && decide (track ≠ 1))

/-- Quantities that are measured (R231). -/
def Cmp.measured (c : Cmp) : Bool :=
  decide (1 ≤ c.qty ∧ c.qty ≤ 4) || decide (10 ≤ c.qty ∧ c.qty ≤ 13)

/-- BAR0 address of step index `i` of bank `b` (R221). -/
def State.entryAddr (s : State) (b i : Nat) : Nat := tblAt (s.fget (fSTEP_TBL_STEP_BASE b) * 0x10000 + i * 32)

/-- BAR0 address of limit set `i` of bank `b` (R234). -/
def State.limAddr (s : State) (b i : Nat) : Nat := tblAt (s.fget (fSTEP_TBL_LIM_BASE b) * 4096 + i * 16)

/-- Reasons of STEP_LAST_FAULT. -/
abbrev whyReserved : Nat := 1
abbrev whyTarget : Nat := 2
abbrev whyLimset : Nat := 3
abbrev whyCurve : Nat := 4
abbrev whyEcc : Nat := 5

/-- Whether a target lies in the partition's range, or is END (R222, R225). -/
def State.targetOk (s : State) (n t : Nat) : Bool :=
  let b := s.fget (fSTEP_PART_RANGE_BASE n)
  decide (t = stepEnd) || (decide (b ≤ t) && decide (t < b + s.fget (fSTEP_PART_RANGE_LEN n)))

/-- The curves an entry's comparators name, each with a valid directory entry (R231, R235). -/
def State.curvesOk (s : State) : List Cmp → Bool × State
  | [] => (true, s)
  | c :: l =>
    if c.qty = 13 then
      match s.curveDir (unsgn 24 c.thresh % 256) with
      | (some _, t) => State.curvesOk t l
      | (none, t) => (false, t)
    else State.curvesOk s l

/-- Reads an entry and its limit set for partition `n`, checked in the order ECC, RESERVED, LIMSET, TARGET, CURVE (R235). -/
def State.readEntry (s : State) (n step : Nat) : Except Nat StepEnt × State :=
  let bank := step / 0x8000 % 2
  match s.tblRd (s.entryAddr bank (step % 0x8000)) 32 with
  | (none, t) => (.error whyEcc, t)
  | (some l, t) =>
    let li := leAt l 8 1
    let inLim := decide (li < s.fget (fSTEP_PART_LIM_COUNT n))
    match (if inLim then t.tblRd (t.limAddr bank (s.fget (fSTEP_PART_LIM_BASE n) + li)) 16 else (some [], t)) with
    | (none, u) => (.error whyEcc, u)
    | (some m, u) =>
      let cs := [cmpOf l 0x11, cmpOf l 0x16, cmpOf l 0x1B]
      let ctl := leAt m 0x0C 1
      let e : StepEnt := {
        mode := leAt l 0 1, flags := leAt l 1 1, iSet := sgn 24 (leAt l 2 3), vSet := leAt l 5 3
        k := bitsOf (leAt l 9 1) 7 4 + 1, wait := bitsOf (leAt l 9 1) 3 0, loopN := leAt l 0x0A 1
        next := leAt l 0x0B 2, alt := leAt l 0x0D 2, refused := leAt l 0x0F 2, terms := cs
        vMax := leAt m 0 3, vMin := leAt m 3 3, iMax := leAt m 6 3, tMax := sgn 16 (leAt m 9 2), dvdtW := leAt m 0x0B 1
        limConfirm := bitsOf ctl 1 0 + 1, limGoto := decide (bitsOf ctl 3 2 = 1), limTarget := leAt m 0x0E 2 }
      let reserved := decide (6 < e.mode) || decide (64 ≤ e.flags) || decide (e.track = 3) || (e.safety && e.grade)
        || decide (0x8000 ≤ e.next) || decide (0x8000 ≤ e.alt) || decide (0x8000 ≤ e.refused)
        || cs.any (fun c => c.reserved e.track) || (cmpOf l 0x11).isAnd
      let badLim := !inLim || decide (2 ≤ bitsOf ctl 3 2) || decide (16 ≤ ctl) || decide (leAt m 0x0D 1 ≠ 0)
        || (decide (e.track = 2) && decide (e.dvdtW = 0)) || (e.limGoto && decide (0x8000 ≤ e.limTarget))
      let badTgt := !(s.targetOk n e.next && s.targetOk n e.alt && s.targetOk n e.refused)
        || (e.limGoto && !s.targetOk n e.limTarget)
      if reserved then (.error whyReserved, u)
      else if badLim then (.error whyLimset, u)
      else if badTgt then (.error whyTarget, u)
      else
        match u.curvesOk cs with
        | (true, w) => (.ok e, w)
        | (false, w) => (.error whyCurve, w)

/-- A channel's input record as the step sequencer uses it (spec/08_conversion_calibration.md R254). -/
structure Sample where
  v : Int
  i : Int
  t : Int
  held : Bool
  epoch : Nat
  deriving DecidableEq, Repr

/-- Reads a channel's sample. -/
def State.sample (s : State) (ch : Nat) : Sample :=
  let l := s.rdList (rowBase (ch / 256) + ch % 256 * 32) 32
  { v := sgn 32 (leAt l 0 4), i := sgn 32 (leAt l 4 4), t := sgn 16 (leAt l 0x0C 2), held := bitOf (leAt l 0x0E 2) 0
    epoch := leAt l 0x14 2 }

/-- The ledger's estimate of an entry for a channel, bus side (spec/09_bus_ledger.md R285). -/
def State.estimate (s : State) (ch : Nat) (e : StepEnt) (v : Int) : Int :=
  s.busSide (s.busOf ch) (cellPower e.mode e.iSet (e.vSet : Int) (max v 0))

/-- The eight output bytes of an entry's mode with its relay and SAFETY flag (R227, R240). -/
def StepEnt.outBytes (e : StepEnt) : List Byte :=
  leBytes 1 (if e.mode ≤ 1 then 0 else e.mode - 1) ++ leBytes 1 (b2n (decide (e.mode ≠ 1)) + 2 * b2n e.safety)
    ++ leBytes 3 (unsgn 24 e.iSet) ++ leBytes 3 e.vSet

/-- The REST that STOP, IDLE, FAULT and DONE pour: all 0, relay open (R240). -/
def restBytes : List Byte := List.replicate 8 0

/-- The REST of a step that waits or is paused (R238, R240): relay closed; SAFETY, I_SET and V_SET as its entry. -/
def StepEnt.restBytes (e : StepEnt) : List Byte :=
  leBytes 1 0 ++ leBytes 1 (1 + 2 * b2n e.safety) ++ leBytes 3 (unsgn 24 e.iSet) ++ leBytes 3 e.vSet

/-- BAR0 address of a channel's output record. -/
def outAddr (ch : Nat) : Nat := rowBase (ch / 256) + 0x2000 + ch % 256 * 16

/-- Writes a channel's output record for its status (R227, R238, R240); a PROG step's bytes belong to the program. -/
def State.writeOutput (s : State) (ch status : Nat) (e : Option StepEnt) : State :=
  match e with
  | some e =>
    if status = ssRunning ∨ status = ssHeld then (if e.mode = 6 then s else s.wrBytes (outAddr ch) e.outBytes)
    else if status = ssAwait ∨ status = ssPaused then s.wrBytes (outAddr ch) e.restBytes
    else s.wrBytes (outAddr ch) restBytes
  | none => s.wrBytes (outAddr ch) restBytes

/-- 2^47 − 1, the limit of CHARGE and ENERGY. -/
abbrev accMax : Int := 140737488355327

/-- An accumulator saturated in this step (R236, R239): SAT is set, and counts once a step. -/
def State.noteSat (s : State) (t : StepSt) : StepSt × State :=
  if bitOf t.flags 7 then (t, s)
  else (t.setFlag 7 true, (s.fsat fSTEP_CNT_SAT_COUNT).fset fSTEP_STAT_SAT 1)

/-- Integration over `dt` µs (R243). -/
def State.integrate (s : State) (t : StepSt) (v i : Int) (dt : Nat) : StepSt × State :=
  let q := i * dt
  let qt := t.charge * 1000 + t.qFrac + q
  let c := qt / 1000
  let et := t.energy * 65536 + t.eFrac + roundHalf (v * q * 65536) 1000000000000
  let en := et / 65536
  let t1 := { t with
    charge := clampI (-accMax) accMax c, energy := clampI (-accMax) accMax en
    qFrac := (qt % 1000).toNat, eFrac := (et % 65536).toNat }
  if (decide (t1.charge ≠ c) || decide (t1.energy ≠ en)) = true then s.noteSat t1 else (t1, s)

/-- ELAPSED advances, saturating at 2^40 − 1. -/
def State.addElapsed (s : State) (t : StepSt) (dt : Nat) : StepSt × State :=
  if t.elapsed + dt ≤ 2 ^ 40 - 1 then ({ t with elapsed := t.elapsed + dt }, s)
  else s.noteSat { t with elapsed := 2 ^ 40 - 1 }

/-- A voltage as TRACK_V holds it. -/
def trackV (v : Int) : Nat := (clampI 0 16777215 v).toNat

/-- The tracker (R244): the new step state and window flag, and the window's reference where a DVDT window closes on this
sample. -/
def trackStep (t : StepSt) (e : StepEnt) (x : Sample) (gap winOpen : Bool) : StepSt × Bool × Option Int :=
  if x.held then (t, winOpen && !gap, none)
  else if e.track = 1 then ({ t with trackV := max t.trackV (trackV x.v) }, winOpen, none)
  else if e.track = 2 then
    (if !winOpen || gap then ({ t with trackV := trackV x.v, age := 0 }, true, none)
     else if e.dvdtW ≤ t.age + 1 then ({ t with trackV := trackV x.v, age := 0 }, true, some (t.trackV : Int))
     else ({ t with age := t.age + 1 }, true, none))
  else (t, winOpen, none)

/-- Breached limits, coded as in DETAIL (R234, R251). -/
def breaches (e : StepEnt) (x : Sample) : Nat :=
  b2n (decide (e.vMax ≠ 0xFFFFFF ∧ (e.vMax : Int) < x.v)) + 2 * b2n (decide (e.vMin ≠ 0 ∧ x.v < (e.vMin : Int)))
    + 4 * b2n (decide (e.iMax ≠ 0xFFFFFF ∧ e.iMax * 10 < x.i.natAbs)) + 8 * b2n (decide (e.tMax ≠ 0x7FFF ∧ e.tMax < x.t))

/-- One evaluation of a counter of DEB (R233): the new DEB, and whether it fires. -/
def debounce (deb pos confirm : Nat) (cond : Bool) : Nat × Bool :=
  let n := bitsOf deb (pos + 1) pos
  if cond then (setBits deb (pos + 1) pos (min 3 (n + 1)), decide (confirm ≤ n + 1)) else (setBits deb (pos + 1) pos 0, false)

/-- The exact values that a comparator compares (R231); none where its curve fails. CHARGE div 10^8 of a negative CHARGE is rounded down
(DEDUCED, log 81: R243 rounds CHARGE itself down). -/
def State.cmpValue (s : State) (c : Cmp) (e : StepEnt) (t : StepSt) (x : Sample) (ref : Option Int) : Option (Int × Int) × State :=
  let h := c.thresh
  if c.qty = 1 then (some (x.v, h), s)
  else if c.qty = 2 then (some (x.i, h * 10), s)
  else if c.qty = 3 then (some (x.i.natAbs, h * 10), s)
  else if c.qty = 4 then (some (x.t, h), s)
  else if c.qty = 5 then (some (t.elapsed, h), s)
  else if c.qty = 6 then (some (t.elapsed, h * 1000), s)
  else if c.qty = 7 then (some (t.elapsed, h * 1000000), s)
  else if c.qty = 8 then (some (t.charge, h * 100000000), s)
  else if c.qty = 9 then (some (t.energy, h * 100000), s)
  else if c.qty = 10 then (some (x.v * x.i, h * 1000000000), s)
  else if c.qty = 11 then (some ((x.v - ref.getD 0) * 1000, h * e.dvdtW * s.bc), s)
  else if c.qty = 12 then (some ((t.trackV : Int) - x.v, h), s)
  else if c.qty = 13 then
    match s.curve (unsgn 24 h % 256) (t.charge / 100000000) with
    | (some y, u) => (some (x.v - y, sgn 16 (unsgn 24 h / 256) * 100), u)
    | (none, u) => (none, u)
  else (some ((t.loop : Int), h), s)

/-- The operators (R232). -/
def cmpOp (op : Nat) (a b : Int) : Bool :=
  if op = 0 then decide (b < a) else if op = 1 then decide (b ≤ a) else if op = 2 then decide (a < b) else decide (a ≤ b)

/-- What a walk over an entry's comparators has found so far: DEB, held counts of TERM0 … TERM2, whether the comparator
before was evaluated, its condition, whether it was passed over for a held sample, the first that fired, and whether a curve
failed. -/
structure TermRes where
  deb : Nat
  held : List Nat
  prevEval : Bool
  prevCond : Bool
  prevHeld : Bool
  fired : Option Nat
  bad : Bool
  deriving DecidableEq, Repr

/-- One comparator of the walk (R233, R242, R244). -/
def State.termStep (s : State) (e : StepEnt) (t : StepSt) (x : Sample) (ref : Option Int) (j : Nat) (c : Cmp) (a : TermRes) :
    TermRes × State :=
  let skip (h : Bool) : TermRes := { a with
    prevEval := false, prevCond := false, prevHeld := h
    held := if h then a.held.set j (min 255 (a.held.getD j 0 + 1)) else a.held }
  if c.qty = 0 then (skip false, s)
  else if c.isAnd ∧ a.prevEval = false then (skip a.prevHeld, s)
  else if (x.held && c.measured) = true then (skip true, s)
  else if c.qty = 11 ∧ ref.isNone then (skip false, s)
  else
    match s.cmpValue c e t x ref with
    | (none, u) => ({ a with bad := true }, u)
    | (some (v, b), u) =>
      let cond := cmpOp c.op v b && (!c.isAnd || a.prevCond)
      let d := debounce a.deb (2 + 2 * j) c.confirm cond
      ({ a with
          deb := d.1, prevEval := true, prevCond := cond, prevHeld := false
          fired := if a.fired.isNone ∧ d.2 ∧ c.act ≠ 5 then some j else a.fired }, u)

/-- All comparators of an entry, in order. -/
def State.terms (s : State) (e : StepEnt) (t : StepSt) (x : Sample) (ref : Option Int) (held : List Nat) : TermRes × State :=
  let a0 : TermRes := { deb := t.deb, held := held, prevEval := false, prevCond := false, prevHeld := false, fired := none, bad := false }
  (e.terms.zipIdx).foldl (fun p cj => p.2.termStep e t x ref cj.2 cj.1 p.1) (a0, s)

end Sys2Proof.Machine
end

