-- ==== Sys2Proof/Machine/Conv.lean ====
section
/-! DEFINITION. Measurement conversion and the calibration engine (spec/08_conversion_calibration.md R252 … R278). -/

namespace Sys2Proof.Machine

/-- A coefficient set (R264): VG, VO, IG, IO, TO. -/
structure CoefSet where
  vg : Int
  vo : Int
  ig : Int
  io : Int
  tOff : Int
  deriving DecidableEq, Repr

/-- Reads a set from ten bytes. -/
def coefOf (l : List Byte) (i : Nat) : CoefSet :=
  { vg := sgn 16 (leAt l i 2), vo := sgn 16 (leAt l (i + 2) 2), ig := sgn 16 (leAt l (i + 4) 2)
    io := sgn 16 (leAt l (i + 6) 2), tOff := sgn 16 (leAt l (i + 8) 2) }

/-- A set's ten bytes. -/
def CoefSet.bytes (c : CoefSet) : List Byte :=
  leBytes 2 (unsgn 16 c.vg) ++ leBytes 2 (unsgn 16 c.vo) ++ leBytes 2 (unsgn 16 c.ig) ++ leBytes 2 (unsgn 16 c.io)
    ++ leBytes 2 (unsgn 16 c.tOff)

/-- BAR0 address of a channel's coefficient entry. -/
def State.coefAddr (s : State) (ch : Nat) : Nat := tblAt (s.fget fCONV_TBL_COEF_BASE * 0x10000 + ch * 32)

/-- Bits of a coefficient entry's FLAGS (R264). -/
abbrev cfNewset : Nat := 0
abbrev cfTasteEn : Nat := 1
abbrev cfHaveLo : Nat := 2
abbrev cfHaveHi : Nat := 3
abbrev cfDrift : Nat := 4
abbrev cfDefault : Nat := 5
abbrev cfHost : Nat := 6

/-- Reads a coefficient entry; one with a reserved bit set counts as uncorrectable (R264). -/
def State.coefRd (s : State) (ch : Nat) : Option (List Byte) × State :=
  match s.tblRd (s.coefAddr ch) 32 with
  | (none, t) => (none, t)
  | (some l, t) => if (decide (128 ≤ leAt l 0 1) || decide (leAt l 1 1 ≠ 0)) = true then (none, t) else (some l, t)

/-- The active set of an entry for epoch `e` (R265): 0 or 1. -/
def activeSet (l : List Byte) (e : Nat) : Nat :=
  let ns := b2n (bitOf (leAt l 0 1) cfNewset)
  if newerN 16 (leAt l 2 2) e then 1 - ns else ns

/-- Set `k` of an entry. -/
def entrySet (l : List Byte) (k : Nat) : CoefSet := coefOf l (4 + 10 * k)

/-- Writes an entry; the standby is sent it later (spec/14_racking_standby.md R432). -/
def State.coefWr (s : State) (ch : Nat) (l : List Byte) : State :=
  let t := s.tblWr (s.coefAddr ch) l
  { t with coefMap := insNat ch t.coefMap }

/-- Replaces bytes of a list from position `i`. -/
def splice (l : List Byte) (i : Nat) (b : List Byte) : List Byte := l.take i ++ b ++ l.drop (i + b.length)

/-- FLAGS bit `i` of an entry's bytes set or cleared. -/
def entFlag (l : List Byte) (i : Nat) (b : Bool) : List Byte := splice l 0 (leBytes 1 (setBits (leAt l 0 1) i i (b2n b)))

/-- Stages a set for the pending epoch in an entry's bytes (R267). -/
def stageEnt (l : List Byte) (cur : Nat) (c : CoefSet) : List Byte :=
  let ns := b2n (bitOf (leAt l 0 1) cfNewset)
  let k := if newerN 16 (leAt l 2 2) cur then ns else 1 - ns
  entFlag (entFlag (splice (splice l (4 + 10 * k) c.bytes) 2 (leBytes 2 ((cur + 1) % 65536))) cfNewset (decide (k = 1))) cfDefault false

/-- A value held to 16 bits; a value that does not fit is not stated, and is free (log 20). -/
def State.fit16 (s : State) (x : Int) : Int × State :=
  if -32768 ≤ x ∧ x ≤ 32767 then (x, s) else (sgn 16 (s.freeW.1.toNat % 65536), s.freeW.2)

/-- The row descriptor in force for the running cycle (R259): VSCALE, ISCALE, TSCALE, TCFG, AUXCFG. -/
def State.rowDesc (s : State) (r : Nat) : List Word :=
  match SMap.get (fun _ => none) s.descOld r with
  | some l => l
  | none => [s.reg (rCONV_ROW_VSCALE r), s.reg (rCONV_ROW_ISCALE r), s.reg (rCONV_ROW_TSCALE r), s.reg (rCONV_ROW_TCFG r),
      s.reg (rCONV_ROW_AUXCFG r)]

/-- The row descriptor in force at T(h), of the running cycle or the one before it (R259). -/
def State.descAt (s : State) (r h : Nat) : List Word :=
  if h = s.cycle.toNat then s.rowDesc r else (SMap.get (fun _ => none) s.descPrev r).getD (s.rowDesc r)

/-- The coefficient epoch in force at T(h), of the running cycle or the one before it (R259). -/
def State.epochAt (s : State) (h : Nat) : Nat :=
  let cur := s.fget fCONV_EPOCH_CUR
  match s.calLast with
  | some q => if h < q then (cur + 65535) % 65536 else cur
  | none => cur

/-- Whether the row was restored at or after T(h) (R281): conversions of cycle `h` still use the zero sets that stood then. -/
def State.beforeRestore (s : State) (r h : Nat) : Bool := s.restored.any (fun e => decide (e.1 = r) && decide (h ≤ e.2))

/-- A row descriptor is about to change within the running cycle: what conversions of this cycle use is kept (R259). -/
def State.keepDesc (s : State) (r : Nat) : State :=
  if (SMap.get (fun _ => none) s.descOld r).isNone then { s with descOld := SMap.put (fun _ => none) r (some (s.rowDesc r)) s.descOld } else s

/-- A reference of a row (R273): point 0 LO, 1 HI; for V, or for I. -/
def State.rowRef (s : State) (r point : Nat) (cur : Bool) : Int :=
  let o := if cur then (if point = 0 then rCONV_ROW_REF_ILO r else rCONV_ROW_REF_IHI r)
    else (if point = 0 then rCONV_ROW_REF_VLO r else rCONV_ROW_REF_VHI r)
  sgn 32 (s.reg o).toNat

/-- A converted field: the value clamped to its width, and whether it was clamped. -/
def clampTo (n : Nat) (x : Int) : Int × Bool :=
  let lo : Int := -(2 ^ (n - 1) : Nat)
  let hi : Int := (2 ^ (n - 1) : Nat) - 1
  (clampI lo hi x, decide (clampI lo hi x ≠ x))

/-- A signed count of `n` bytes of a harvest record at a field's offset by the layout descriptor (R252, R322). -/
def rawAt (rec : List Byte) (layout : List Byte) (field n : Nat) : Int := sgn (8 * n) (leAt rec (leAt layout field 1) n)

/-- V and I of R258: scale 0 converts to 0 with no offset. -/
def convVi (raw scale g o : Int) : Int :=
  if scale = 0 then 0 else roundHalf (raw * scale * (1048576 + g)) 17592186044416 + o

/-- The deviation of a taste, saturated to 16 bits (R276). -/
def tasteDev (raw scale ref : Int) : Int := clampI (-32768) 32767 (roundHalf (raw * scale) 16777216 - ref)

/-- Through a curve, or linear; none where the curve fails (R258, R262). -/
def State.viaCurve (s : State) (en : Bool) (c : Nat) (x lin : Int) : Option Int × State :=
  if en then s.curve c x else (some lin, s)

/-- HELD_WHY values (R256). -/
abbrev hwLive : Nat := 0
abbrev hwTaste : Nat := 1
abbrev hwUnplanned : Nat := 2
abbrev hwBad : Nat := 3
abbrev hwSeq : Nat := 4
abbrev hwEcc : Nat := 5

/-- What the plan says of a channel: the point planned for this sample, and for the next. -/
structure Planned where
  now : Option Nat
  next : Option Nat
  deriving DecidableEq, Repr

/-- The plan of sample `h` on port `p`: of the running cycle's sample, or of the one before. -/
def State.planAt (s : State) (p h : Nat) : Option (Nat × Nat × Nat) :=
  SMap.get (fun _ => none) (if h = s.cycle.toNat then s.tastePlan else s.planOld) p

/-- The plan that CONV_PORT_PLAN shows. -/
def State.planShown (s : State) (p : Nat) : Option (Nat × Nat × Nat) :=
  if s.fbit (fCONV_PORT_PLAN_VALID p) then
    some (s.fget (fCONV_PORT_PLAN_ROW p), s.fget (fCONV_PORT_PLAN_LANE p), s.fget (fCONV_PORT_PLAN_POINT p)) else none

/-- The plans of the channel's port for sample `h` and the one after it (R271, R272). -/
def State.plannedOf (s : State) (p r l h : Nat) : Planned :=
  let mine (q : Option (Nat × Nat × Nat)) : Option Nat := match q with
    | some (pr, pl, pt) => if pr = r ∧ pl = l then some pt else none
    | none => none
  { now := mine (s.planAt p h), next := mine (if h = s.cycle.toNat then s.planShown p else s.planAt p (h + 1)) }

/-- The taste of the port's channel was not made, or no taste was planned for its slot (R275, R276): the engine's slot visit
clears both HAVE bits. -/
def State.clearHave (s : State) (ch : Nat) : State :=
  match s.coefRd ch with
  | (none, t) => t
  | (some l, t) => if bitsOf (leAt l 0 1) 3 2 = 0 then t else t.coefWr ch (entFlag (entFlag l cfHaveLo false) cfHaveHi false)

/-- A planned taste was not made (R275). -/
def State.tasteMissed (s : State) : State := (s.fsat fCONV_CNT_MISSED_COUNT).fset fCONV_STAT_MISSED 1

/-- Counts and flags of a record by its HELD_WHY (R256, R275). -/
def State.countWhy (s : State) (why : Nat) : State :=
  if why = hwSeq then (s.fsat fCONV_CNT_SEQ_COUNT).fset fCONV_STAT_SEQ 1
  else if why = hwBad then (s.fsat fCONV_CNT_BAD_COUNT).fset fCONV_STAT_SAMPLE_BAD 1
  else if why = hwEcc then (s.fsat fCONV_CNT_BAD_COUNT).fset fCONV_STAT_COEF_ECC 1
  else if why = hwUnplanned then (s.fsat fCONV_CNT_UNPLANNED_COUNT).fset fCONV_STAT_UNPLANNED 1
  else if why = hwTaste then s.fsat fCONV_CNT_TASTE_COUNT
  else s

/-- A failed curve evaluation in conversion (R262). -/
def State.curveFail (s : State) (bad : Bool) : State :=
  s.when bad (fun t => (t.fsat fCONV_CNT_CURVE_COUNT).fset fCONV_STAT_CURVE_ERR 1)

/-- Converts one harvest record of cycle `n` into its input record (R252 … R259, R275). `p` is the row's port. -/
def State.convRec (s0 : State) (p r l : Nat) (layout : List Byte) (n : Nat) : State :=
  let ch := r * 256 + l
  let rec16 := s0.rdList (0x3200000 + n % 2 * 0x200000 + r * 0x1000 + l * 16) 16
  let at' := rowBase r + l * 32
  let old := s0.rdList at' 32
  let status := leAt rec16 (leAt layout 3 1) 2
  let seq := leAt rec16 (leAt layout 6 1) 1
  let pour := leAt rec16 (leAt layout 5 1) 1
  let point := bitsOf status 2 1
  let pl := s0.plannedOf p r l n
  let ce := if s0.beforeRestore r n then (some (List.replicate 32 0), s0) else s0.coefRd ch
  let s := ce.2
  let tasted := bitOf status 0
  let why :=
    if seq ≠ n % 256 then hwSeq
    else if bitOf status 3 then hwBad
    else if ce.1.isNone then hwEcc
    else if tasted then (if pl.now = some point then hwTaste else hwUnplanned)
    else hwLive
  let ent := ce.1.getD (List.replicate 32 0)
  let e := s.epochAt n
  let cs := entrySet ent (activeSet ent e)
  let d := s.descAt r n
  let w (i : Nat) : Nat := (d.getD i 0).toNat
  let rawV := rawAt rec16 layout 0 3
  let rawI := rawAt rec16 layout 1 3
  let rawT := rawAt rec16 layout 2 2
  let rawA := rawAt rec16 layout 4 3
  let linT := roundHalf (rawT * (w 2 : Int)) 65536 + sgn 16 (w 3 / 65536) + cs.tOff
  let doAT := decide (why ≤ hwUnplanned)
  let tc := if doAT then s.viaCurve (bitOf (w 3) 15) (w 3 % 256) rawT (linT - cs.tOff) else (none, s)
  let ac := if doAT then tc.2.viaCurve (bitOf (w 4) 15) (w 4 % 256) rawA rawA else (none, s)
  let tv := tc.1.map (fun x => clampTo 16 (x + cs.tOff))
  let av := ac.1.map (clampTo 32)
  let vv := clampTo 32 (convVi rawV (w 0) cs.vg cs.vo)
  let iv := clampTo 32 (convVi rawI (w 1) cs.ig cs.io)
  let live := decide (why = hwLive)
  let sat := (live && (vv.2 || iv.2)) || (match tv with | some x => x.2 | none => false) || (match av with | some x => x.2 | none => false)
  let cerr := doAT && (tc.1.isNone || ac.1.isNone)
  let dv := tasteDev rawV (w 0) (s.rowRef r (point % 2) false)
  let di := tasteDev rawI (w 1) (s.rowRef r (point % 2) true)
  let isT := decide (why = hwTaste)
  let cflags := b2n (decide (why ≠ hwLive)) + 2 * b2n (bitOf status 4) + 4 * b2n (bitOf status 5) + 8 * b2n (bitOf status 6)
    + 16 * b2n cerr + 32 * b2n sat + 128 * b2n (bitOf (leAt ent 0 1) cfDefault) + 256 * b2n (bitOf (leAt ent 0 1) cfDrift)
  let taste := (if isT then point else 0) + (match pl.next with | some q => 4 * q + 128 | none => 0)
  let bytes :=
    (if live then leBytes 4 (unsgn 32 vv.1) ++ leBytes 4 (unsgn 32 iv.1) else old.take 8)
      ++ (match av with | some x => leBytes 4 (unsgn 32 x.1) | none => (old.drop 8).take 4)
      ++ (match tv with | some x => leBytes 2 (unsgn 16 x.1) | none => (old.drop 12).take 2)
      ++ leBytes 2 cflags ++ leBytes 2 status ++ leBytes 1 pour ++ leBytes 1 seq ++ leBytes 2 e ++ leBytes 1 why ++ leBytes 1 taste
      ++ leBytes 4 (n % 2 ^ 32) ++ leBytes 2 (unsgn 16 (if isT then dv else 0)) ++ leBytes 2 (unsgn 16 (if isT then di else 0))
  let s1 := ((ac.2.wrBytes at' bytes).countWhy why).curveFail (doAT && tc.1.isNone)
  let s2 := (s1.curveFail (doAT && ac.1.isNone)).when sat (fun t => (t.fsat fCONV_CNT_SAT_COUNT).fset fCONV_STAT_SAT 1)
  let s3 := if isT then { s2 with tastes := s2.tastes ++ [({ ch := ch, point := point, dv := dv, di := di } : Taste)] } else s2
  if pl.now.isSome ∧ isT = false then
    (s3.when (!tasted) (fun t => t.tasteMissed)).clearHave ch
  else s3

/-- The old input and step-state sections that work not yet loaded still reads (R52). -/
def State.snapRow (s : State) (r : Nat) : Mem :=
  let b := rowBase r
  let sec (lo n : Nat) : Mem :=
    (s.mem.filter (fun e => decide (b + lo ≤ e.1) && decide (e.1 < b + lo + n))).map (fun e => (e.1 - b, e.2))
  sec 0 0x2000 ++ (List.range 256).foldl (fun m l =>
    Mem.wrList m (0x3000 + l * 32) (s.rdList (b + 0x3000 + l * 32) 32)) []

/-- Whether a stretched row's late work has not yet read its input and step-state sections, so that the conversion of its new
harvest waits (R52). -/
def State.loadWaits (s : State) (r : Nat) : Bool :=
  let v := s.row r
  let cl := s.fget (fSCHED_ROW_STAT_CLAIM r)
  (v.jobLate && (decide (cl = clReady) || decide (cl = clLoading)) && (v.old (v.job.getD 0)).isNone) || v.next.any (fun e => e.2 && (v.old e.1).isNone)

/-- The sections of earlier cycles are kept for the row's work in hand and behind it. The spec says that work not yet loaded is
always a stretched row's, whose load R52 waits for; for other work not yet loaded, and for work that executes and would be executed
again on the inputs of its cycle after a fence (R68, R72; spec/12_twin_presses.md R383), the model keeps them (DESIGN CHOICE, log 19). -/
def State.keepOld (s : State) (r : Nat) : State :=
  let v := s.row r
  let job := if s.fget (fSCHED_ROW_STAT_CLAIM r) = clWb then [] else v.job.toList
  let need := (job ++ v.next.map (fun e => e.1)).filter (fun m => (v.old m).isNone)
  if need.isEmpty then s
  else
    let m := s.snapRow r
    s.setRow r { v with olds := v.olds ++ need.map (fun c => (c, m)) }

/-- The 256 records of the row's harvest of cycle `n` are converted, and the row ripens (R49, R51, R253 … R259). -/
def State.convertRow (s : State) (r n : Nat) : State :=
  match s.posOf r with
  | none => s
  | some (p, _) =>
    let s0 := s.keepOld r
    let layout := s0.rdList (s0.tblInForce p + 0x10) 8
    let s1 := (List.range 256).foldl (fun t l => t.convRec p r l layout n) s0
    (s1.setRow r { s1.row r with ripe := some n, convWait := none }).fset (fSCHED_ROW_STAT_NOHARV_RUN r) 0

/-- A conversion that waited for the row's late work is done once that work has read its sections (R52). -/
def State.convertWaiting (s : State) (r : Nat) : State :=
  match (s.row r).convWait with
  | some n => if s.loadWaits r then s else s.convertRow r n
  | none => s

/-- Whether the engine still waits after a switch at T(n) (R267): in cycle n and after, while a row has not converted its harvest of an
earlier cycle and has not been found unripe, the waits of R52 included. -/
def State.stageHeld (s : State) : Bool :=
  match s.calLast with
  | none => false
  | some n =>
    (decide (s.cycle.toNat = n) && decide (0 < n) && (List.range 512).any (fun r => s.mayRipen r (n - 1)))
      || s.rows.any (fun e => match e.2.convWait with | some q => decide (q < n) | none => false)

/-- An estimate is rejected (R278). -/
def State.driftReject (s : State) (ch why : Nat) : State :=
  ((((s.fsat fCONV_CNT_DRIFT_COUNT).fset fCONV_STAT_DRIFT 1).fset fCONV_LAST_DRIFT_WHY why).fset fCONV_LAST_DRIFT_CH ch).assertEv 691

/-- The estimate of one quantity (R277): new gain and offset, before the filter. -/
def tasteEstimate (refLo refHi devLo devHi : Int) : Int × Int :=
  let ul := refLo + devLo
  let uh := refHi + devHi
  let g := roundHalf ((devLo - devHi) * 1048576) (uh - ul)
  (g, refLo - roundHalf (ul * (1048576 + g)) 1048576)

/-- The reason RANGE for one quantity (R278). -/
def rangeBad (refLo refHi devLo devHi : Int) : Bool :=
  let satd (x : Int) : Bool := decide (x = 32767) || decide (x = -32768)
  satd devLo || satd devHi || decide (refHi ≤ refLo) || decide (2 * (refHi + devHi - (refLo + devLo)) < refHi - refLo)

/-- The filter: the active value moved by the change shifted right, toward minus infinity (R277). -/
def filt (act new : Int) (f : Nat) : Int := act + (new - act) / (2 ^ f : Nat)

/-- An estimate of both quantities of a channel whose entry holds both deviations (R277, R278). -/
def State.estimateCh (s : State) (ch : Nat) (l : List Byte) : State :=
  let r := ch / 256
  let cur := s.fget fCONV_EPOCH_CUR
  let a := entrySet l (activeSet l cur)
  let f := s.fget fCONV_CTRL_FILT
  let d (i : Nat) : Int := sgn 16 (leAt l i 2)
  let vLo := s.rowRef r 0 false
  let vHi := s.rowRef r 1 false
  let iLo := s.rowRef r 0 true
  let iHi := s.rowRef r 1 true
  let reject (why : Nat) : State := (s.coefWr ch (entFlag l cfDrift true)).driftReject ch why
  if (rangeBad vLo vHi (d 0x18) (d 0x1A) || rangeBad iLo iHi (d 0x1C) (d 0x1E)) = true then reject 1
  else
    let ev := tasteEstimate vLo vHi (d 0x18) (d 0x1A)
    let ei := tasteEstimate iLo iHi (d 0x1C) (d 0x1E)
    let gs := s.fget fCONV_LIM_G_STEP
    let os := s.fget fCONV_LIM_O_STEP
    let far (x y : Int) (lim : Nat) : Bool := decide (lim < (x - y).natAbs)
    if (far ev.1 a.vg gs || far ev.2 a.vo os || far ei.1 a.ig gs || far ei.2 a.io os) = true then reject 2
    else
      let g := filt a.vg ev.1 f
      let o := filt a.vo ev.2 f
      let gi := filt a.ig ei.1 f
      let oi := filt a.io ei.2 f
      let ga := s.fget fCONV_LIM_G_ABS
      let oa := s.fget fCONV_LIM_O_ABS
      if (far g 0 ga || far o 0 oa || far gi 0 ga || far oi 0 oa) = true then reject 3
      else
        let q1 := s.fit16 g
        let q2 := q1.2.fit16 o
        let q3 := q2.2.fit16 gi
        let q4 := q3.2.fit16 oi
        let c : CoefSet := { vg := q1.1, vo := q2.1, ig := q3.1, io := q4.1, tOff := a.tOff }
        let l1 := entFlag (entFlag (stageEnt l cur c) cfDrift false) cfHost false
        { q4.2.coefWr ch l1 with calStaged := true }

/-- The estimate of a channel whose entry holds both deviations: discarded for an entry that the host staged for the pending epoch
(R269), else staged (R277). -/
def State.estimateNow (s : State) (ch : Nat) : State :=
  match s.coefRd ch with
  | (none, u) => u
  | (some l, u) =>
    if bitsOf (leAt l 0 1) 3 2 ≠ 3 then u
    else if bitOf (leAt l 0 1) cfHost ∧ leAt l 2 2 = (u.fget fCONV_EPOCH_CUR + 1) % 65536 then
      u.coefWr ch (entFlag (entFlag l cfHaveLo false) cfHaveHi false)
    else u.estimateCh ch l

/-- TASTE_ESTIMATE (R276, R277): the deviations of the channel's taste are stored; with both points held the engine estimates, at the
end of a wait after a switch where there is one (R267). -/
def execTasteEstimate (chf : Fin 131072) (s : State) : Out :=
  let ch := chf.val
  match (if s.mainRuns then s.tastes.find? (fun t => decide (t.ch = ch)) else none) with
  | none => .next s
  | some t =>
    let s0 := { s with tastes := s.tastes.erase t }
    match s0.coefRd ch with
    | (none, u) => .next u
    | (some l, u) =>
      let hi := decide (t.point = 1)
      let l1 := splice (splice l (if hi then 0x1A else 0x18) (leBytes 2 (unsgn 16 t.dv))) (if hi then 0x1E else 0x1C) (leBytes 2 (unsgn 16 t.di))
      let l2 := entFlag l1 (if hi then cfHaveHi else cfHaveLo) true
      let u1 := u.coefWr ch l2
      .next (if bitsOf (leAt l2 0 1) 3 2 ≠ 3 then u1
        else if u1.stageHeld then { u1 with estWait := u1.estWait.filter (fun c => decide (c ≠ ch)) ++ [ch] }
        else u1.estimateNow ch)

/-- The engine's visit of an entry (R268): an old TAG is brought to CUR. -/
def State.visitTag (s : State) (ch : Nat) : State :=
  let cur := s.fget fCONV_EPOCH_CUR
  let tag := leAt (s.rdList (s.coefAddr ch) 4) 2 2
  let age := (cur + 65536 - tag) % 65536
  if 4096 ≤ age ∧ age < 32768 then
    match s.coefRd ch with
    | (none, t) => t
    | (some l, t) => t.coefWr ch (splice l 2 (leBytes 2 cur))
  else s

/-- The engine's walk of cycle `n`: 32 entries in ascending channel order (R268). -/
def State.calWalk (s : State) (n : Nat) : State :=
  (List.range 32).foldl (fun t i => t.visitTag ((n * 32 + i) % 131072)) s

/-- The channel of a sweep index: board position j mod Bp, lane j div Bp; none at a position with no row (R270). -/
def State.slotChan (s : State) (p j : Nat) : Option (Nat × Nat × Nat) :=
  let b := s.boards p
  if b = 0 then none
  else
    let r := s.rowAt p (j % b)
    if r < 512 then some (j % b, r, j / b) else none

/-- Whether a taste may be planned at board position `k`, row `r`, lane `l` of port `p` (R271, R321). -/
def State.mayTaste (s : State) (p k r l : Nat) : Bool :=
  let ten := bitOf (leAt (s.rdList (s.coefAddr (r * 256 + l)) 1) 0 1) cfTasteEn
  let inhibit := match s.owner r with | some n => s.fbit (fCONV_PART_INHIBIT n) | none => false
  s.fbit fCONV_CTRL_TASTE_ON && ten && !inhibit && decide (s.fget (fTRL_POS_STAT_STATE p k) ≠ 0)
    && !bitOf (leAt (s.rdList (s.tblInForce p + 0x22 + 4 * k) 1) 0 1) 0

/-- At T(n) on port `p` (R268, R270, R271): the standing plan becomes that of this sample, the sweep advances, the slot of this
cycle is visited, and the plan for sample n + 1 is fixed. -/
def State.planPort (s : State) (p : Nat) : State :=
  let now := s.planShown p
  let s0 := { s with
    planOld := SMap.put (fun _ => none) p (SMap.get (fun _ => none) s.tastePlan p) s.planOld
    tastePlan := SMap.put (fun _ => none) p now s.tastePlan }
  let len := 256 * s0.boards p
  if len = 0 then s0.fset (fCONV_PORT_PLAN_VALID p) 0
  else
    let j := s0.fget (fCONV_PORT_SWEEP_INDEX p) + 1
    let s1 := if len ≤ j then (s0.fset (fCONV_PORT_SWEEP_INDEX p) 0).fwrap (fCONV_PORT_SWEEP_SWEEPS p) else s0.fset (fCONV_PORT_SWEEP_INDEX p) j
    let j1 := s1.fget (fCONV_PORT_SWEEP_INDEX p)
    let s2 := match s1.slotChan p j1 with
      | some (_, r, l) => (s1.visitTag (r * 256 + l)).when now.isNone (fun t => t.clearHave (r * 256 + l))
      | none => s1
    let wrap := decide (len ≤ j1 + 1)
    let j2 := if wrap then 0 else j1 + 1
    let point := (s2.fget (fCONV_PORT_SWEEP_SWEEPS p) + b2n wrap) % 2
    let idle (t : State) : State := ((t.fset (fCONV_PORT_PLAN_VALID p) 0)).fsat fCONV_CNT_IDLE_COUNT
    match s2.slotChan p j2 with
    | some (k, r, l) =>
      if s2.mayTaste p k r l then
        (((s2.fset (fCONV_PORT_PLAN_VALID p) 1).fset (fCONV_PORT_PLAN_POINT p) point).fset (fCONV_PORT_PLAN_ROW p) r).fset
          (fCONV_PORT_PLAN_LANE p) l
      else idle s2
    | none => idle s2

/-- Whether a save to the cask is in progress (R280): BUSY after the restore of a start has ended. -/
def State.calSaving (s : State) : Bool := s.fbit fCONV_PERSIST_BUSY && s.fbit fCONV_PERSIST_RESTORED

/-- Step 4 of the boundary T(n) (R57, R266): the coefficient epoch switches where it may. -/
def State.epochSwitch (s : State) (n : Nat) : State :=
  let want := s.calStaged && ((match s.calLast with | none => true | some m => decide (m + s.fget fCONV_EVERY_CYCLES ≤ n)) || s.calHost)
  let busy := s.calSaving
  if (want && !busy) = true then
    let s1 := (((s.fset fCONV_EPOCH_CUR (s.fget fCONV_EPOCH_CUR + 1)).fsat fCONV_CNT_COMMIT_COUNT).assertEv 690).fset fCONV_EPOCH_HELD 0
    let s2 := s1.when s.calHost (fun t => (t.fset fCONV_EPOCH_REQ 0).fset fCONV_EPOCH_BUSY 0)
    { s2 with calStaged := false, calHost := false, calLast := some n }
  else s.fset fCONV_EPOCH_HELD (b2n (want && busy))

/-- One entry of the host staging area (R269). -/
def State.stageOne (s : State) (i : Nat) : State :=
  let bad (t : State) : State := (t.fsat fCONV_CNT_STAGE_BAD_COUNT).fset fCONV_STAT_STAGE_BAD 1
  match s.tblRd (tblAt (s.fget fCONV_TBL_STAGE_BASE * 4096 + i * 16)) 16 with
  | (none, t) => bad t
  | (some q, t) =>
    let ch := leAt q 0 4
    let ctl := leAt q 0x0E 1
    if (decide (131072 ≤ ch) || decide (8 ≤ ctl) || decide (leAt q 0x0F 1 ≠ 0)) = true then bad t
    else
      match t.coefRd ch with
      | (none, u) => u
      | (some l, u) =>
        let l0 := if bitOf ctl 1 then entFlag l cfTasteEn (bitOf ctl 0) else l
        if bitOf ctl 2 then u.coefWr ch l0
        else
          let l1 := stageEnt l0 (u.fget fCONV_EPOCH_CUR) (coefOf q 4)
          let l2 := entFlag (entFlag (entFlag (entFlag l1 cfHost true) cfHaveLo false) cfHaveHi false) cfDrift false
          { u.coefWr ch l2 with calStaged := true, calHost := true }

/-- The host's entries are copied in order; a copy that staged nothing requests no switch (R269). -/
def State.stageCopy (s : State) : State :=
  let s1 := (List.range (s.fget fCONV_STAGE_CNT_COUNT)).foldl (fun t i => t.stageOne i) s
  if s1.calHost then s1 else (s1.fset fCONV_EPOCH_REQ 0).fset fCONV_EPOCH_BUSY 0

/-- STAGE_COPY_DONE (R269); a copy waits for the end of the wait after a switch (R267). -/
def execStageCopyDone (s : State) : Out :=
  .next (if !s.mainRuns || !s.fbit fCONV_EPOCH_REQ then s else if s.stageHeld then { s with copyWait := true } else s.stageCopy)

/-- Once the wait after a switch is over, what arose during it is staged (R267): the estimates, then the host's copy, whose values win
within an epoch (R269). -/
def State.stageResume (s : State) : State :=
  if (s.estWait.isEmpty && !s.copyWait) || s.stageHeld then s
  else
    let s1 := s.estWait.foldl (fun t ch => t.estimateNow ch) { s with estWait := [], copyWait := false }
    s1.when s.copyWait (fun t => t.stageCopy)

/-- ROW_RIPE (R49, R51, R52, R253 … R259): the row's harvest of the running cycle, or of the one before, is converted, and the row
ripens. While a stretched row's late work has not been loaded the conversion waits, and ripeness with it. -/
def execRowRipe (rr : Fin 512) (s : State) : Out :=
  let r := rr.val
  let v := s.row r
  let n := v.harv.getD 0
  if (!s.mainRuns || v.harv.isNone || decide (n + 1 < s.cycle.toNat) || decide (v.ripe = some n) || decide (v.noHarvest = some n) || v.convWait.isSome
      || (s.posOf r).isNone) = true then .next s
  else if s.loadWaits r then
    .next (((s.setRow r { v with convWait := some n }).fsat fSCHED_CNT_RIPEDLY_COUNT).fset fSCHED_STAT_RIPE_DELAY 1)
  else .next (s.convertRow r n).stageResume

/-- LATEST_RIPE (R50, R51, R275): an unripe row takes SKIPPED_NO_HARVEST, and a taste planned on it was not made. -/
def execLatestRipe (rr : Fin 512) (s : State) : Out :=
  let r := rr.val
  let n := s.ripeCycle r
  let s0 := s.convertWaiting r
  if !s.mainRuns then .next s
  else if (s0.row r).ripe = some n ∨ (s0.row r).noHarvest = some n then .next s0.stageResume
  else
    let s1 := s0.noHarvestRow r n
    let s2 := match s.posOf r with
      | none => s1
      | some (p, _) =>
        match s1.planAt p n with
        | some (pr, pl, _) => if pr = r then s1.tasteMissed.clearHave (r * 256 + pl) else s1
        | none => s1
    .next ((s2.when (decide (n < s.cycle.toNat)) (fun t => t.closeRow r n)).stageResume)

end Sys2Proof.Machine
end

