-- ==== Sys2Proof/Machine/Graft.lean ====
section
/-! DEFINITION. Grafts: version slots, allocation, check, commit, migration, rollback and release (spec/13_graft.md). -/

namespace Sys2Proof.Machine

/-- Graft states (PART_GRF_STAT). -/
abbrev gsIdle : Nat := 0
abbrev gsLoading : Nat := 1
abbrev gsChecking : Nat := 2
abbrev gsRacking : Nat := 3
abbrev gsArmed : Nat := 4
abbrev gsWindow : Nat := 5
abbrev gsSweep : Nat := 6
abbrev gsRollback : Nat := 7

/-- Graft results (PART_GRF_STAT). -/
abbrev grCommitted : Nat := 1
abbrev grRolledBack : Nat := 2
abbrev grReleased : Nat := 3
abbrev grAborted : Nat := 4
abbrev grNoRoom : Nat := 5
abbrev grCrc : Nat := 6
abbrev grVarMismatch : Nat := 7
abbrev grMapBad : Nat := 8
abbrev grEntryBad : Nat := 9
abbrev grBadState : Nat := 10
abbrev grLocked : Nat := 11
abbrev grRackTimeout : Nat := 12
abbrev grTooLate : Nat := 13
abbrev grNoReverse : Nat := 14
abbrev grStandby : Nat := 15

/-- Graft state of a partition. -/
def State.grfState (s : State) (n : Nat) : Nat := s.fget (fPART_GRF_STAT_STATE n)

/-- Sets the graft state. -/
def State.setGrf (s : State) (n st : Nat) : State := s.fset (fPART_GRF_STAT_STATE n) st

/-- Sets RESULT. -/
def State.grfResult (s : State) (n r : Nat) : State := s.fset (fPART_GRF_STAT_RESULT n) r

/-- A run of granules: first granule, number. -/
abbrev Run := Nat × Nat

/-- Program store runs held by any version (R36). -/
def State.codeRuns (s : State) : List Run :=
  (s.parts.flatMap (fun e => [(e.2.run.codeAt, e.2.run.codeKb), (e.2.other.codeAt, e.2.other.codeKb)])).filter (fun r => decide (r.2 ≠ 0))

/-- Constants and map granules held by any version, in 256-byte units of the table store. -/
def State.tblRuns (s : State) : List Run :=
  (s.parts.flatMap (fun e => [e.2.run, e.2.other].flatMap (fun v =>
    (v.constAt, v.constGran) :: (match v.mapAt with | some a => [(a, 1)] | none => [])))).filter (fun r => decide (r.2 ≠ 0))

/-- First fit of `len` granules in [lo, hi) beside the runs held (R394): the lowest start. -/
def firstFit (runs : List Run) (lo hi len : Nat) : Option Nat :=
  let starts := (lo :: (runs.map (fun r => r.1 + r.2)).filter (fun a => decide (lo ≤ a)))
  let ok := starts.filter (fun a => decide (a + len ≤ hi) && runs.all (fun r => decide (a + len ≤ r.1) || decide (r.1 + r.2 ≤ a)))
  ok.foldl (fun b a => match b with | none => some a | some x => some (min x a)) none

/-- Lengths of the free runs of the program store's 6,144 granules. -/
def freeRuns (runs : List Run) : List Nat :=
  let ends := 0 :: runs.map (fun r => r.1 + r.2)
  let next (a : Nat) : Nat := runs.foldl (fun b r => if a ≤ r.1 then min b r.1 else b) 6144
  ends.map (fun a => if runs.any (fun r => decide (r.1 ≤ a) && decide (a < r.1 + r.2)) then 0 else next a - a)

/-- PART_GRF_FREE, PART_CODE, PART_FAULT_ENTRY, PART_GRF_VAR, PART_GRF_PEND_* and ROWS_OLD as the slots of partition `n` stand. -/
def State.grfRegs (s : State) (n : Nat) : State :=
  let v := s.part n
  let runs := s.codeRuns
  let s1 := (s.fset fPART_GRF_FREE_TOTAL (6144 - runs.foldl (fun a r => a + r.2) 0)).fset fPART_GRF_FREE_LARGEST
    ((freeRuns runs).foldl max 0)
  let s2 := ((s1.fset (fPART_CODE_SIZE n) v.run.codeKb).fset (fPART_CODE_BASE n) v.run.codeAt).fset (fPART_FAULT_ENTRY_ENTRY n) v.run.entry
  let s3 := (s2.fset (fPART_GRF_VAR_VALUE n) v.run.var).fset (fPART_GRF_PEND_CODE_SIZE n) v.other.codeKb
  let s4 := (s3.fset (fPART_GRF_PEND_CODE_BASE n) v.other.codeAt).fset (fPART_GRF_PEND_TBL_MAP_V n) (b2n v.other.mapAt.isSome)
  let s5 := (s4.fset (fPART_GRF_PEND_TBL_MAP_AT n) (v.other.mapAt.getD 0)).fset (fPART_GRF_PEND_TBL_CONST_V n)
    (b2n (decide (v.other.constGran ≠ 0)))
  let s6 := s5.fset (fPART_GRF_PEND_TBL_CONST_AT n) v.other.constAt
  s6.fset (fPART_GRF_STAT_ROWS_OLD n) ((s6.rowsOfPart n).filter (fun r => !s6.arrBit (rPART_GRF_ROWMIG 0) r)).length

/-- Sets a partition's graft data and what the registers show of it. -/
def State.setSlots (s : State) (n : Nat) (v : PartSt) : State := (s.setPart n v).grfRegs n

/-- Fills bytes of a store, with their check bits. -/
def State.fillStore (s : State) (a n : Nat) (b : Byte) : State :=
  let t := s.wrBytes a (List.replicate n b)
  { t with ecc := SMap.clearRange (a / 8) ((a + n) / 8) t.ecc }

/-- Allocates the other slot, all or nothing (R394). -/
def State.grfTake (s : State) (n kb gran maps : Nat) : State :=
  if s.grfState n ≠ gsIdle then s.grfResult n grBadState
  else
    let pool (b z : Fld) (runs : List Run) (len : Nat) : Option Nat :=
      firstFit runs (s.fget b * 16) ((s.fget b + s.fget z) * 16) len
    let code := if kb = 0 then some 0 else firstFit s.codeRuns 0 6144 kb
    let cst := if gran = 0 then some 0 else pool fPART_GRF_CPOOL_BASE fPART_GRF_CPOOL_SIZE s.tblRuns gran
    match code, cst with
    | some a, some c =>
      let map := if maps = 0 then some none
        else (pool fPART_GRF_MPOOL_BASE fPART_GRF_MPOOL_SIZE (s.tblRuns ++ [(c, gran)]) 1).map some
      match map with
      | none => s.grfResult n grNoRoom
      | some m =>
        let s1 := s.fillStore (0x1800000 + a * 1024) (kb * 1024) 0xFF
        let s2 := s1.fillStore (0x1000000 + c * 256) (gran * 256) 0
        let s3 := match m with | some q => s2.fillStore (0x1000000 + q * 256) 256 0 | none => s2
        let s4 := ((s3.fset (fPART_GRF_ALLOC_CODE_KB n) kb).fset (fPART_GRF_ALLOC_CONST_GRAN n) gran).fset (fPART_GRF_ALLOC_MAPS n) maps
        (s4.setSlots n { s4.part n with
          other := { codeKb := kb, codeAt := a, constAt := c, constGran := gran, mapAt := m, maps := maps } }).setGrf n gsLoading
    | _, _ => s.grfResult n grNoRoom

/-- PART_GRF_ALLOC (R394): requests the other slot; a standby changes nothing. -/
def State.grfAlloc (s : State) (n kb gran maps : Nat) : State :=
  if s.standby then s.grfResult n grStandby else s.grfTake n kb gran maps

/-- Channels of the partition on the bank that is not active (R408): live channels whose step lies in it. -/
def State.oldBank (s : State) (n : Nat) : Nat :=
  let act := s.fget (fSTEP_PART_BANK_ACTIVE n)
  ((s.rowsOfPart n).flatMap (fun r => (List.range 256).filter (fun l =>
    let t := s.stepSt (r * 256 + l)
    t.live && decide (t.step / 0x8000 ≠ act)))).length

/-- Whether a migration map is valid (R393). -/
def mapOk (m : List Byte) : Bool :=
  (List.range 64).all (fun j =>
    let k := leAt m (2 * j) 1
    decide (k % 64 = 0) && decide (k / 64 ≤ 2) && (decide (k / 64 = 1) || decide (leAt m (2 * j + 1) 1 < 64)))

/-- A map applied to the 64 bytes of a lane (R393). -/
def mapApply (m old : List Byte) : List Byte :=
  (List.range 64).map (fun j =>
    let k := leAt m (2 * j) 1 / 64
    let a := leAt m (2 * j + 1) 1
    if k = 0 then old.getD a 0 else if k = 1 then BitVec.ofNat 8 a
    else if 128 ≤ (old.getD a 0).toNat then 0xFF else 0)

/-- The bytes a version's CRC covers (R396): code, constants, maps. -/
def State.castBytes (s : State) (v : Version) (constLen : Nat) : List Byte :=
  s.rdList (0x1800000 + v.codeAt * 1024) (v.codeKb * 1024) ++ s.rdList (0x1000000 + v.constAt * 256) constLen
    ++ (match v.mapAt with | some q => s.rdList (0x1000000 + q * 256) (v.maps * 128) | none => [])

/-- The reads of a version's code, constants and maps (spec/01_architecture.md R39, R40). -/
def State.seeVersion (s : State) (v : Version) (constLen : Nat) : State :=
  let s1 := (s.tblSee (0x1800000 + v.codeAt * 1024) (v.codeKb * 1024)).tblSee (0x1000000 + v.constAt * 256) constLen
  match v.mapAt with | some q => s1.tblSee (0x1000000 + q * 256) (v.maps * 128) | none => s1

/-- Whether code or constants of a version, or a map, hold a word that cannot be corrected: it is not used, so the check that reads it fails
(spec/01_architecture.md R39; DESIGN CHOICE, log 78). -/
def State.versionBad (s : State) (v : Version) (constLen : Nat) : Bool :=
  s.tblBad (0x1800000 + v.codeAt * 1024) (v.codeKb * 1024) || s.tblBad (0x1000000 + v.constAt * 256) constLen
def State.mapsBad (s : State) (v : Version) : Bool :=
  match v.mapAt with | some q => s.tblBad (0x1000000 + q * 256) (v.maps * 128) | none => false

/-- The checks of ARM in their order (R396): the RESULT of the first that fails. -/
def State.grfCheck (s : State) (n : Nat) : Option Nat :=
  let v := s.part n
  let o := v.other
  let len := s.fget (fPART_GRF_HDR_A_CONST_LEN n)
  let ent := s.fget (fPART_GRF_HDR_A_FAULT_ENTRY n)
  let new := s.fget (fPART_GRF_HDR_NEWVAR_VALUE n)
  let old := s.fget (fPART_GRF_HDR_OLDVAR_VALUE n)
  let moves := decide (1 ≤ v.run.codeKb) && decide (1 ≤ o.codeKb)
  let mapB (i : Nat) : List Byte := s.rdList (0x1000000 + o.mapAt.getD 0 * 256 + i * 128) 128
  if s.fbit (fPART_CTRL_LOCK n) then some grLocked
  else if s.fbit (fPART_GRF_CTRL_RECIPE n) ∧ s.oldBank n ≠ 0 then some grBadState
  else if o.constGran * 256 < len ∨ (1 ≤ o.codeKb ∧ ¬ (4 ≤ ent ∧ ent + 1 ≤ o.codeKb * 512)) then some grEntryBad
  else if moves ∧ old ≠ v.run.var then some grVarMismatch
  else if decide (1 ≤ o.maps) ≠ (moves && decide (new ≠ old)) ∨ (List.range o.maps).any (fun i => !mapOk (mapB i)) ∨ s.mapsBad o = true then some grMapBad
  else if s.versionBad o len = true ∨ crc32 (s.castBytes o len) ≠ s.fget (fPART_GRF_HDR_CRC_VALUE n) then some grCrc
  else none

/-- Fixes the commit or rollback cycle at the second boundary from now and sends it to the standby (R398). -/
def State.fixC (s : State) (n : Nat) : State :=
  let c := s.cycle.toNat + (if s.started || s.rack.beat.isSome then 2 else 1)
  (s.setPart n { s.part n with commitAt := some c }).rackOrdered rkCode ([n, 1] ++ nats (leBytes 8 c))

/-- ARM (R396) by master `m`. -/
def State.grfArm (s : State) (n m : Nat) : State :=
  if s.grfState n = gsLoading then (s.setPart n { s.part n with armer := m }).setGrf n gsChecking else s.grfResult n grBadState

/-- After the check, or once the standby has confirmed: ARMED, with C fixed unless the graft waits for its group (R397, R398). -/
def State.grfArmed (s : State) (n : Nat) : State :=
  let s1 := s.setGrf n gsArmed
  if s1.fbit (fPART_GRF_CTRL_GROUP n) then s1 else s1.fixC n

/-- What a racked graft carries (R397): header values, code, constants and maps, and for RECIPE = 1 the step range and limit sets
of the bank that is not active. -/
def State.grfRack (s : State) (n : Nat) : State :=
  let v := (s.part n).other
  let b := 1 - s.fget (fSTEP_PART_BANK_ACTIVE n)
  let rng := if s.fbit (fPART_GRF_CTRL_RECIPE n) then
      s.rdList (s.entryAddr b (s.fget (fSTEP_PART_RANGE_BASE n))) (s.fget (fSTEP_PART_RANGE_LEN n) * 32)
        ++ s.rdList (s.limAddr b (s.fget (fSTEP_PART_LIM_BASE n))) (s.fget (fSTEP_PART_LIM_COUNT n) * 16)
    else []
  let alloc := v.codeKb * 2 ^ 24 + v.constGran * 2 ^ 18 + v.maps * 2 ^ 16
  let hdr := leBytes 4 (s.reg (rPART_GRF_CTRL n)).toNat ++ leBytes 4 alloc
    ++ [rPART_GRF_HDR_A n, rPART_GRF_HDR_NEWVAR n, rPART_GRF_HDR_OLDVAR n, rPART_GRF_HDR_CRC n].flatMap (fun o => leBytes 4 (s.reg o).toNat)
  let s := if s.fbit (fPART_GRF_CTRL_RECIPE n) then
      (s.tblSee (s.entryAddr b (s.fget (fSTEP_PART_RANGE_BASE n))) (s.fget (fSTEP_PART_RANGE_LEN n) * 32)).tblSee
        (s.limAddr b (s.fget (fSTEP_PART_LIM_BASE n))) (s.fget (fSTEP_PART_LIM_COUNT n) * 16)
    else s
  s.rackOrdered rkCode ([n, 0] ++ nats (hdr ++ s.castBytes v (s.fget (fPART_GRF_HDR_A_CONST_LEN n)) ++ rng))

/-- The check of partition `n`'s graft ends (R396, R397). -/
def State.grfCheckDone (s0 : State) (n : Nat) : State :=
  let s := if s0.grfState n = gsChecking then s0.seeVersion (s0.part n).other (s0.fget (fPART_GRF_HDR_A_CONST_LEN n)) else s0
  if s.grfState n ≠ gsChecking then s
  else match s.grfCheck n with
    | some r => (s.grfResult n r).setGrf n gsLoading
    | none => if s.peerInSync then (s.setGrf n gsRacking).grfRack n else s.grfArmed n

/-- GRAFT_RACK_CONFIRM (R397, R398, R412): a racked graft is armed; a rollback notice confirmed fixes C′. -/
def execGraftRackConfirm (n : Fin 256) (s : State) : Out :=
  let n := n.val
  .next (if s.grfState n = gsRacking then s.grfArmed n
    else if s.grfState n = gsRollback ∧ (s.part n).commitAt = none then s.fixC n
    else s)

/-- GRAFT_RACK_TIMEOUT (R397). -/
def execGraftRackTimeout (n : Fin 256) (s : State) : Out :=
  let n := n.val
  .next (if s.grfState n = gsRacking then (s.grfResult n grRackTimeout).setGrf n gsLoading else s)

/-- Frees the other slot. -/
def State.freeOther (s : State) (n : Nat) : State :=
  s.setSlots n { s.part n with other := {}, commitAt := none, rollback := false, swapCode := false, migrate := none, windowEnd := none }

/-- ABORT (R414). -/
def State.grfAbort (s : State) (n : Nat) : State :=
  let st := s.grfState n
  if st = gsArmed ∧ (s.part n).commitAt.isSome then s.grfResult n grTooLate
  else if st = gsLoading ∨ st = gsChecking ∨ st = gsRacking ∨ st = gsArmed then ((s.freeOther n).grfResult n grAborted).setGrf n gsIdle
  else s.grfResult n grBadState

/-- ROLLBACK (R412) by master `m`. -/
def State.grfRollback (s : State) (n m : Nat) : State :=
  let v := s.part n
  if s.grfState n ≠ gsWindow then s.grfResult n grBadState
  else if v.other.maps = 1 then s.grfResult n grNoReverse
  else
    let s1 := (s.setPart n { v with rollback := true, armer := m, commitAt := none, windowEnd := none }).setGrf n gsRollback
    if s1.peerInSync then s1.rackOrdered rkCode [n, 2] else s1.fixC n

/-- The window ends: the previous version's code and constants are freed and the sweep begins (R413). -/
def State.grfRelease (s : State) (n : Nat) : State :=
  let v := s.part n
  (s.setSlots n { v with other := { mapAt := v.other.mapAt, maps := v.other.maps }, windowEnd := none }).setGrf n gsSweep

/-- RELEASE (R413). -/
def State.grfReleaseReq (s : State) (n : Nat) : State :=
  if s.grfState n = gsWindow then s.grfRelease n else s.grfResult n grBadState

/-- ROLLBACK_WINDOW_END (R413): at WIN seconds of line time after T(C). -/
def execRollbackWindowEnd (n : Fin 256) (s : State) : Out :=
  let n := n.val
  .next (match (s.part n).windowEnd with
    | some e => if s.grfState n = gsWindow ∧ e ≤ s.lt.toNat then s.grfRelease n else s
    | none => s)

/-- A write of GO (R398) by master `m`. -/
def State.grfGo (s : State) (m : Nat) : State :=
  let group := (List.range 256).filter (fun n => s.fbit (fPART_GRF_CTRL_GROUP n))
  if group.any (fun n => decide (s.grfState n = gsChecking) || decide (s.grfState n = gsRacking)) then s.cfgReject rPART_GRF_GROUP m
  else (group.filter (fun n => decide (s.grfState n = gsArmed) && (s.part n).commitAt.isNone)).foldl (fun t n => t.fixC n) s

/-- Sets a row's ROWMIG bit. -/
def State.setMig (s : State) (r : Nat) (b : Bool) : State := s.setArrBit (rPART_GRF_ROWMIG 0) r b

/-- Pre-bookings of a partition's channels are cancelled; the ledger frees them in step 5 of the boundary (R410). -/
def State.cancelPart (s : State) (n : Nat) : State :=
  { s with ledgQ := s.ledgQ.map (fun e =>
      if (decide (e.kind = .tentative) || decide (e.kind = .tentWait)) && decide (s.owner (e.ch / 256) = some n) then { e with cancelled := true }
      else e) }

/-- FLAGS.GRAFT_PEND of a partition's channels (R408, spec/07_step_sequencer.md R239): set where a running step's bank is not the active one. A
channel without a step uses no bank, and counts in OLD_BANK no more than it sets the flag (DEDUCED, log 81). -/
def State.pendBank (s : State) (n : Nat) : State :=
  let act := s.fget (fSTEP_PART_BANK_ACTIVE n)
  (s.rowsOfPart n).foldl (fun t r => (List.range 256).foldl (fun t l =>
    let o := t.stepSt (r * 256 + l)
    let v := o.setFlag 5 (o.live && decide (o.step / 0x8000 ≠ act))
    if v = o then t else t.setStep (r * 256 + l) v) t) s

/-- The recipe switch of a commit or a rollback (R399, R408 … R410). -/
def State.flipBank (s : State) (n : Nat) : State :=
  if s.fbit (fPART_GRF_CTRL_RECIPE n) then
    let t := s.fset (fSTEP_PART_BANK_ACTIVE n) (1 - s.fget (fSTEP_PART_BANK_ACTIVE n))
    let rest := t.nowParts.filter (fun p => decide (p ≠ n))
    ({ t with nowParts := if t.fbit (fPART_GRF_CTRL_NOW n) then rest ++ [n] else rest }.cancelPart n).pendBank n
  else s

/-- What a commit and a rollback share at T(C): result, cycle, event, record, and the cancelled rows (R399, R400, R412). -/
def State.grfDone (s : State) (n c result ev : Nat) : State :=
  let s1 := (s.rowsOfPart n).foldl (fun t r => t.cancelRow r c true) s
  let s2 := ((s1.fset (fPART_GRF_COMMIT_VALUE n) (c % 2 ^ 32)).grfResult n result).assertEv ev
  s2.cellarAs 0x0016 (s.part n).armer n result c 0

/-- Commit at T(C) (R399). -/
def State.grfCommit (s : State) (n c : Nat) : State :=
  let v := s.part n
  let o := v.other
  let code := decide (1 ≤ o.codeKb)
  let moved := code && decide (1 ≤ o.maps)
  let new : Version := { o with
    entry := s.fget (fPART_GRF_HDR_A_FAULT_ENTRY n), constLen := s.fget (fPART_GRF_HDR_A_CONST_LEN n)
    var := s.fget (fPART_GRF_HDR_NEWVAR_VALUE n), mapAt := none, maps := 0 }
  let w : PartSt := { v with
    run := if code then new else v.run
    other := if code then { v.run with mapAt := o.mapAt, maps := o.maps } else o
    swapCode := code, commitAt := none
    migrate := if moved then o.mapAt.map (fun a => (a, true)) else none
    windowEnd := some (s.lt.toNat + s.fget (fPART_GRF_CTRL_WIN n) * 1000000000) }
  let s0 := match o.mapAt with | some q => s.when moved (fun t => t.tblSee (0x1000000 + q * 256) 128) | none => s
  let s1 := ((s0.rowsOfPart n).foldl (fun t r => t.setMig r (!moved)) s0).setSlots n w
  let s2 := ((s1.flipBank n).grfDone n c grCommitted 692).setGrf n gsWindow
  if s.fget (fPART_GRF_CTRL_WIN n) = 0 then s2.grfRelease n else s2

/-- Rollback at T(C′) (R412). -/
def State.grfBack (s : State) (n c : Nat) : State :=
  let v := s.part n
  let moved := decide (1 ≤ v.other.maps)
  let w : PartSt := { v with
    run := if v.swapCode then { v.other with mapAt := none, maps := 0 } else v.run
    other := if v.swapCode then { v.run with mapAt := v.other.mapAt, maps := v.other.maps } else v.other
    commitAt := none
    migrate := if moved then v.other.mapAt.map (fun a => (a, false)) else none }
  let s1 := if moved then (s.rowsOfPart n).foldl (fun t r => t.setMig r (!t.arrBit (rPART_GRF_ROWMIG 0) r)) s else s
  (((s1.setSlots n w).flipBank n).grfDone n c grRolledBack 693).setGrf n gsSweep

/-- Step 3 of the boundary T(c): commits and rollbacks fixed for it, in ascending partition number (R57, R399, R412). -/
def State.graftBoundary (s : State) (c : Nat) : State :=
  ((s.parts.filter (fun e => decide (e.2.commitAt = some c))).map (fun e => e.1)).foldl (fun t n =>
    if (t.part n).rollback then t.grfBack n c else t.grfCommit n c) s

/-- The map that rows of a partition still need: forward at +0, reverse at +128. -/
def State.rowMap (s : State) (n : Nat) : Option (List Byte) :=
  (s.part n).migrate.map (fun m => s.rdList (0x1000000 + m.1 * 256 + (if m.2 then 0 else 128)) 128)

/-- Migrates a row's channel variables in place (R404, R407). -/
def State.migrateRow (s : State) (r : Nat) : State :=
  match s.owner r with
  | none => s.setMig r true
  | some n =>
    match s.rowMap n with
    | none => (s.setMig r true).grfRegs n
    | some m =>
      let s1 := (List.range 256).foldl (fun t l =>
        let a := rowBase r + 0x5000 + 64 * l
        t.wrBytes a (mapApply m (t.rdList a 64))) s
      (s1.setMig r true).grfRegs n

/-- Whether a press holds a claim on the row. -/
def State.pressClaim (s : State) (r : Nat) : Bool := decide (clLoading ≤ s.fget (fSCHED_ROW_STAT_CLAIM r))

/-- GRAFT_SWEEP_DONE (R407): every row without a press claim whose bit is 0 is migrated; while one is left the sweep goes on; then the
map is freed and the state becomes IDLE. -/
def execGraftSweepDone (n : Fin 256) (s : State) : Out :=
  let n := n.val
  .next (if s.grfState n ≠ gsSweep then s
    else
      let old (t : State) : List Nat := (t.rowsOfPart n).filter (fun r => !t.arrBit (rPART_GRF_ROWMIG 0) r)
      let s1 := ((old s).filter (fun r => !s.pressClaim r)).foldl (fun t r => t.migrateRow r) s
      if (old s1).isEmpty then
        let rb := (s1.part n).rollback
        ((s1.freeOther n).setGrf n gsIdle).when (!rb) (fun t => t.grfResult n grReleased)
      else s1)

/-- The in-place migration of a scalar context's stall is over, or was not needed: the row's claim ends, and the access proceeds, its
instruction being issued again (R404). The stall counts in CLK_USED. -/
def State.migrationEnd (s : State) (c : Cx) (r : Nat) : State :=
  let f := s.freeC
  let s1 := (f.2.setCx c { f.2.cx c with stall := none }).clocks c f.1 f.1
  (s1.when (!s1.pressClaim r || s.migrating r) (fun t => t.restClaim r (if (t.row r).job.isSome then clReady else clNone))).atBoundary c

/-- SCALAR_MIGRATION (R404): once no press holds a claim on the row, the frame loader takes the row's claim; the next such command ends the
migration. A row that a press has migrated meanwhile needs none. -/
def execScalarMigration (j : Fin 16) (s : State) : Out :=
  let c := Cx.scalar j
  .next (if !s.mainRuns then s else match (s.cx c).stall with
    | some (.migrate r claimed) =>
      if claimed then (s.migrateRow r).migrationEnd c r
      else if s.pressClaim r then s
      else if s.arrBit (rPART_GRF_ROWMIG 0) r then s.migrationEnd c r
      else (s.setCx c { s.cx c with stall := some (.migrate r true) }).fset (fSCHED_ROW_STAT_CLAIM r) clLoading
    | _ => s)

end Sys2Proof.Machine
end

