-- ==== Sys2Proof/Machine/StepPass.lean ====
section
/-! DEFINITION. The step pass: limits, terminations, transitions, ledger answers, pre-bookings, shedding and results (spec/07_step_sequencer.md R235 … R251, spec/09_bus_ledger.md R287 … R299). -/

namespace Sys2Proof.Machine

/-- End causes (R250). -/
abbrev ecTerm0 : Nat := 1
abbrev ecLimit : Nat := 4
abbrev ecRefused : Nat := 5
abbrev ecProg : Nat := 6
abbrev ecHost : Nat := 7
abbrev ecStopped : Nat := 8
abbrev ecTable : Nat := 9

/-- Where a transition leads: a step index (0x7FFF END), or STATUS FAULT. -/
inductive StepTgt where
  | idx (i : Nat)
  | fault
  deriving DecidableEq, Repr

/-- S of the row's last pass. -/
def State.passLt (s : State) (r : Nat) : Nat :=
  match (s.row r).passed with
  | some m => s.tOf m
  | none => s.tn.toNat

/-- Stages the result record of a step that ended (R251): its step state `t` at the end, cause, detail, target, STATUS after. A step that
a command ends has no ending pass: LT is S of the row's last one (DEDUCED, log 47). -/
def State.stageEnd (s : State) (n ch : Nat) (x : Sample) (t : StepSt) (cause detail target status : Nat) : State :=
  let lt := s.passLt (ch / 256)
  s.stageResult n lt
    (leBytes 4 0x01000000 ++ leBytes 4 (ch + n * 2 ^ 24) ++ leBytes 8 lt ++ leBytes 5 (s.wallSecAt lt)
      ++ leBytes 1 s.wall.epoch ++ leBytes 2 t.step ++ leBytes 5 t.elapsed ++ leBytes 1 cause ++ leBytes 1 detail
      ++ leBytes 1 t.loop ++ leBytes 6 (unsgn 48 t.charge) ++ leBytes 6 (unsgn 48 t.energy) ++ leBytes 4 (unsgn 32 x.v)
      ++ leBytes 4 (unsgn 32 x.i) ++ leBytes 2 (unsgn 16 x.t) ++ leBytes 2 target ++ leBytes 1 status ++ leBytes 1 t.flags
      ++ leBytes 1 (x.epoch % 256) ++ leBytes 1 0 ++ leBytes 4 0)

/-- A step ends with a cause: LAST_END, and the partition's count (R250). -/
def State.finishStep (s : State) (n : Nat) (t : StepSt) (cause : Nat) : StepSt × State :=
  (({ t with lastEnd := cause }).setFlag 2 false, s.fsat (fSTEP_PART_CNT_END_COUNT n))

/-- Step entry (R241, R244): what the module sets when a channel enters step `step`, bank included. -/
def State.enterStep (s : State) (ch step : Nat) (e : StepEnt) (x : Sample) (t : StepSt) : StepSt × State :=
  let t1 : StepSt := { t with
    step := step, status := ssRunning, elapsed := 0, charge := 0, energy := 0, deb := 0
    trackV := if e.track = 1 then trackV x.v else 0, age := 0, qFrac := 0, eFrac := 0 }
  ((((t1.setFlag 6 true).setFlag 7 false).setFlag 2 false).setFlag 5 false,
    s.setCh ch { s.ch ch with held0 := 0, held1 := 0, held2 := 0, winOpen := false, answer := 0, posted := false })

/-- STEP_FAULT_TABLE (R235): the step ends with TABLE_FAULT; `e` is the channel's current entry where it is valid. -/
def State.tableFault (s : State) (n ch step why : Nat) (x : Sample) (t : StepSt) (e : Option StepEnt) : StepSt × State :=
  let s1 := ((s.cancelBooking ch).ledgDrop ch).setBooked ch 0
  let p := if t.live then s1.finishStep n t ecTable else (t, s1)
  let t1 := ({ p.1 with status := ssFault } : StepSt).setFlag 5 false
  let s2 := (((p.2.fset fSTEP_STAT_FAULT_TABLE 1).fsat fSTEP_CNT_FAULT_COUNT).fset fSTEP_LAST_FAULT_WHY why).fset fSTEP_LAST_FAULT_CH ch
  let s3 := ((s2.fset fSTEP_LAST_FAULT_STEP_STEP step).assertEv 685).setCh ch { s2.ch ch with answer := 0 }
  match e with
  | some e => (t1, s3.when (t.live && e.result) (fun u => u.stageEnd n ch x t ecTable 0 stepEnd ssFault))
  | none => (t1, s3)

/-- Class of a request (spec/09_bus_ledger.md R288): SAFETY and GRADE by the target's flags, else as given. -/
def StepEnt.cls (e : StepEnt) (other : Nat) : Nat := if e.safety then clsSafety else if e.grade then clsGrade else other

/-- The ledger part of a transition to entry `e` (R245, R287, R296): whether the step is entered now. A TENTATIVE booking for it is the
admission; one that still waits is needed no longer where the estimate does not raise the booked value (DEDUCED, log 81). -/
def State.admitStep (s : State) (n ch : Nat) (e : StepEnt) (x : Sample) (cls : Nat) (toNext : Bool) : Bool × State :=
  let est := s.estimate ch e x.v
  let prio := s.fget (fPART_CFG_PRIO n)
  let k := e.cls cls
  let s1 := s.setCh ch { s.ch ch with cls := cls, answer := 0 }
  let bk := if toNext then s.booking ch else none
  if raises (s.booked ch) est || decide ((bk.map (fun b => b.kind)) = some .tentative) then
    match bk with
    | some b => s1.useBooking ch b prio (decide (e.wait = 0))
    | none => s1.ledgAsk ch k prio s.cycle.toNat est (decide (e.wait = 0))
  else (true, (s1.ledgUnbook ch).setBooked ch est)

/-- A transition (R245): ends the current step with `cause` and `detail`, and enters the target, waits for admission, or ends
the recipe. `e` is the current entry, none from IDLE, DONE and FAULT; `cls` the class the request has without flags (R288);
`loop0` for START. Answers the new step state and the entry it runs. -/
def State.transit (s : State) (n ch : Nat) (x : Sample) (t : StepSt) (e : Option StepEnt) (tgt : StepTgt) (cause detail cls : Nat)
    (loop0 : Bool) : StepSt × Option StepEnt × State :=
  let s0 := if t.status = ssAwait ∨ t.status = ssPaused then s.ledgDrop ch else s
  let toNext := match e, tgt with
    | some c, .idx i => decide (i = c.next)
    | _, _ => false
  let s1 := if toNext then s0 else s0.cancelBooking ch
  let stage (u : State) (target status : Nat) : State :=
    match e with
    | some c => u.when c.result (fun w => w.stageEnd n ch x t cause detail target status)
    | none => u
  let fin (u : State) : StepSt × State := match e with | some _ => u.finishStep n t cause | none => (t, u)
  let stop (status : Nat) : StepSt × Option StepEnt × State :=
    let p := fin ((s1.cancelBooking ch).setBooked ch 0)
    (({ p.1 with status := status, loop := if loop0 then 0 else p.1.loop } : StepSt).setFlag 5 false, none,
      stage (p.2.setCh ch { p.2.ch ch with answer := 0 }) stepEnd status)
  match tgt with
  | .fault => stop ssFault
  | .idx i =>
    if i = stepEnd then stop ssDone
    else
      let step := s.fget (fSTEP_PART_BANK_ACTIVE n) * 0x8000 + i % 0x8000
      match s1.readEntry n step with
      | (.error why, u) =>
        let p := u.tableFault n ch step why x t e
        (p.1, none, p.2)
      | (.ok ne, u) =>
        let p := fin u
        let t1 : StepSt := { p.1 with loop := if loop0 then 0 else p.1.loop }
        match p.2.admitStep n ch ne x cls toNext with
        | (true, w) =>
          let q := w.enterStep ch step ne x t1
          (q.1, some ne, stage q.2 step ssRunning)
        | (false, w) => (({ t1 with step := step, status := ssAwait, elapsed := 0 } : StepSt).setFlag 5 false, some ne, stage w step ssAwait)

/-- What a pass decides for a channel: a target with cause and detail, or nothing. -/
abbrev Decision := Option (StepTgt × Nat × Nat)

/-- The limits of the entry (R234, R242); a firing also triggers the reflex table (spec/11_board_obligations_reflex.md R367). -/
def State.limitStep (s : State) (n ch : Nat) (e : StepEnt) (x : Sample) (t : StepSt) : Decision × StepSt × State :=
  if x.held then (none, t, s)
  else
    let b := breaches e x
    let d := debounce t.deb 0 e.limConfirm (decide (b ≠ 0))
    let t1 := { t with deb := d.1 }
    if d.2 then
      (some (if e.limGoto then .idx e.limTarget else .fault, ecLimit, b), t1,
        { s with triggers := s.triggers ++ [({ kind := 3, arg := n, row := ch / 256, lanes := laneSet [ch % 256] } : Trigger)] })
    else (none, t1, s)

/-- What a comparator that fired does (R232). -/
def termAct (e : StepEnt) (t : StepSt) (j detail : Nat) : Decision × StepSt :=
  let act := match e.terms[j]? with | some c => c.act | none => 5
  let go (g : StepTgt) (u : StepSt) : Decision × StepSt := (some (g, ecTerm0 + j, detail), u)
  if act = 0 then go (.idx e.next) t
  else if act = 1 then go (.idx e.alt) t
  else if act = 2 then
    (if t.loop < e.loopN then go (.idx e.alt) { t with loop := t.loop + 1 } else go (.idx e.next) { t with loop := 0 })
  else if act = 3 then go (.idx stepEnd) t
  else if act = 4 then go .fault t
  else (none, t)

/-- The step's own wait is over (R229, R246): the request is withdrawn; the record keeps its last cause
(spec/09_bus_ledger.md R292). -/
def State.waitRefused (s : State) (ch : Nat) : State :=
  let s1 := ((s.ledgDrop ch).fsat fLEDG_CNT_REFUSED_COUNT).fset fLEDG_STAT_REFUSED 1
  (s1.ledgMark ch lsRefused (s1.rdLE (s1.ledgRec ch + 3) 1 / 8)).assertEv 689

/-- What is left of a prediction (R247): passes until the comparator's quantity reaches its threshold. -/
def predict (c : Cmp) (t : StepSt) (dElapsed dCharge dEnergy : Int) : Option Int :=
  let p (v g u : Int) : Option Int := if 0 < g then some (-((-(c.thresh * u - v)) / g)) else none
  if c.act ≠ 0 ∨ c.isAnd = true then none
  else if c.qty = 5 then p t.elapsed dElapsed 1
  else if c.qty = 6 then p t.elapsed dElapsed 1000
  else if c.qty = 7 then p t.elapsed dElapsed 1000000
  else if c.qty = 8 then p t.charge dCharge 100000000
  else if c.qty = 9 then p t.energy dEnergy 100000
  else none

/-- The pre-booking check of a RUNNING step without a transition (R247, spec/09_bus_ledger.md R294). -/
def State.prebookCheck (s : State) (n ch : Nat) (e : StepEnt) (x : Sample) (t : StepSt) (dElapsed dCharge dEnergy : Int) :
    StepSt × State :=
  if (!e.prebook || (s.ch ch).posted || decide (e.next = stepEnd)) = true then (t, s)
  else if (e.terms.filterMap (fun c => predict c t dElapsed dCharge dEnergy)).any (fun p => decide (p ≤ e.k)) then
    match s.readEntry n (s.fget (fSTEP_PART_BANK_ACTIVE n) * 0x8000 + e.next) with
    | (.error _, u) => (t, u)
    | (.ok ne, u) =>
      let est := u.estimate ch ne x.v
      if raises (u.booked ch) est then
        match u.prebook ch (ne.cls clsContinuing) (u.fget (fPART_CFG_PRIO n)) est e.k with
        | (true, w) => (t.setFlag 2 true, w.setCh ch { w.ch ch with posted := true })
        | (false, w) => (t, w)
      else (t, u)
  else (t, s)

/-- A channel that shedding may pause (spec/09_bus_ledger.md R298): its rank, GRADE first and then in pass order from the row after the last
one paused on the bus, and what it books on the overloaded side; none where its step is not RUNNING or held, is SAFETY, or books
nothing there. -/
def State.shedCand (s : State) (b : Nat) (imp : Bool) (ch : Nat) : Option (List Nat × Nat) :=
  let v := s.booked ch
  let a := if imp then sideImp v else sideExp v
  if a = 0 then none
  else
    let t := s.stepSt ch
    let f := (s.rdB (s.entryAddr (t.step / 0x8000 % 2) (t.step % 0x8000) + 1)).toNat
    if (decide (t.status = ssRunning) || decide (t.status = ssHeld)) && !bitOf f 0 then
      some ([b2n (!bitOf f 1), (ch / 256 + 512 - (s.bus b).shedFirst) % 512, ch % 256], a)
    else none

/-- Whether a row's pass of the running cycle may still come: its partition runs or holds, it has not passed, and its harvest is not
missed. -/
def State.mayPass (s : State) (r : Nat) : Bool :=
  let v := s.row r
  let n := some s.cycle.toNat
  (match s.owner r with | some p => decide (s.partMode p ≠ 1) | none => false) && decide (v.passed ≠ n) && decide (v.noHarvest ≠ n)

/-- Whether shedding pauses channel `ch` on one side of its bus in its pass (R298): the channels that rank before it and may still be
paused in this cycle, those of this row after it and those of rows whose pass may still come, book less than what is left of the quota
(DEDUCED, log 81: a pass knows what is booked now, not which later pass makes a transition). -/
def State.shedSide (s : State) (b ch : Nat) (imp : Bool) (quota : Nat) : Bool :=
  if quota = 0 then false
  else
    match s.shedCand b imp ch with
    | none => false
    | some (rank, _) =>
      let r := ch / 256
      let rows := (List.range 512).filter (fun q => decide (s.fget (fLEDG_ROW_BUS_BUS q) = b) && (decide (q = r) || s.mayPass q))
      let later := rows.flatMap (fun q => (List.range 256).filterMap (fun l =>
        if q = r ∧ l ≤ ch % 256 then none else s.shedCand b imp (q * 256 + l)))
      decide (((later.filter (fun e => lexLt e.1 rank)).map (fun e => e.2)).sum < quota)

/-- Whether shedding pauses a channel in its pass of the running cycle, and on which side; `ok` where it made no transition and may be
paused (R298). Its step state must stand as the pass leaves it. -/
def State.shedPick (s : State) (ch : Nat) (ok : Bool) : Option Bool :=
  let b := s.busOf ch
  let k := s.bus b
  if !ok || !decide (s.ledgQ.length < 8192) then none
  else if s.shedSide b ch true k.quotaImp then some true
  else if s.shedSide b ch false k.quotaExp then some false
  else none

/-- After a takeover a channel's first pass books its step's estimate again, or asks again (spec/09_bus_ledger.md, "When the rules
meet"; spec/14_racking_standby.md R445). -/
def State.rebook (s : State) (n ch : Nat) (e : StepEnt) (x : Sample) (t : StepSt) : State :=
  let est := s.estimate ch e x.v
  let prio := s.fget (fPART_CFG_PRIO n)
  if t.status = ssRunning ∨ t.status = ssHeld then s.setBooked ch est
  else if t.status = ssPaused then
    let q : LedgEnt := { kind := .paused, ch := ch, cls := e.cls clsContinuing, prio := prio, date := s.cycle.toNat, amount := est, horizon := 0, cancelled := false }
    (s.setQ (s.busOf ch) (s.ledgQ ++ [q])).ledgMark ch lsPaused (if 0 < est then lcShedImp else lcShedExp)
  else
    match s.ledgAsk ch (e.cls clsContinuing) prio s.cycle.toNat est (decide (e.wait = 0)) with
    | (true, u) => u.setCh ch { u.ch ch with answer := 1 }
    | (false, u) => u

/-- A waiting step's answer (R246): entered, refused, or nothing yet. -/
def State.awaitStep (s : State) (n ch : Nat) (e : StepEnt) (x : Sample) (t : StepSt) : Decision × StepSt × Option StepEnt × State :=
  let a := (s.ch ch).answer
  let s1 := s.setCh ch { s.ch ch with answer := 0 }
  let refuse (u : State) : Decision × StepSt × Option StepEnt × State := (some (.idx e.refused, ecRefused, 0), t, some e, u)
  if a = 1 then
    let step := s.fget (fSTEP_PART_BANK_ACTIVE n) * 0x8000 + t.step % 0x8000
    match s1.readEntry n step with
    | (.ok ne, u) =>
      let q := u.enterStep ch step ne x t
      (none, q.1, some ne, q.2)
    | (.error why, u) =>
      let p := u.tableFault n ch step why x t (some e)
      (none, p.1, none, p.2)
  else if a = 2 then refuse s1
  else if e.wait = 0 ∨ 1000 * 2 ^ (e.wait - 1) ≤ t.elapsed then refuse (s1.waitRefused ch)
  else (none, t, some e, s1)

/-- The pass of a live channel with its entry read (R241). -/
def State.passEntry (s : State) (n ch dt : Nat) (gap : Bool) (x : Sample) (xi : Sample) (t0 : StepSt) (e : StepEnt) :
    StepSt × Option StepEnt × State :=
  let p1 := if t0.status = ssRunning ∨ t0.status = ssAwait then s.addElapsed t0 dt else (t0, s)
  let p2 := p1.2.integrate p1.1 xi.v xi.i dt
  let tr := trackStep p2.1 e x gap (s.ch ch).winOpen
  let s2 := p2.2.setCh ch { p2.2.ch ch with winOpen := tr.2.1 }
  let l := s2.limitStep n ch e x tr.1
  let cx := l.2.2.ch ch
  let tm := if l.1.isNone ∧ t0.status = ssRunning then some (l.2.2.terms e l.2.1 x tr.2.2 [cx.held0, cx.held1, cx.held2]) else none
  match tm with
  | some (a, u) =>
    if a.bad then
      let p := u.tableFault n ch l.2.1.step whyCurve x l.2.1 none
      (p.1, none, p.2)
    else
      let t3 := { l.2.1 with deb := a.deb }
      let u1 := u.setCh ch { u.ch ch with held0 := a.held.getD 0 0, held1 := a.held.getD 1 0, held2 := a.held.getD 2 0 }
      match a.fired with
      | some j =>
        let d := termAct e t3 j (a.held.getD j 0)
        (match d.1 with
          | some (g, c, k) => u1.transit n ch x d.2 (some e) g c k clsContinuing false
          | none => (d.2, some e, u1))
      | none =>
        let q := u1.prebookCheck n ch e x t3 ((t3.elapsed : Int) - t0.elapsed) (t3.charge - t0.charge) (t3.energy - t0.energy)
        (q.1, some e, q.2)
  | none =>
    match l.1 with
    | some (g, c, k) => l.2.2.transit n ch x l.2.1 (some e) g c k clsContinuing false
    | none =>
      if t0.status = ssAwait then
        match l.2.2.awaitStep n ch e x l.2.1 with
        | (some (g, c, k), t4, some e4, u) => u.transit n ch x t4 (some e4) g c k (u.ch ch).cls false
        | (_, t4, e4, u) => (t4, e4, u)
      else if t0.status = ssPaused ∧ (cx.answer = 1) then
        ({ l.2.1 with status := ssRunning, deb := 0 }, some e, l.2.2.setCh ch { cx with answer := 0 })
      else (l.2.1, some e, l.2.2)

/-- A GRAFT_NOW switch replaces a channel's booked value with the new entry's estimate, without an admission test (spec/13_graft.md R409). A
channel whose request or resume still waits books nothing (spec/09_bus_ledger.md R283): what it asks for is replaced (DEDUCED, log 81). -/
def State.rebase (s : State) (ch status : Nat) (est : Int) : State :=
  if status = ssRunning ∨ status = ssHeld ∨ (s.ch ch).answer = 1 then s.setBooked ch est
  else { s with ledgQ := s.ledgQ.map (fun e => if (decide (e.ch = ch) && e.asks) = true then { e with amount := est } else e) }

/-- The pass of a channel of partition `n` in RUN or HOLD (R241): `c` the cycle, `gap` whether cycles were missed, `dt` the time
of the pass. -/
def State.passLive (s : State) (n ch c dt : Nat) (gap : Bool) : State :=
  let x := s.sample ch
  let o := s.stepSt ch
  let cx := s.ch ch
  let g := gap || cx.rack.isSome
  let f := (((o.setFlag 0 x.held).setFlag 1 g).setFlag 6 false).setFlag 2 (s.booking ch).isSome
  if !o.live then (s.setStep ch (f.setFlag 5 false)).writeOutput ch o.status none
  else
    let act := s.fget (fSTEP_PART_BANK_ACTIVE n)
    let switch := s.nowParts.contains n && decide (o.step / 0x8000 ≠ act)
    let t : StepSt := if switch then { f with step := act * 0x8000 + f.step % 0x8000, deb := 0 } else f
    match (s.tblSee (s.ledgRec ch) 4).readEntry n t.step with
    | (.error why, u) =>
      let p := u.tableFault n ch t.step why x t none
      (p.2.setStep ch p.1).writeOutput ch p.1.status none
    | (.ok e, u) =>
      let u1 := if switch then u.rebase ch t.status (u.estimate ch e x.v) else u
      let u2 := if cx.rack.isSome then (u1.setCh ch { u1.ch ch with rack := none }).rebook n ch e x t else u1
      let dtc := match cx.rack with | some (m, _, _) => (c - m) * s.bc | none => dt
      let xi := match cx.rack with
        | some (_, v, i) => { x with v := roundHalf (v + x.v) 2, i := roundHalf (i + x.i) 2 }
        | none => x
      let t1 := t.setFlag 5 (decide (t.step / 0x8000 ≠ act))
      let r := u2.passEntry n ch dtc g x xi t1 e
      let moved := decide (r.1.step ≠ t1.step) || decide (r.1.status ≠ t1.status) || bitOf r.1.flags 6
      let run := decide (r.1.status = ssRunning) || decide (r.1.status = ssHeld)
      let safe := match r.2.1 with | some q => q.safety | none => false
      let w := r.2.2.setStep ch r.1
      match w.shedPick ch (run && !moved && !safe && decide (c = s.cycle.toNat)) with
      | some imp =>
        let cls := match r.2.1 with | some q => q.cls clsContinuing | none => clsContinuing
        ((w.ledgPause ch cls (w.fget (fPART_CFG_PRIO n)) (w.booked ch) imp).setStep ch { r.1 with status := ssPaused }).writeOutput ch
          ssPaused r.2.1
      | none => w.writeOutput ch r.1.status r.2.1

/-- The pass of a channel whose owner is stopped, or whose row is UNOWNED (R241): a live step ends with STOPPED and its ledger
entries go; REST with the relay open. The step of an UNOWNED row ends for the partition that owned the row last (DEDUCED, log 47). -/
def State.passStopped (s : State) (owner : Option Nat) (ch : Nat) (gap : Bool) : State :=
  let x := s.sample ch
  let o := s.stepSt ch
  let f := (((o.setFlag 0 x.held).setFlag 1 gap).setFlag 6 false).setFlag 2 false
  let s1 :=
    if o.live then
      let u := ((s.ledgClear ch).setBooked ch 0).setCh ch {}
      let t1 := ({ f with status := ssIdle, lastEnd := ecStopped } : StepSt).setFlag 5 false
      match owner with
      | none => u.setStep ch t1
      | some n =>
        let res := bitOf (u.rdB (u.entryAddr (o.step / 0x8000) (o.step % 0x8000) + 1)).toNat 2
        let w := u.fsat (fSTEP_PART_CNT_END_COUNT n)
        (w.setStep ch t1).when res (fun v => v.stageEnd n ch x f ecStopped 0 stepEnd ssIdle)
    else s.setStep ch (f.setFlag 5 false)
  s1.writeOutput ch ssIdle none

/-- The measured contribution of a row: import and export sums of its channels (spec/09_bus_ledger.md R286). -/
def State.rowContrib (s : State) (r : Nat) : State :=
  let b := s.fget (fLEDG_ROW_BUS_BUS r)
  let sum := (List.range 256).foldl (fun (a : Int × Int) l =>
    let x := s.sample (r * 256 + l)
    let m := s.measured b x.v x.i
    (a.1 + sideImp m, a.2 + sideExp m)) (0, 0)
  { s with rowMeas := SMap.put (fun _ => (0, 0)) r sum s.rowMeas }

/-- STEP_PASS: the step pass of a row that has ripened in the running cycle, or in the cycle before it, and not yet passed (R241). -/
def execStepPass (rr : Fin 512) (s : State) : Out :=
  let r := rr.val
  let v := s.row r
  let c := v.ripe.getD 0
  if (!s.mainRuns || v.ripe.isNone || decide (v.passed = some c) || decide (c + 1 < s.cycle.toNat)) = true then .next s
  else
    let delta := match v.passed with | some m => c - m | none => 1
    let dt := delta * s.bc
    let gap := decide (1 < delta)
    let owner := s.owner r
    let live := match owner with | some n => decide (s.partMode n ≠ 1) | none => false
    let s0 := (s.setRow r { v with passed := some c }).setReg (rSTEP_ROW_PASS r) (BitVec.ofNat 32 (c % 2 ^ 32))
    let s1 := (List.range 256).foldl (fun t l =>
      match owner with
      | some n => if live then t.passLive n (r * 256 + l) c dt gap else t.passStopped owner (r * 256 + l) gap
      | none => t.passStopped v.exOwner (r * 256 + l) gap) s0
    .next (((s1.rowContrib r).readyRow r c).when (decide (c < s.cycle.toNat)) (fun t => t.closeRow r c))

end Sys2Proof.Machine
end

