-- ==== Sys2Proof/Machine/StepCmd.lean ====
section
/-! DEFINITION. Step commands (spec/07_step_sequencer.md R248, R249, R646). -/

namespace Sys2Proof.Machine

/-- A discarded command: a flag of the step state and a counter (R248). It sets one flag and leaves the other as it stands (DEDUCED,
log 81: only applied commands clear them). -/
def State.cmdBad (s : State) (ch : Nat) (t : StepSt) : State :=
  ((s.setStep ch (t.setFlag 4 true)).fset fSTEP_STAT_BADCMD 1).fsat fSTEP_CNT_BADCMD_COUNT

/-- A stale command. -/
def State.cmdStale (s : State) (ch : Nat) (t : StepSt) : State :=
  ((s.setStep ch (t.setFlag 3 true)).fset fSTEP_STAT_STALE 1).fsat fSTEP_CNT_STALE_COUNT

/-- Statuses in which a command applies (R248). -/
def cmdApplies (code status : Nat) : Bool :=
  if code ≤ 1 then true
  else if code ≤ 6 then decide (1 ≤ status ∧ status ≤ 4)
  else if code = 7 then decide (status = ssRunning)
  else if code = 8 then decide (status = ssHeld)
  else decide (status = ssRunning ∨ status = ssHeld)

/-- A command that ends a step or starts one: the transition, and REST at once for END and FAULT (R248, R249). -/
def State.cmdTransit (s : State) (n ch code arg16 cause : Nat) (t : StepSt) : State :=
  let x := s.sample ch
  let start := decide (code = 1)
  let run (u : State) (e : Option StepEnt) : State :=
    let g : StepTgt :=
      if code = 3 then .idx (match e with | some q => q.next | none => stepEnd)
      else if code = 4 then .idx (match e with | some q => q.alt | none => stepEnd)
      else if code = 5 then .idx stepEnd else if code = 6 then .fault else .idx arg16
    let r := u.transit n ch x t e g cause code (if start then clsNew else clsContinuing) start
    (r.2.2.setStep ch r.1).when (decide (r.1.status = ssDone) || decide (r.1.status = ssFault))
      (fun w => w.writeOutput ch r.1.status none)
  if t.live then
    match s.readEntry n t.step with
    | (.ok e, u) => run u (some e)
    | (.error why, u) =>
      let p := u.tableFault n ch t.step why x t none
      (p.2.setStep ch p.1).writeOutput ch p.1.status none
  else run s none

/-- Applies a step command to a channel (R248): `cause` PROG_CMD or HOST_CMD. -/
def State.stepCmd (s : State) (ch cause code arg8 arg16 expect : Nat) : State :=
  let t := s.stepSt ch
  if code = 0 then s
  else if 10 < code then s.cmdBad ch t
  else
    match s.owner (ch / 256) with
    | none => s.cmdStale ch t
    | some n =>
      if (decide (s.partMode n = 1) || (decide (expect ≠ 0xFFFF) && decide (t.step % 0x8000 ≠ expect)) || !cmdApplies code t.status) = true then
        s.cmdStale ch t
      else if code ≤ 2 ∧ s.targetOk n arg16 = false then s.cmdBad ch t
      else
        let t1 := (t.setFlag 3 false).setFlag 4 false
        if code ≤ 6 then s.cmdTransit n ch code arg16 cause t1
        else if code = 7 then (s.cancelBooking ch).setStep ch ({ t1 with status := ssHeld }.setFlag 2 false)
        else if code = 8 then s.setStep ch { t1 with status := ssRunning, deb := 0 }
        else if code = 9 then s.setStep ch { t1 with loop := arg8 }
        else s.setStep ch { t1 with charge := 0, energy := 0, qFrac := 0, eFrac := 0 }

/-- The eight bytes of a command applied to a channel (R248). -/
def State.stepCmdBytes (s : State) (ch cause : Nat) (l : List Byte) : State :=
  s.stepCmd ch cause (leAt l 0 1) (leAt l 1 1) (leAt l 2 2) (leAt l 4 2)

/-- The end cause that a command's source gives (R250). -/
def cmdCause : CmdSrc → Nat
  | .prog => ecProg
  | .host => ecHost

/-- CMD_NONE. -/
def execCmdNone (ch : Fin 131072) (src : CmdSrc) (arg8 : BitVec 8) (arg16 expect : BitVec 16) (s : State) : Out :=
  .next (s.stepCmd ch.val (cmdCause src) 0 arg8.toNat arg16.toNat expect.toNat)

/-- CMD_START. -/
def execCmdStart (ch : Fin 131072) (src : CmdSrc) (arg8 : BitVec 8) (arg16 expect : BitVec 16) (s : State) : Out :=
  .next (s.stepCmd ch.val (cmdCause src) 1 arg8.toNat arg16.toNat expect.toNat)

/-- CMD_GOTO. -/
def execCmdGoto (ch : Fin 131072) (src : CmdSrc) (arg8 : BitVec 8) (arg16 expect : BitVec 16) (s : State) : Out :=
  .next (s.stepCmd ch.val (cmdCause src) 2 arg8.toNat arg16.toNat expect.toNat)

/-- CMD_NEXT. -/
def execCmdNext (ch : Fin 131072) (src : CmdSrc) (arg8 : BitVec 8) (arg16 expect : BitVec 16) (s : State) : Out :=
  .next (s.stepCmd ch.val (cmdCause src) 3 arg8.toNat arg16.toNat expect.toNat)

/-- CMD_ALT. -/
def execCmdAlt (ch : Fin 131072) (src : CmdSrc) (arg8 : BitVec 8) (arg16 expect : BitVec 16) (s : State) : Out :=
  .next (s.stepCmd ch.val (cmdCause src) 4 arg8.toNat arg16.toNat expect.toNat)

/-- CMD_END. -/
def execCmdEnd (ch : Fin 131072) (src : CmdSrc) (arg8 : BitVec 8) (arg16 expect : BitVec 16) (s : State) : Out :=
  .next (s.stepCmd ch.val (cmdCause src) 5 arg8.toNat arg16.toNat expect.toNat)

/-- CMD_FAULT. -/
def execCmdFault (ch : Fin 131072) (src : CmdSrc) (arg8 : BitVec 8) (arg16 expect : BitVec 16) (s : State) : Out :=
  .next (s.stepCmd ch.val (cmdCause src) 6 arg8.toNat arg16.toNat expect.toNat)

/-- CMD_HOLD_STEP. -/
def execCmdHoldStep (ch : Fin 131072) (src : CmdSrc) (arg8 : BitVec 8) (arg16 expect : BitVec 16) (s : State) : Out :=
  .next (s.stepCmd ch.val (cmdCause src) 7 arg8.toNat arg16.toNat expect.toNat)

/-- CMD_RELEASE. -/
def execCmdRelease (ch : Fin 131072) (src : CmdSrc) (arg8 : BitVec 8) (arg16 expect : BitVec 16) (s : State) : Out :=
  .next (s.stepCmd ch.val (cmdCause src) 8 arg8.toNat arg16.toNat expect.toNat)

/-- CMD_SET_LOOP. -/
def execCmdSetLoop (ch : Fin 131072) (src : CmdSrc) (arg8 : BitVec 8) (arg16 expect : BitVec 16) (s : State) : Out :=
  .next (s.stepCmd ch.val (cmdCause src) 9 arg8.toNat arg16.toNat expect.toNat)

/-- CMD_ZERO. -/
def execCmdZero (ch : Fin 131072) (src : CmdSrc) (arg8 : BitVec 8) (arg16 expect : BitVec 16) (s : State) : Out :=
  .next (s.stepCmd ch.val (cmdCause src) 10 arg8.toNat arg16.toNat expect.toNat)

/-- SCALAR_COMMAND_HANDOVER: the oldest command that the pair has handed over reaches the step sequencer, is applied on arrival,
and leaves OUTSTANDING (R646). -/
def execScalarCommandHandover (j : Fin 16) (s : State) : Out :=
  match (if s.mainRuns then s.scalarCmds.find? (fun q => decide (q.cx = 64 + j.val)) else none) with
  | none => .next s
  | some q =>
    let s1 := { s with scalarCmds := s.scalarCmds.erase q }
    .next ((s1.stepCmdBytes q.ch ecProg q.bytes).drained (.scalar j))

end Sys2Proof.Machine
end

