-- ==== Sys2Proof/Machine/Trellis.lean ====
section
/-! DEFINITION. The Trellis field link: frames, positions, schedule commits, delay measurement, the control period and link states (spec/10_trellis_link.md). -/

namespace Sys2Proof.Machine

/-- A port's engine. -/
def State.port (s : State) (p : Nat) : PortSt := SMap.get port0 s.ports p

/-- Sets a port's engine. -/
def State.setPort (s : State) (p : Nat) (v : PortSt) : State := { s with ports := SMap.put port0 p v s.ports }

/-- A board position's data. -/
def State.posn (s : State) (p k : Nat) : Pos := SMap.get pos0 s.poss (16 * p + k)

/-- Sets a board position's data. -/
def State.setPosn (s : State) (p k : Nat) (v : Pos) : State := { s with poss := SMap.put pos0 (16 * p + k) v s.poss }

/-- Frame kinds (R309). -/
abbrev tkSync : Nat := 1
abbrev tkPour : Nat := 2
abbrev tkHarvest : Nat := 3
abbrev tkTrip : Nat := 4
abbrev tkTaste : Nat := 5
abbrev tkHello : Nat := 6
abbrev tkDelay : Nat := 7
abbrev tkMgmt : Nat := 8
abbrev tkSplit : Nat := 9

/-- Senders (R310). -/
abbrev srcActive : Nat := 0x80
abbrev srcStandby : Nat := 0x81
abbrev srcRelay : Nat := 0x82

/-- Position states (R327). -/
abbrev posAbsent : Nat := 0
abbrev posFound : Nat := 1
abbrev posMeasured : Nat := 2
abbrev posReady : Nat := 3
abbrev posMismatch : Nat := 4
abbrev posLost : Nat := 5
abbrev posFar : Nat := 6

/-- Counters of a port (TRL_CNT). -/
abbrev tcGen : Nat := 8
abbrev tcLen : Nat := 9
abbrev tcRow : Nat := 10
abbrev tcCycle : Nat := 11
abbrev tcDup : Nat := 12
abbrev tcLate : Nat := 13
abbrev tcSkew : Nat := 14
abbrev tcPourDrop : Nat := 15
abbrev tcPourFault : Nat := 16
abbrev tcTxAbort : Nat := 17
abbrev tcTripSent : Nat := 18
abbrev tcTripDrop : Nat := 19
abbrev tcFecCorr : Nat := 20
abbrev tcFecUncorr : Nat := 21
abbrev tcLinkDown : Nat := 22
abbrev tcDelayBad : Nat := 23

/-- The MAC client data of a frame: the Trellis header with its HCRC and the payload, padded to the minimum (R306 … R308). -/
def trFrame (gen kind cycle lt row src flags port : Nat) (pay : List Byte) : List Byte :=
  let h := leBytes 1 1 ++ leBytes 1 kind ++ leBytes 2 gen ++ leBytes 4 cycle ++ leBytes 8 lt ++ leBytes 2 row ++ leBytes 1 src
    ++ leBytes 1 flags ++ leBytes 2 pay.length ++ leBytes 1 port ++ List.replicate 5 0
  h ++ leBytes 4 (crc32 h) ++ pay ++ List.replicate (14 - pay.length) 0

/-- Sends client data on a port, under the MAC header of a frame that leaves a module (R301, R345). -/
def State.trPut (s : State) (p kind : Nat) (body : List Byte) : State :=
  s.emit { medium := .trellis, dst := p, kind := kind
           data := nats (macHdr ([3, 0, 0, 0, 0, 1].map (BitVec.ofNat 8)) (s.macAddr p) 0x88B5 ++ body) }

/-- The client data of a frame that the module makes: it carries TRL_GEN (R336). -/
def State.trBody (s : State) (p kind cycle lt row src flags : Nat) (pay : List Byte) : List Byte :=
  trFrame (s.fget fTRL_GEN_GEN) kind cycle lt row src flags p pay

/-- Sends a Trellis frame on a port. -/
def State.trSend (s : State) (p kind cycle lt row src flags : Nat) (pay : List Byte) : State :=
  s.trPut p kind (s.trBody p kind cycle lt row src flags pay)

/-- The frame on a port that began last, if it is no TRIP frame, and the frames before and after it in the record of what was sent. -/
def lastTx (p : Nat) : List Msg → Option (List Msg × Msg × List Msg)
  | [] => none
  | m :: l =>
    if m.medium = .trellis ∧ m.dst = p then (if m.kind = tkTrip then none else some ([], m, l))
    else match lastTx p l with
      | some (a, x, b) => some (m :: a, x, b)
      | none => none

/-- Cuts the frame in progress on a port short (R332): it ends at a 64-byte boundary, not before the 64th byte, with the complement of the FCS
of the bytes sent. Where it ends is free (log 10). The frame, if one could be cut, is to be sent again. -/
def State.abortTx (s : State) (p : Nat) : Option Msg × State :=
  match lastTx p s.out with
  | none => (none, s)
  | some (a, m, b) =>
    let places := (m.data.length + 3) / 64
    if places = 0 then (none, s)
    else
      let f := s.freeC
      let cut := m.data.take (64 * (1 + f.1 % places))
      let fcs := 0xFFFFFFFF - crc32 (cut.map (BitVec.ofNat 8))
      (some m, { f.2 with out := a ++ { m with data := cut ++ nats (leBytes 4 fcs) } :: b })

/-- Whether the field engine's frames leave on a port: enabled, its link up, the gate open, the main die running outside
RECOVERY (R326, R344, spec/14_racking_standby.md R418). -/
def State.portSends (s : State) (p : Nat) : Bool :=
  let ph := s.fget fRST_START_PHASE
  s.portEn p && decide (s.fget (fTRL_PORT_STAT_LINK p) = lkUp) && s.fbit fRACK_STAT_GATE
    && (decide (ph = phOperating) || decide (ph = phStarting) || decide (ph = phFlush))

/-- Whether frames received on a port reach the active module's checks. -/
def State.portHears (s : State) (p : Nat) : Bool :=
  s.mainRuns && s.portEn p && decide (s.fget (fTRL_PORT_STAT_LINK p) = lkUp) && decide (s.fget fRACK_STAT_ROLE = 1)

/-- A discarded frame: its counter, and FRAME_ERR (R203, R311). -/
def State.rxDrop (s : State) (p i : Nat) : State := (s.fsat (fTRL_CNT_COUNT p i)).assertEv (384 + 4 * p + 3)

/-- Place of each early check's counter (R311). -/
def fieldBadCnt : FieldBad → Nat
  | .macErr => 0
  | .aborted => 1
  | .other => 2
  | .hcrc => 3
  | .version => 4
  | .kind => 5
  | .rsv => 6
  | .dir => 7

/-- FIELD_FRAME_REJECT (R311): discarded and counted; an aborted frame raises nothing, and a standby, which listens to the active's frames,
does not check the direction. A wrong FCS or header CRC is a critical-state error too
(spec/01_architecture.md R39: an error in a row with no correction; its SOURCE and DETAIL are free, log 78). -/
def execFieldFrameReject (p : Fin 32) (why : FieldBad) (s : State) : Out :=
  .next (match why with
    | .aborted => s.fsat (fTRL_CNT_COUNT p.val 1)
    | .dir => if s.fget fRACK_STAT_ROLE = roleStandby then s else s.rxDrop p.val 7
    | w => (s.rxDrop p.val (fieldBadCnt w)).when (decide (w = .macErr) || decide (w = .hcrc)) (fun t => t.integFree))

/-- Checks 8 … 10 of R311 on a frame that passed the early ones: the state with its discard, or none where it passes. `up` says that the
kind, with its SUB, travels upstream (R305), `ok` that LEN and the payload's reserved bytes are as the kind requires. A newer generation
demotes an active module (spec/14_racking_standby.md R421). -/
def State.rxCheck (s : State) (p : Nat) (h : TrHdr) (up ok : Bool) : Option State :=
  if !up || decide (h.port ≠ p) then some (s.rxDrop p 7)
  else if newerN 16 h.gen (s.fget fTRL_GEN_GEN) then some (((s.rxDrop p tcGen).fset fTRL_STAT_GEN 1).moduleReset 8 0)
  else if h.gen ≠ s.fget fTRL_GEN_GEN then some ((s.rxDrop p tcGen).fset fTRL_STAT_GEN 1)
  else if !ok then some (s.rxDrop p tcLen)
  else none

/-- Measured delay figures of a position, as its median: the middle value, or the mean of the two middle ones rounded down
(R330). -/
def medianI (l : List Int) : Int :=
  let s := l.mergeSort (fun a b => decide (a ≤ b))
  let n := s.length
  if n % 2 = 1 then s.getD (n / 2) 0 else (s.getD (n / 2 - 1) 0 + s.getD (n / 2) 0) / 2

/-- Medians of measurements (R329, R330): DN_LINK, UP_TOTAL and CORR_DN. -/
def medians (l : List (Int × Int × Int)) : Int × Int × Int :=
  (medianI (l.map (fun m => m.1 / 2)), medianI (l.map (fun m => m.1 / 2 + m.2.1)), medianI (l.map (fun m => m.2.2)))

/-- Medians of a position. -/
def Pos.medians (v : Pos) : Int × Int × Int := Sys2Proof.Machine.medians v.meas

/-- Medians as they are racked: DN_LINK, CORR_UP and CORR_DN. -/
def figures (l : List (Int × Int × Int)) : Option (Int × Int × Int) :=
  if l.isEmpty then none
  else some (medianI (l.map (fun m => m.1 / 2)), medianI (l.map (fun m => m.2.1)), medianI (l.map (fun m => m.2.2)))

/-- The delays of position `k`, counted by the active, from the far end (R339): DN_LINK, CORR_UP and CORR_DN, from the medians of the position,
of its outer neighbour and of the line end as the active measured them (`own`) or as they were racked, where there are any. -/
def State.farKnown (s : State) (p k : Nat) (own : Bool) : Option (Int × Int × Int) :=
  let fig (v : Pos) : Option (Int × Int × Int) := if own then figures v.meas else v.racked
  let e := if own then figures (s.port p).lineEnd else (s.port p).lineRacked
  match e, fig (s.posn p k), (if k + 1 < s.boards p then fig (s.posn p (k + 1)) else e) with
  | some e, some m, some n => some (e.1 - m.1, e.2.2 - n.2.2, e.2.1 - n.2.1)
  | _, _, _ => none

/-- Delays to compute with: what is known, or free values where nothing has been measured (log 10). -/
def State.figuresOr (s : State) (f : Option (Int × Int × Int)) : (Int × Int × Int) × State :=
  match f with
  | some f => (f, s)
  | none =>
    let a := s.freeW
    let b := a.2.freeW
    let c := b.2.freeW
    ((a.1.toNat, b.1.toNat, c.1.toNat), c.2)

/-- A measurement with given medians. -/
def measOf (f : Int × Int × Int) : Int × Int × Int := (2 * f.1, f.2.1, f.2.2)

/-- SCHED_APPLY_MIN (R330, R55), over every position that receives pours, a far one as the standby's mirrored table places it (R340); the
reset value while none does. A rise above the
offset in force raises APPLY_SHORT. -/
def State.applyMin (s : State) (raise : Bool) : State :=
  let vals := (List.range 32).flatMap (fun p => (List.range (min 16 (s.boards p))).filterMap (fun k =>
    let st := s.fget (fTRL_POS_STAT_STATE p k)
    if st = posReady ∨ st = posLost ∨ st = posFar then
      let m := (s.posn p k).medians
      let slots := if st = posFar then k + 1 else s.boards p - k
      some (((slots * s.pourLen p + 1000 : Nat) : Int) * 65536 + m.1 + m.2.2)
    else none))
  let v := match vals with
    | [] => 4325
    | _ => ((vals.foldl max 0 + 65535) / 65536).toNat
  let old := s.fget fSCHED_APPLY_MIN_MIN
  (s.fset fSCHED_APPLY_MIN_MIN (min v (2 ^ 20 - 1))).when (raise && decide (old < v) && decide (s.applyOfs < v)) (fun t => t.assertEv 674)

/-- Sets a position's state and the port's READY bit. -/
def State.setPosState (s : State) (p k st : Nat) : State :=
  ((s.fset (fTRL_POS_STAT_STATE p k) st).fset ⟨rTRL_PORT_STAT p, 16 + k, 16 + k⟩ (b2n (decide (st = posReady)))).applyMin false

/-- Sets a port's link state; each change raises its LINK source (R326). -/
def State.setLink (s : State) (p st : Nat) : State :=
  if s.fget (fTRL_PORT_STAT_LINK p) = st then s else (s.fset (fTRL_PORT_STAT_LINK p) st).assertEv (384 + 4 * p)

/-- A HARVEST frame passes its own checks and is taken (R313, R343), or is discarded and counted; `far` for one that the standby relayed
(R340). -/
def State.harvestTake (s : State) (p : Nat) (h : TrHdr) (pay : List Byte) (far : Bool) : State :=
  let n := s.cycle.toNat
  let k := h.src
  let st := s.fget (fTRL_POS_STAT_STATE p k)
  let okSt := if far then decide (st = posFar) else decide (st = posMeasured) || decide (st = posReady) || decide (st = posLost)
  if (!(decide (k < s.boards p) && decide (k < 16) && okSt) || decide (s.rowAt p k ≠ h.row) || decide (512 ≤ h.row)) = true then s.rxDrop p tcRow
  else if h.cycle ≠ n % 2 ^ 32 then s.rxDrop p tcCycle
  else if (s.row h.row).harv = some n then s.rxDrop p tcDup
  else if s.latestRipeAt p k n ≤ s.lt.toNat ∨ (s.row h.row).noHarvest = some n then s.rxDrop p tcLate
  else
    let skew : Int := (h.lt : Int) - s.tn.toNat
    let layout := s.rdList (s.tblInForce p + 0x10) 8
    let bad := ((List.range 256).filter (fun l => decide (leAt pay (l * 16 + leAt layout 5 1) 1 ≠ 0))).length
    let s1 := s.wrBytes (0x3200000 + n % 2 * 0x200000 + h.row * 0x1000) (pay.take 4096)
    let s2 := { s1.setRow h.row { s1.row h.row with harv := some n } with linesAcc := s1.linesAcc + 32 }.passTags (inHarvest p) 32
    let s3 := (s2.fset (fTRL_POS_STAT_SKEW p k) (unsgn 16 (clampI (-32767) 32767 skew))).when (decide (100 < skew.natAbs))
      (fun t => t.fsat (fTRL_CNT_COUNT p tcSkew))
    let s4 := if st = posMeasured ∨ st = posLost then s3.setPosState p k posReady else s3
    s4.when (decide (0 < bad)) (fun t => (t.fsatN (fTRL_CNT_COUNT p tcPourFault) bad).assertEv (384 + 4 * p + 2))

/-- HARVEST_FRAME (R311, R313); a standby relays what it receives of a far segment (R340). -/
def execHarvestFrame (p : Fin 32) (h : TrHdr) (pay : List Byte) (s : State) : Out :=
  if (s.standby && (s.portEn p.val && (decide (s.fget (fTRL_PORT_STAT_LINK p.val) = lkUp) && (s.port p.val).far.isSome))) = true then
    .next (s.rackOut rkRelay none (nats (trFrame h.gen tkHarvest h.cycle h.lt h.row h.src h.flags h.port pay)))
  else if s.portHears p.val then
    .next (match s.rxCheck p.val h true (decide (h.len = 4096)) with
      | some t => t
      | none => s.harvestTake p.val h pay false)
  else .next s

/-- Bytes of a payload from `i` up, all 0. -/
def zeroAt (pay : List Byte) (i n : Nat) : Bool := decide (leAt pay i n = 0)

/-- HELLO_RESP (R317, R327, R328): the identity is held; a new or changed one moves the position to FOUND, one that does not fit
the port to MISMATCH. -/
def execHelloResp (pf : Fin 32) (h : TrHdr) (pay : List Byte) (s : State) : Out :=
  let p := pf.val
  if s.portHears p then
    let ok := decide (h.len = 128) && decide (leAt pay 0 1 = 2) && zeroAt pay 2 6 && zeroAt pay 0x27 1 && zeroAt pay 0x2F 1
      && decide (leAt pay 0x2E 1 < 2)
    .next (match s.rxCheck p h (decide (leAt pay 0 1 ≠ 1)) ok with
      | some t => t
      | none =>
        let k := leAt pay 1 1
        if 16 ≤ k then s.rxDrop p tcRow
        else
          let st := s.fget (fTRL_POS_STAT_STATE p k)
          let ident := (List.range 30).map (fun i => BitVec.ofNat 32 (leAt pay (8 + 4 * i) 4))
          let same := decide (ident = (List.range 30).map (fun i => s.reg (rTRL_HELLO p k i)))
          let s1 := (ident.zipIdx).foldl (fun t wi => t.setReg (rTRL_HELLO p k wi.2) wi.1) s
          let layout := s.rdList (s.tblInForce p + 0x10) 8
          let bad := decide (leAt pay 0x2C 2 ≠ 256) || decide ((pay.drop 0x30).take 8 ≠ layout) || decide (s.boards p ≤ k)
          let v := s1.posn p k
          if bad then (s1.setPosn p k { v with miss := 0, answered := true }).setPosState p k posMismatch
          else if st = posAbsent ∨ st = posMismatch ∨ same = false then
            (s1.setPosn p k { miss := 0, answered := true }).setPosState p k posFound
          else s1.setPosn p k { v with miss := 0, answered := true })
  else .next s

/-- DISCOVERY_ROUND_MISS (R327): the position did not answer a round; after three in a row it is ABSENT. -/
def execDiscoveryRoundMiss (pf : Fin 32) (kf : Fin 16) (s : State) : Out :=
  let p := pf.val
  let k := kf.val
  let v := s.posn p k
  if v.answered then .next s
  else if v.miss + 1 < 3 then .next (s.setPosn p k { v with miss := v.miss + 1 })
  else
    let s1 := (List.range 30).foldl (fun t i => t.setReg (rTRL_HELLO p k i) 0) (s.setPosn p k {})
    .next (s1.setPosState p k posAbsent)

/-- The medians of a position in their registers, in 1/16 ns (TRL_POS_DN, TRL_POS_UP). -/
def State.posRegs (s : State) (p k : Nat) : State :=
  let m := (s.posn p k).medians
  (s.fset (fTRL_POS_DN_DELAY p k) (unsgn 32 (m.1 / 4096))).fset (fTRL_POS_UP_DELAY p k) (unsgn 32 (m.2.1 / 4096))

/-- A DELAY RESP is rejected (R329). -/
def State.delayBad (s : State) (p : Nat) : State := (s.fsat (fTRL_CNT_COUNT p tcDelayBad)).fset fTRL_STAT_DELAY_BAD 1

/-- Keeps the latest eight of a list. -/
def last8 {α : Type} (l : List α) : List α := l.drop (l.length - 8)

/-- Whether a link_rtt lies outside what any position may have (R329). -/
def rttBad (rtt : Int) : Bool := decide (rtt < 0) || decide ((20000 * 65536 : Int) < rtt)

/-- The medians of position `k`, or of the line end where `k` is 16, go to the peer: the active's to the standby (R339 calls them racked), and a
standby's of the far segment to the active (R330). -/
def State.rackMedian (s : State) (p k : Nat) : State :=
  match figures (if k = 16 then (s.port p).lineEnd else (s.posn p k).meas) with
  | some f => s.rackNote rnMedian p (leBytes 1 k ++ leBytes 8 (unsgn 64 f.1) ++ leBytes 8 (unsgn 64 f.2.1) ++ leBytes 8 (unsgn 64 f.2.2))
  | none => s

/-- A measurement of a position (R329, R330). A RESULT is due after the fourth of a FOUND position, and whenever the median has moved by 1 ns
or more since the last one. -/
def State.measure (s : State) (p k : Nat) (rtt corrDn corrUp : Int) : State :=
  let v := s.posn p k
  if rttBad rtt then (s.delayBad p).setPosn p k { v with bad := 0 }
  else if ¬ v.meas.isEmpty ∧ 50 * 65536 < (rtt - medianI (v.meas.map (fun m => m.1))).natAbs then
    let s1 := s.delayBad p
    s1.setPosn p k (if 8 ≤ v.bad + 1 then { v with bad := 0, meas := [] } else { v with bad := v.bad + 1 })
  else
    let w : Pos := { v with bad := 0, meas := last8 (v.meas ++ [(rtt, corrUp, corrDn)]) }
    let m := w.medians.1
    let st := s.fget (fTRL_POS_STAT_STATE p k)
    let fresh := decide (st = posFound) && decide (4 ≤ w.meas.length)
    let moved := match w.sent with | some q => decide (65536 ≤ (m - q).natAbs) && decide (st ≠ posFound) | none => false
    let s1 := s.setPosn p k (if fresh || moved then { w with sent := some m } else w)
    let s2 := if fresh || moved then s1.setPort p { s1.port p with results := (s1.port p).results ++ [k] } else s1
    let s3 := s2.posRegs p k
    if s.standby then s3.rackMedian p k
    else (s3.when s3.racks (fun t => t.rackMedian p k)).applyMin true

/-- A measurement of a far position that the active makes from its own side (R341): the fourth of each is followed by its RESULT. -/
def State.measureNear (s : State) (p k : Nat) (rtt corrDn corrUp : Int) : State :=
  let v := s.posn p k
  if rttBad rtt then s.delayBad p
  else
    let w : Pos := { v with near := last8 (v.near ++ [(rtt, corrUp, corrDn)]) }
    let s1 := s.setPosn p k w
    if w.near.length = 4 ∧ v.near.length = 3 then s1.setPort p { s1.port p with results := (s1.port p).results ++ [k] } else s1

/-- The line end's answer (R329). -/
def State.measureEnd (s : State) (p : Nat) (rtt corrDn corrUp : Int) : State :=
  if rttBad rtt then s.delayBad p
  else
    let l := last8 ((s.port p).lineEnd ++ [(rtt, corrUp, corrDn)])
    let s1 := ((s.setPort p { s.port p with lineEnd := l }).fset (fTRL_LINE_END_VALID p) 1).fset (fTRL_LINE_END_DELAY p)
      (unsgn 31 ((medians l).1 / 4096))
    s1.when s1.racks (fun t => t.rackMedian p 16)

/-- A DELAY RESP that answers a request of this module gives a measurement (R318, R329). -/
def State.delayTake (s : State) (p : Nat) (pay : List Byte) (t4 : Nat) : State :=
  let tgt := leAt pay 1 1
  let seq := leAt pay 2 2
  let v := s.port p
  match v.stamps.find? (fun e => decide (e.1 = tgt) && decide (e.2.1 = seq)) with
  | none => s
  | some e =>
    let q (i : Nat) : Int := sgn 64 (leAt pay i 8)
    let rtt := (t4 : Int) - (e.2.2 : Int) * 65536 - q 0x10 - q 0x08 - q 0x18
    let s1 := s.setPort p { v with stamps := v.stamps.erase e }
    if tgt = 0xFE then s1.measureEnd p rtt (q 0x08) (q 0x18)
    else if tgt < 16 then
      (if s.active && s.isFar p tgt then s1.measureNear p tgt rtt (q 0x08) (q 0x18) else s1.measure p tgt rtt (q 0x08) (q 0x18))
    else s1

/-- DELAY_RESP (R318, R329): `t4` its arrival stamp in 2^−16 ns. A standby measures the far segment (R339). -/
def execDelayResp (pf : Fin 32) (h : TrHdr) (pay : List Byte) (t4 : Nat) (s : State) : Out :=
  let p := pf.val
  let ok := decide (h.len = 48) && decide (leAt pay 0 1 = 2) && zeroAt pay 4 4 && zeroAt pay 0x20 16
  if s.portHears p then
    .next (match s.rxCheck p h (decide (leAt pay 0 1 ≠ 1) && decide (leAt pay 0 1 ≠ 3)) ok with
      | some t => t
      | none => s.delayTake p pay t4)
  else if (s.standby && (s.portEn p && (decide (s.fget (fTRL_PORT_STAT_LINK p) = lkUp) && ((s.port p).far.isSome
      && (ok && (decide (h.port = p) && decide (h.gen = s.fget fTRL_GEN_GEN))))))) = true then .next (s.delayTake p pay t4)
  else .next s

/-- DELAY_REQ_LINE_END (R310, R318, R329, R336): a standby answers as the line end, with SRC STANDBY, FAR and its own TRL_GEN. TURN is its own, within no bound of the
spec (log 10). -/
def execDelayReqLineEnd (pf : Fin 32) (h : TrHdr) (pay : List Byte) (s : State) : Out :=
  let p := pf.val
  if (s.portEn p && decide (s.fget (fTRL_PORT_STAT_LINK p) = lkUp) && decide (s.fget fRACK_STAT_ROLE = roleStandby)
      && decide (leAt pay 0 1 = 1) && decide (leAt pay 1 1 = 0xFE)) = true then
    let f := s.freeW
    .next (f.2.trSend p tkDelay h.cycle s.lt.toNat 0xFFFF srcStandby 2
      (leBytes 1 2 ++ leBytes 1 0xFE ++ leBytes 2 (leAt pay 2 2) ++ leBytes 4 0 ++ (pay.drop 8).take 8
        ++ leBytes 8 f.1.toNat ++ List.replicate 24 0))
  else .next s

/-- MGMT_RESP (R319): held until it is released, or an overrun. -/
def execMgmtResp (pf : Fin 32) (h : TrHdr) (pay : List Byte) (s : State) : Out :=
  let p := pf.val
  if s.portHears p then
    let n := leAt pay 4 2
    let ok := decide (leAt pay 0 1 = 2) && zeroAt pay 3 1 && zeroAt pay 6 2 && decide (n ≤ 1024) && decide (h.len = 8 + n)
    .next (match s.rxCheck p h (decide (leAt pay 0 1 ≠ 1)) ok with
      | some t => t
      | none =>
        if s.fbit (fTRL_MGMT_RX_VALID p) then s.fset (fTRL_MGMT_RX_OVERRUN p) 1
        else
          let s1 := (List.range ((n + 3) / 4)).foldl (fun t i =>
            t.setReg (rTRL_MGMT_RXBUF p i) (BitVec.ofNat 32 (leAt (pay.take (8 + n)) (8 + 4 * i) 4))) s
          (((s1.fset (fTRL_MGMT_RX_SRC p) (leAt pay 1 1)).fset (fTRL_MGMT_RX_TAG p) (leAt pay 2 1)).fset (fTRL_MGMT_RX_LEN p) n).fset
            (fTRL_MGMT_RX_VALID p) 1)
  else .next s

/-- LINK_UP (R326, R328, R342): frames flow; a HELLO REQ and a delay round go out in the first control period. -/
def execLinkUp (pf : Fin 32) (s : State) : Out :=
  let p := pf.val
  let st := s.fget (fTRL_PORT_STAT_LINK p)
  if (s.portEn p && (decide (st = lkTraining) || decide (st = lkRetrain))) = true then
    .next ((s.setLink p lkUp).setPort p { s.port p with helloNow := true, delayNow := true })
  else .next s

/-- LINK_LOSS (R326, R342): training runs again; `corr` and `uncorr` are the FEC codewords counted since the last report. -/
def execLinkLoss (pf : Fin 32) (corr uncorr : Nat) (s : State) : Out :=
  let p := pf.val
  let s1 := (s.fsatN (fTRL_CNT_COUNT p tcFecCorr) corr).fsatN (fTRL_CNT_COUNT p tcFecUncorr) uncorr
  if s.fget (fTRL_PORT_STAT_LINK p) = lkUp then
    .next ((s1.setLink p lkRetrain).fsat (fTRL_CNT_COUNT p tcLinkDown))
  else .next s1

/-- TRAINING_TIMEOUT (R326): the attempt starts again; the link state stands. -/
def execTrainingTimeout (_p : Fin 32) (s : State) : Out := .next s

/-- PORT_RESET_END (R326). -/
def execPortResetEnd (p : Fin 32) (s : State) : Out :=
  .next (if s.fget (fTRL_PORT_STAT_LINK p.val) = lkReset then s.setLink p.val lkTraining else s)

/-! ### Schedule tables -/

/-- Whether a layout descriptor is valid (R322). -/
def layoutOk (l : List Byte) : Bool :=
  let f := [(0, 3), (1, 3), (2, 2), (3, 2), (4, 3), (5, 1), (6, 1)].map (fun e => (leAt l e.1 1, e.2))
  decide (leAt l 7 1 = 0) && f.all (fun e => decide (e.1 + e.2 ≤ 16))
    && (f.zipIdx).all (fun a => (f.zipIdx).all (fun b =>
      decide (a.2 = b.2) || decide (a.1.1 + a.1.2 ≤ b.1.1) || decide (b.1.1 + b.1.2 ≤ a.1.1)))

/-- Whether a schedule table's fields lie in their ranges, with every reserved byte and bit 0 (R321, R324). -/
def schedFieldOk (t : List Byte) : Bool :=
  let b := leAt t 0 1
  let hl := leAt t 2 2
  let pl := leAt t 8 2
  decide (b ≤ 16) && zeroAt t 1 1 && decide (350 ≤ hl ∧ hl ≤ 2000) && decide (500 ≤ leAt t 4 4) && decide (170 ≤ pl ∧ pl ≤ 1000)
    && zeroAt t 0x0A 6 && layoutOk ((t.drop 0x10).take 8) && zeroAt t 0x18 8
    && (List.range b).all (fun k =>
      (decide (leAt t (0x20 + 4 * k) 2 < 512) || decide (leAt t (0x20 + 4 * k) 2 = 0xFFFF)) && decide (leAt t (0x22 + 4 * k) 1 < 2)
        && zeroAt t (0x23 + 4 * k) 1)
    && zeroAt t 0x60 160

/-- The limits on the base cycle, in µs (R324). -/
def schedTimingOk (t : List Byte) (bc : Nat) : Bool :=
  let b := leAt t 0 1
  decide (leAt t 4 4 + b * leAt t 2 2 + 1000 ≤ bc * 1000) && decide (b * leAt t 8 2 + 1000 ≤ bc * 1000)

/-- The rows a table places. -/
def tblRows (t : List Byte) : List Nat :=
  ((List.range (min 16 (leAt t 0 1))).map (fun k => leAt t (0x20 + 4 * k) 2)).filter (fun r => decide (r ≠ 0xFFFF))

/-- The 256 bytes of a port's table in force, and of its pending table. -/
def State.tblNow (s : State) (p : Nat) : List Byte := s.rdList (s.tblInForce p) 256
def State.tblPend (s : State) (p : Nat) : List Byte := s.rdList (s.schedTbl p (1 - s.fget (fTRL_PORT_SCHED_COPY p))) 256

/-- Whether a table changes BOARDS, ROW or LAYOUT against another (R325). -/
def schedMoves (a b : List Byte) : Bool :=
  decide (leAt a 0 1 ≠ leAt b 0 1) || decide ((a.drop 0x10).take 8 ≠ (b.drop 0x10).take 8)
    || (List.range (min 16 (leAt a 0 1))).any (fun k => decide (leAt a (0x20 + 4 * k) 2 ≠ leAt b (0x20 + 4 * k) 2))

/-- Results of a commit (TRL_SCHED_RESULT). -/
abbrev scApplied : Nat := 1
abbrev scField : Nat := 2
abbrev scTiming : Nat := 3
abbrev scNeedsStop : Nat := 4
abbrev scConflict : Nat := 5

/-- The table of a port from the next boundary. -/
def State.tblNext (s : State) (p : Nat) : List Byte := if (s.port p).swap then s.tblPend p else s.tblNow p

/-- Result of a pending table's own checks, 0 where it passes (R325). A table with a word that cannot be corrected fails them (DESIGN
CHOICE, log 78). -/
def State.commitOwn (s : State) (p : Nat) : Nat :=
  let t := s.tblPend p
  if !schedFieldOk t || s.tblBad (s.schedTbl p (1 - s.fget (fTRL_PORT_SCHED_COPY p))) 256 then scField
  else if (s.portEn p && decide (s.fget fSYS_MODULE_MODE_CUR ≠ 1) && schedMoves t (s.tblNow p)) = true then scNeedsStop
  else if !schedTimingOk t s.bc then scTiming
  else 0

/-- How often a number stands in a list. -/
def countNat (l : List Nat) (n : Nat) : Nat := (l.filter (fun m => decide (m = n))).length

/-- Rows become mapped: each starts with NOHARV_RUN at 0 (spec/02_control_cycle.md R644). -/
def State.mapRows (s : State) (l : List Nat) : State := l.foldl (fun t r => t.fset (fSCHED_ROW_STAT_NOHARV_RUN r) 0) s

/-- A port's newly committed table comes into force (R325, R644): the copies change places, and a row newly mapped starts with
NOHARV_RUN at 0. -/
def State.swapTable (s : State) (p : Nat) : State :=
  let old := tblRows (s.tblNow p)
  let s1 := s.fset (fTRL_PORT_SCHED_COPY p) (1 - s.fget (fTRL_PORT_SCHED_COPY p))
  let b := s1.boards p
  let s2 := (s1.fset (fTRL_PORT_SCHED_BOARDS p) b).fset (fCONV_PORT_LEN_CYCLES p) (256 * b)
  let s3 := (List.range 16).foldl (fun t k => t.fset (fTRL_POS_STAT_ROW p k) (t.rowAt p k % 512)) s2
  let s4 := s3.mapRows ((tblRows (s3.tblNow p)).filter (fun r => !old.contains r))
  s4.applyMin false

/-- The commits of a list of ports checked at one instant (R325): field checks first, then the rows of those that pass against each
other and against the tables of every other port, those in force or, once announced, those that will be. -/
def State.checkCommits (s0 : State) (ps : List Nat) : State :=
  let s := ps.foldl (fun t p => t.tblSee (t.schedTbl p (1 - t.fget (fTRL_PORT_SCHED_COPY p))) 256) s0
  let own := ps.map (fun p => (p, s.commitOwn p))
  let pass := (own.filter (fun e => decide (e.2 = 0))).map (fun e => e.1)
  let placed := (List.range 32).flatMap (fun p => tblRows (if pass.contains p then s.tblPend p else s.tblNext p))
  let conflict (p : Nat) : Bool := (tblRows (s.tblPend p)).any (fun r => decide (1 < countNat placed r))
  own.foldl (fun t e =>
    let r := if e.2 ≠ 0 then e.2 else if conflict e.1 then scConflict else scApplied
    let t1 := ((t.fset fTRL_SCHED_RESULT_RESULT r).fset fTRL_SCHED_RESULT_PORT e.1).fset ⟨rTRL_SCHED_COMMIT, e.1, e.1⟩ 0
    if r ≠ scApplied then t1.fset fTRL_STAT_SCHED_BAD 1
    else if t1.portEn e.1 then t1.setPort e.1 { t1.port e.1 with swap := true }
    else t1.swapTable e.1) s

/-- Ports whose commit bit is set. -/
def State.commitBits (s : State) : List Nat := (List.range 32).filter (fun p => bitOf (s.reg rTRL_SCHED_COMMIT).toNat p)

/-- At the boundary: announced tables come into force, the scheduler reads the tables in force (spec/01_architecture.md R39, R40), then the commits of disabled ports are checked (R325). -/
def State.schedBoundary (s : State) : State :=
  let s1 := ((List.range 32).filter (fun p => (s.port p).swap)).foldl (fun t p => (t.setPort p { t.port p with swap := false }).swapTable p) s
  let s2 := ((List.range 32).filter (fun p => s1.portEn p)).foldl (fun t p => t.tblSee (t.tblInForce p) 256) s1
  let ps := s2.commitBits.filter (fun p => !s2.portEn p)
  if ps.isEmpty then s2 else s2.checkCommits ps

/-! ### The control period -/

/-- Bytes of line time that a frame takes: its bytes as sent, FCS, preamble and gap (R323, spec/11_board_obligations_reflex.md R372: 100 Gb/s, so 25
bytes take 2 ns). -/
def wireBytes (data : List Nat) : Nat := data.length + 24

/-- The instant at which the next frame of the control period leaves. -/
def State.ctlLt (s : State) (p : Nat) : Nat := s.lt.toNat + 2 * (s.port p).ctlUsed / 25

/-- Whether that instant lies at or before BC − 200 ns (R323, R647). -/
def State.ctlFits (s : State) (p : Nat) : Bool :=
  decide (25 * s.lt.toNat + 2 * (s.port p).ctlUsed + 25 * 200 ≤ 25 * (s.tn.toNat + s.bc * 1000))

/-- A frame of the control period: sent after the ones before it, or not at all where it could not start in time (R647). -/
def State.ctlSend (s : State) (p kind cycle lt row src flags : Nat) (pay : List Byte) : Bool × State :=
  if s.ctlFits p then
    let t := s.trSend p kind cycle lt row src flags pay
    (true, t.setPort p { t.port p with ctlUsed := (t.port p).ctlUsed + wireBytes ((t.out.map (fun m => m.data)).headD []) })
  else (false, s)

/-- SYNC (R312): its LT is the instant at which it leaves. -/
def State.sendSync (s : State) (p src flags : Nat) : State :=
  let t := s.tblNext p
  let n := s.cycle.toNat
  let bcNext := if s.fget fSYS_MODULE_MODE_CUR = 1 then s.fget fSCHED_BC_BC else s.bc
  (s.ctlSend p tkSync (n % 2 ^ 32) (s.ctlLt p) 0xFFFF src flags
    (leBytes 8 (s.tOf (n + 1)) ++ leBytes 4 (bcNext * 1000) ++ leBytes 4 0 ++ (t.drop 4).take 4 ++ (t.drop 2).take 2
      ++ (t.drop 8).take 2 ++ leBytes 8 0 ++ leBytes 1 (s.fget fTRL_CTRL_LOSS_CYCLES) ++ leBytes 1 (leAt t 0 1)
      ++ leBytes 1 (b2n (decide (s.fget fSYS_MODULE_MODE_CUR = 0))) ++ List.replicate 29 0)).2

/-- TASTE, where one is planned for the next sample (R315). -/
def State.sendTaste (s : State) (p : Nat) : State :=
  if s.fbit (fCONV_PORT_PLAN_VALID p) then
    let n := s.cycle.toNat + 1
    (s.ctlSend p tkTaste (n % 2 ^ 32) (s.tOf n) (s.fget (fCONV_PORT_PLAN_ROW p)) srcActive 0
      (leBytes 1 (s.fget (fCONV_PORT_PLAN_LANE p)) ++ leBytes 1 (s.fget (fCONV_PORT_PLAN_POINT p)) ++ List.replicate 14 0)).2
  else s

/-- A TRIP frame's way to the far segment of a port in split-line operation (spec/11_board_obligations_reflex.md R371). -/
def State.relayTrip (s : State) (p lt row flags : Nat) (pay : List Byte) : State :=
  if (s.port p).far.isSome && !s.rackLanes.isEmpty then
    (s.fset fTRL_RFX_STAT_RELAY 1).rackOut rkRelay none
      (nats (s.trBody p tkTrip (s.cycle.toNat % 2 ^ 32) lt row srcRelay (flags + 2) pay))
  else s

/-- One repeat of a TRIP frame (R335), or its drop where it cannot be sent (R335, R647). -/
def State.repeatTrip (s : State) (p : Nat) (t : Trip) (can : Bool) : State :=
  let s0 := s.relayTrip p t.lt t.row 4 t.payload
  match (if can then s0.ctlSend p tkTrip (s.cycle.toNat % 2 ^ 32) t.lt t.row srcActive 4 t.payload else (false, s0)) with
  | (true, u) => u.fsat (fTRL_CNT_COUNT p tcTripSent)
  | (false, u) => u.fsat (fTRL_CNT_COUNT p tcTripDrop)

/-- The TRIP repeats of a control period (R335): one of each trip in each of its cycles; those of cycles without a control period found
their port down and are dropped. -/
def State.repeatTrips (s : State) (p : Nat) (can : Bool) : State :=
  let c := s.cycle.toNat
  let s1 := (s.port p).trips.foldl (fun u q =>
    let lost := min q.left (c - q.due)
    let u1 := u.fsatN (fTRL_CNT_COUNT p tcTripDrop) lost
    if q.due ≤ c ∧ lost < q.left then u1.repeatTrip p q can else u1) s
  s1.setPort p { s1.port p with
    trips := ((s.port p).trips.map (fun q => if q.due ≤ c then { q with left := q.left - (c - q.due) - 1, due := c + 1 } else q)).filter
      (fun q => decide (0 < q.left)) }

/-- HELLO REQ (R317); one that cannot start in time goes in the next control period (R647). -/
def State.sendHello (s : State) (p : Nat) : State :=
  match s.ctlSend p tkHello (s.cycle.toNat % 2 ^ 32) (s.ctlLt p) 0xFFFF srcActive 0
    (leBytes 1 1 ++ leBytes 1 0xFF ++ leBytes 6 0 ++ leBytes 8 s.fuses.serial.toNat ++ leBytes 1 0 ++ leBytes 1 p
      ++ leBytes 1 (s.boards p) ++ List.replicate 109 0) with
  | (true, t) => (List.range 16).foldl (fun u k => u.setPosn p k { u.posn p k with answered := false }) t
  | (false, t) => t.setPort p { t.port p with helloNow := true }

/-- The DELAY REQs due, each with its departure stamp (R318, R329); what cannot start in time waits (R647). -/
def State.sendDelayReqs (s : State) (p src flags : Nat) : List Nat → State
  | [] => s
  | tgt :: l =>
    let v := s.port p
    let q := (v.seq + 1) % 65536
    match s.ctlSend p tkDelay (s.cycle.toNat % 2 ^ 32) (s.ctlLt p) 0xFFFF src flags
      (leBytes 1 1 ++ leBytes 1 tgt ++ leBytes 2 q ++ List.replicate 44 0) with
    | (true, t) =>
      let w := t.port p
      State.sendDelayReqs (t.setPort p { w with
        seq := q, reqs := l, stamps := w.stamps.filter (fun e => decide (e.1 ≠ tgt)) ++ [(tgt, q, s.ctlLt p)] }) p src flags l
    | (false, t) => t

/-- A delay round, where one is due (R329): the requests to the positions `ks`. -/
def State.delayRound (s : State) (p : Nat) (ks : List Nat) : State :=
  let v := s.port p
  let n := s.cycle.toNat
  if (v.delayNow || decide (v.delayAt + s.fget fTRL_DELAY_CFG_EVERY ≤ n)) = true then
    s.setPort p { v with delayNow := false, delayAt := n, reqs := ks }
  else s

/-- The row and medians that a RESULT tells a position: the standby's for one of its far segment, an active's own for one that is about to
leave it (R330, R339, R341). -/
def State.resultOf (s : State) (p k : Nat) : Nat × Int × Int × Int :=
  let v := s.posn p k
  if s.standby then (s.rowAt p (s.boards p - 1 - k), v.medians)
  else (s.rowAt p k, if s.isFar p k then medians v.near else v.medians)

/-- DELAY RESULT to a position (R318, R330). -/
def State.sendResult (s : State) (p k src flags : Nat) : Bool × State :=
  let m := s.resultOf p k
  s.ctlSend p tkDelay (s.cycle.toNat % 2 ^ 32) (s.ctlLt p) m.1 src flags
    (leBytes 1 3 ++ leBytes 1 k ++ leBytes 2 0 ++ leBytes 2 m.1 ++ leBytes 2 0 ++ List.replicate 24 0
      ++ leBytes 8 (unsgn 64 m.2.1) ++ leBytes 8 (unsgn 64 m.2.2.1))

/-- The RESULTs due: a FOUND position becomes MEASURED with its first (R330); what cannot start in time waits (R647). -/
def State.sendResults (s : State) (p src flags : Nat) : List Nat → State
  | [] => s
  | k :: l =>
    match s.sendResult p k src flags with
    | (true, t) =>
      let u := t.setPort p { t.port p with results := l }
      State.sendResults (if s.active && decide (u.fget (fTRL_POS_STAT_STATE p k) = posFound) then u.setPosState p k posMeasured else u) p src flags l
    | (false, t) => t

/-- The MGMT request that waits (R319). -/
def State.sendMgmt (s : State) (p : Nat) : State :=
  if s.fbit (fTRL_MGMT_TX_BUSY p) then
    let n := s.fget (fTRL_MGMT_TX_LEN p)
    let data := ((List.range ((n + 3) / 4)).flatMap (fun i => leBytes 4 (s.reg (rTRL_MGMT_TXBUF p i)).toNat)).take n
    match s.ctlSend p tkMgmt (s.cycle.toNat % 2 ^ 32) (s.ctlLt p) 0xFFFF srcActive 0
      (leBytes 1 1 ++ leBytes 1 (s.fget (fTRL_MGMT_TX_TARGET p)) ++ leBytes 1 (s.fget (fTRL_MGMT_TX_TAG p)) ++ leBytes 1 0
        ++ leBytes 2 n ++ leBytes 2 0 ++ data) with
    | (true, t) => t.fset (fTRL_MGMT_TX_BUSY p) 0
    | (false, t) => t
  else s

/-- Whether a HELLO REQ is due in this control period (R328). -/
def State.helloDue (s : State) (p : Nat) : Bool :=
  let v := s.port p
  let open' := (List.range (min 16 (s.boards p))).any (fun k =>
    let st := s.fget (fTRL_POS_STAT_STATE p k)
    decide (st = posAbsent) || decide (st = posFound) || decide (st = posMismatch))
  v.helloNow || (open' && decide (256 ≤ v.helloAge + 1)) || decide (65536 ≤ v.helloAge + 1)

/-- Targets of an active's delay round (R329): its positions and the line end; in split-line operation the far positions too, which answer
on the side of the request (R341; DEDUCED, log 82). -/
def State.delayTargets (s : State) (p : Nat) : List Nat :=
  ((List.range (min 16 (s.boards p))).filter (fun k =>
    let st := s.fget (fTRL_POS_STAT_STATE p k)
    decide (st = posFound) || decide (st = posMeasured) || decide (st = posReady) || decide (st = posLost) || decide (st = posFar))) ++ [0xFE]

/-- HELLO, DELAY and MGMT requests and DELAY results of a control period; a port with BOARDS 0 carries SYNC only (R321). -/
def State.sendRequests (s : State) (p : Nat) : State :=
  if s.boards p = 0 then s
  else
    let hello := s.helloDue p
    let v := s.port p
    let s1 := s.setPort p { v with helloNow := false, helloAge := if hello then 0 else v.helloAge + 1 }
    let s2 := (if hello then s1.sendHello p else s1).delayRound p (s.delayTargets p)
    let s3 := s2.sendDelayReqs p srcActive 0 (s2.port p).reqs
    (s3.sendResults p srcActive 0 (s3.port p).results).sendMgmt p

/-- SPLIT (R320). -/
def State.sendSplit (s : State) (p sub first lt : Nat) : State :=
  (s.ctlSend p tkSplit (s.cycle.toNat % 2 ^ 32) lt 0xFFFF srcRelay 2
    (leBytes 1 sub ++ leBytes 1 first ++ leBytes 1 (s.boards p - 1) ++ List.replicate 13 0)).2

/-- The standby's control period in the far segment (R339 … R341): in the first one SPLIT ENTER and the computed RESULTs; in the last one SPLIT
LEAVE; SYNC; from the second one on delay rounds of the far positions and their RESULTs. -/
def State.relayPeriod (s : State) (p : Nat) : State :=
  match (s.port p).far with
  | none => s
  | some (first, at') =>
    let n := s.cycle.toNat
    let ks := (List.range (s.boards p)).filter (fun k => decide (first ≤ k))
    let s0 := s.setPort p { s.port p with ctlAt := some n, ctlUsed := 0 }
    let s1 :=
      if at' = n then
        let u := ks.foldl (fun t k =>
          let f := t.figuresOr (t.farKnown p k false)
          f.2.setPosn p k { f.2.posn p k with meas := [measOf f.1], bad := 0, sent := some f.1.1 }) (s0.sendSplit p 1 first (s0.ctlLt p))
        (u.setPort p { u.port p with delayNow := true }).sendResults p srcRelay 2 ks
      else s0
    let s2 := if (s.port p).leaveAt = some (n + 1) then s1.sendSplit p 2 first (s.tOf (n + 1)) else s1
    let s3 := s2.sendSync p srcRelay 2
    if at' < n then
      let s4 := s3.delayRound p ks
      let s5 := s4.sendDelayReqs p srcRelay 2 (s4.port p).reqs
      s5.sendResults p srcRelay 2 (s5.port p).results
    else s3

/-- CONTROL_PERIOD (R323, R325, R328 … R335, R647): it opens at T(n) + Bp × POUR_LEN or later, once a cycle. Pending commits of the ports whose
period opens at this instant are checked; then SYNC, TASTE, TRIP repeats and the requests go out one after another, none starting past BC −
200 ns. After a takeover the ports begin in cycle t (spec/14_racking_standby.md R442), and in a swap cycle W no SYNC is sent (R447). -/
def execControlPeriod (pf : Fin 32) (s : State) : Out :=
  let p := pf.val
  let open' (q : Nat) : Nat := s.boards q * s.pourLen q
  if !s.mainRuns || !s.portEn p || decide ((s.port p).ctlAt = some s.cycle.toNat) || decide (s.lt.toNat < s.tn.toNat + open' p) then .next s
  else if s.fget fRACK_STAT_ROLE = roleStandby then
    .next (if s.fget (fTRL_PORT_STAT_LINK p) = lkUp then s.relayPeriod p else s)
  else if s.rack.takeAt.isSome then .next s
  else
    let ps := s.commitBits.filter (fun q => s.portEn q && decide (open' q = open' p))
    let s0 := if s.commitBits.contains p then s.checkCommits ps else s
    let s1 := s0.setPort p { s0.port p with ctlAt := some s.cycle.toNat, ctlUsed := 0 }
    if s1.portSends p then
      let sync := if s1.rack.swapW = some s1.cycle.toNat then s1 else s1.sendSync p srcActive 0
      .next (((sync.sendTaste p).repeatTrips p true).sendRequests p)
    else .next (s1.repeatTrips p false)

/-! ### Split-line operation -/

/-- SYNC_MISSED (R338, R339): a standby counts it; once DETECT are missed in a row with split-line operation permitted and the racking
link up, it reports the break over racking. -/
def execSyncMissed (pf : Fin 32) (s : State) : Out :=
  let p := pf.val
  let v := s.port p
  if s.fget fRACK_STAT_ROLE = roleStandby then
    let s1 := s.setPort p { v with missed := v.missed + 1, heard := 0 }
    let report := s.fbit fTRL_CTRL_SPLIT_EN && decide (s.fget fRACK_STAT_LANES ≠ 0)
      && decide (s.fget fTRL_SPLIT_CFG_DETECT ≤ v.missed + 1) && v.far.isNone
    .next (s1.when report (fun t => t.rackNote rnBreak p (leBytes 8 t.cycle.toNat)))
  else .next s

/-- FAR_END_LISTEN (R311, R341): a standby takes a SYNC that passed checks 1 … 7. At an active module a SYNC comes from the wrong direction. -/
def execFarEndListen (pf : Fin 32) (h : TrHdr) (_pay : List Byte) (s : State) : Out :=
  let p := pf.val
  let v := s.port p
  if s.portHears p then .next (s.rxDrop p 7)
  else if s.fget fRACK_STAT_ROLE = roleStandby ∧ h.src = srcActive then .next (s.setPort p { v with missed := 0, heard := v.heard + 1 })
  else .next s

/-- SPLIT_BREAK_REPORT (R338, R339): the active prepares to confirm at the next boundary. -/
def execSplitBreakReport (pf : Fin 32) (s : State) : Out :=
  if s.fget fRACK_STAT_ROLE = 1 then .next (s.setPort pf.val { s.port pf.val with report := true }) else .next s

/-- The lowest position whose harvest was missed in cycle `m` and the DETECT − 1 cycles before it (R338). -/
def State.firstMissed (s : State) (p m : Nat) : Option Nat :=
  (List.range (min 16 (s.boards p))).find? (fun k =>
    let r := s.rowAt p k
    decide ((s.row r).noHarvest = some m) && decide (s.fget fTRL_SPLIT_CFG_DETECT ≤ s.fget (fSCHED_ROW_STAT_NOHARV_RUN r)))

/-- Positions of a port from `f` up. -/
def State.farPositions (s : State) (p f : Nat) : List Nat := (List.range (min 16 (s.boards p))).filter (fun k => decide (f ≤ k))

/-- A segment becomes far (R330, R339): its positions' delays are those from the standby's port. -/
def State.splitEnter (s : State) (p f : Nat) : State :=
  (s.farPositions p f).foldl (fun t k =>
    let v := t.figuresOr (t.farKnown p k true)
    ((v.2.setPosn p k { v.2.posn p k with meas := [measOf v.1], near := [], bad := 0 }).posRegs p k).setPosState p k posFar) s

/-- A segment is far no longer (R341): its positions are READY with the delays measured from this side, and SPLIT_LINE is raised; a
standby stops relaying. -/
def State.splitEnd (s : State) (p : Nat) : State :=
  let v := s.port p
  let s1 := s.setPort p { v with far := none, leaveAt := none, missed := 0, heard := 0 }
  if s.active then
    let s2 := ((List.range (min 16 (s.boards p))).filter (fun k => s.isFar p k)).foldl (fun t k =>
      let w := t.posn p k
      ((t.setPosn p k { w with meas := w.near, near := [], sent := some (medians w.near).1 }).posRegs p k).setPosState p k posReady) s1
    ((s2.fset ⟨rTRL_SPLIT_STAT, p, p⟩ 0).fset (fTRL_PORT_STAT_SPLIT p) 0).assertEv 698
  else s1

/-- At T(n), on either role: split-line operation that a SPLIT LEAVE has ended stops (R341). -/
def State.splitLeaves (s : State) (n : Nat) : State :=
  ((List.range 32).filter (fun p => decide ((s.port p).leaveAt = some n))).foldl (fun t p => t.splitEnd p) s

/-- At T(n): break reports are confirmed, at most four ports being in split-line operation (R338, R339); positions of a segment
confirmed one boundary earlier become FAR. -/
def State.splitBoundary (s : State) (n : Nat) : State :=
  (List.range 32).foldl (fun t p =>
    let v := t.port p
    let t1 :=
      match v.far with
      | some (f, at') => if at' + 1 = n then t.splitEnter p f else t
      | none => t
    if v.report then
      let t2 := t1.setPort p { v with report := false }
      if !t.fbit fTRL_CTRL_SPLIT_EN || v.far.isSome then t2
      else
        match t.firstMissed p (n - 1) with
        | none => t2
        | some f =>
          if 4 ≤ ((List.range 32).filter (fun q => (t.port q).far.isSome)).length then t2.fset fTRL_STAT_SPLIT_REFUSED 1
          else
            (((t2.setPort p { t2.port p with far := some (f, n) }).fset ⟨rTRL_SPLIT_STAT, p, p⟩ 1).fset (fTRL_PORT_STAT_SPLIT p) 1).assertEv 698
              |>.rackNote rnConfirm p (leBytes 1 f ++ leBytes 8 n)
    else t1) s

/-- SPLIT_LEAVE (R341), at T(q): once a standby has heard the active's SYNC for DETECT control periods in a row it sends SPLIT LEAVE in this
cycle; once an active has measured each far position four times from its own side, it takes them back. Both at T(q + 1). -/
def execSplitLeave (pf : Fin 32) (s : State) : Out :=
  let p := pf.val
  let v := s.port p
  match v.far with
  | none => .next s
  | some (f, _) =>
    let ready := if s.standby then decide (s.fget fTRL_SPLIT_CFG_DETECT ≤ v.heard)
      else (s.farPositions p f).all (fun k => decide (4 ≤ (s.posn p k).near.length))
    .next (if ready && v.leaveAt.isNone then s.setPort p { v with leaveAt := some (s.cycle.toNat + 1) } else s)

end Sys2Proof.Machine
end

