-- ==== Sys2Proof/Machine/Pipeline.lean ====
section
/-! DEFINITION. From frame load to pour: system records, the start of a context, write-back, and the pour slots (spec/02_control_cycle.md R48, R53, R54, R68 … R74, spec/04_judin_model.md R121 … R141). -/

namespace Sys2Proof.Machine

/-- A row's 36 KB as the frame loader fills a frame (R33, R52, R136): the kept sections of an earlier cycle where there are any, the
command bytes 0, and the channel variables migrated where the row's bit is 0 (R403). -/
def State.rowImage (s : State) (r m : Nat) : Mem × Bool :=
  let v := s.row r
  let old := (v.old m).getD (s.snapRow r)
  let win (lo n : Nat) : Mem := (SMap.window (rowBase r + lo) n s.mem).map (fun e => (e.1 + lo, e.2))
  let base := old.filter (fun e => decide (e.1 < 0x2000)) ++ win 0x2000 0x1000
    ++ old.filter (fun e => decide (0x3000 ≤ e.1) && decide (e.1 % 32 < 0x18))
  let need := !s.arrBit (rPART_GRF_ROWMIG 0) r
  match (if need then (s.owner r).bind s.rowMap else none) with
  | none => (base ++ win 0x5000 0x4000, false)
  | some q =>
    ((List.range 256).foldl (fun f l =>
      Mem.wrList f (0x5000 + 64 * l) (mapApply q (s.rdList (rowBase r + 0x5000 + 64 * l) 64))) base, true)

/-- Frame `i` of pair `k` holds its row, where it waits for it (R53, R403). A conversion that waited for the load follows it (R52). -/
def State.frameLoaded (s : State) (k i : Nat) : State :=
  let f := s.frame k i
  match f.row with
  | none => s
  | some r =>
    if f.loaded then s
    else
      let img := s.rowImage r f.cycle
      let s1 := s.setFrame k i { f with loaded := true, mem := img.1, migrated := img.2 }
      { s1.fset (fSCHED_ROW_STAT_CLAIM r) clLoaded with linesAcc := s.linesAcc + 288 }.convertWaiting r |>.stageResume

/-- FRAME_LOAD_DONE (R53): the load of frame `i` of pair `k` completes; where the frame waits for none, the oldest load of it whose claim
was released completes VOID (spec/03_partitions_fabric.md R117). Earlier released loads of the same lines complete before it (R112). -/
def execFrameLoadDone (k : Fin 34) (i : Fin 2) (s : State) : Out :=
  let mine (q : FabReq) : Bool := decide (q.frm = some (k.val, i.val))
  let q := (s.inflight.find? (fun q => mine q && !q.void)).orElse (fun _ => s.inflight.find? mine)
  .next (if !s.mainRuns then s else match q with
    | none => s.frameLoaded k.val i.val
    | some q => ({ s with inflight := s.inflight.filter (fun p => !(p.void && decide (p.initiator = q.initiator) && decide (p.addr = q.addr))) }.endReq
        q.tag).when (!q.void) (fun t => t.frameLoaded k.val i.val))

/-- The loaded frames of pair `k`, with the ranks of their rows. -/
def State.startable (s : State) (k : Nat) : List (List Nat × Nat) :=
  let g := s.gFirst
  [0, 1].filterMap (fun i =>
    let f := s.frame k i
    match f.row with
    | some r => if f.loaded && decide (s.fget (fSCHED_ROW_STAT_CLAIM r) = clLoaded) then some (s.rankOf g r, i) else none
    | none => none)

/-- The context of pair `old` at the start of an execution (R123, R124): lane scratch clear, every register 0 but PC, DP (`hi`, the
partition's PART_STACK.HI), LM and RSP's parity; nothing else in the address map is cleared (R139). -/
def freshCtx (old : Ctx) (scalar : Bool) (part row cycle hi : Nat) (ver : Version) : Ctx :=
  { old.rest with
    running := true, scalar := scalar, part := part, row := row, cycle := cycle, ver := ver, dp := BitVec.ofNat 16 hi
    lanes := List.replicate (if scalar then 1 else 256) {}
    pc := if scalar then 2 else 0
    lm := if scalar then 1 else BitVec.allOnes 256
    rsPar := rspParity 0 false }

/-- EXECUTION_START (R53, R121, R123, R124): an idle pair starts the best-ranked of its loaded rows; clearing the scratch takes 16
clocks. During a flush, and while the main die is held, none starts (spec/20_reset_watchdog_cask.md R596, R612). -/
def execExecutionStart (k : Fin 34) (s : State) : Out :=
  let pg := pressPage k.val
  .next (if s.fget (fPAIR_STAT_STATE pg) ≠ stIdle ∨ phFlush ≤ s.fget fRST_START_PHASE then s
    else match bestOf (s.startable k.val) with
      | none => s
      | some (_, i) =>
        let f := s.frame k.val i
        match f.row with
        | none => s
        | some r =>
          let s := s.releaseBuf (.press k) true
          let x : Ctx := { freshCtx (s.cx (.press k)) false f.part r f.cycle (s.fget (fPART_STACK_HI f.part)) (s.part f.part).run with
            late := f.late, frame := i, sysrec := f.sysrec, cutoff := s.cutoffOf r f.cycle, migrated := f.migrated }
          let s1 := ((s.setCx (.press k) x).fset (fPAIR_STAT_STATE pg) stExec).fset (fSCHED_ROW_STAT_CLAIM r) clExec
          let s2 := if i = 0 then s1.fset (fPAIR_FRAME_ACT0 pg) 1 else s1.fset (fPAIR_FRAME_ACT1 pg) 1
          s2.clocks (.press k) 16 0)

/-- SCALAR_START (R121, R140, R645): on an active module (spec/14_racking_standby.md R415) a free pair starts the waiting context with the lowest partition number. For a partition
without rows the start counts as SERVED. -/
def execScalarStart (j : Fin 16) (s : State) : Out :=
  let pg := scalarPage j.val
  let c := Cx.scalar j
  .next (if s.fget (fPAIR_STAT_STATE pg) ≠ stIdle ∨ (s.cx c).running = true ∨ phFlush ≤ s.fget fRST_START_PHASE ∨ s.active = false then s
    else match (s.parts.filter (fun e => e.2.scalarWait.isSome && decide (s.fget (fPART_CFG_SCALAR_PAIR e.1) = j.val))).head? with
      | none => s
      | some (n, v) =>
        let m := v.scalarWait.getD 0
        let b := s.fget (fPART_BIND_CH_CH n)
        let s := s.releaseBuf c true
        let x : Ctx := { freshCtx (s.cx c) true n (b / 256) m (s.fget (fPART_STACK_HI n)) v.run with
          bind := b
          sysrec := s.sysRecords n (b / 256) m false }
        let s1 := (((s.prevUsed (b / 256) m false).setPart n { v with scalarWait := none, scalarOn := some m }).setCx c x).fset (fPAIR_STAT_STATE pg) stExec
        let s2 := s1.when ((s.rowsOfPart n).isEmpty) (fun t => t.fwrap (fSCHED_P_SERVED_COUNT n))
        s2.clocks c 16 0)

/-- The commands that an execution wrote, handed to the step sequencer in lane order (R249). -/
def State.handLanes (s : State) (r : Nat) (x : Ctx) (f : Mem) : State :=
  ((List.range 256).filter (fun l => x.cmdLanes.getLsbD l)).foldl (fun t l =>
    t.stepCmdBytes (r * 256 + l) ecProg (Mem.rdList f (0x3000 + l * 32 + 0x18) 8)) s

/-- WRITE_BACK (R54, R68, R136, R249, R403): the output records and the written granules of the channel variables reach the image
store, the commands are applied, the slot's contents are fixed, and the claim ends. -/
def execWriteBack (k : Fin 34) (s : State) : Out :=
  let pg := pressPage k.val
  let c := Cx.press k
  let x := s.cx c
  .next (if !s.mainRuns || !x.ended then s
    else
      let r := x.row
      let f := (s.frame k.val x.frame).mem
      let gs := if x.migrated then (List.range 1024).map (fun g => 0x500 + g) else x.granules
      let s1 := s.wrBytes (rowBase r + 0x2000) (Mem.rdList f 0x2000 4096)
      let s2 := gs.foldl (fun t g => t.wrBytes (rowBase r + 16 * g) (Mem.rdList f (16 * g) 16)) s1
      let n := 32 + (gs.length + 7) / 8
      let s3 := { s2 with linesAcc := s2.linesAcc + n }.passTags (inLoader k.val) n
      let s4 := if x.migrated then
          (s3.setMig r (decide (x.ver.var = (s3.part x.part).run.var))).grfRegs x.part else s3
      let s5 := s4.handLanes r x f
      let v := s5.row r
      let out := s5.standing r
      let w :=
        if v.jobLate then (if v.pours.any (fun e => decide (e.1 = x.cycle + 1)) then v else v.pour (x.cycle + 1) (some out))
        else if v.dec x.cycle = some 1 then v.pour x.cycle (some out)
        else v
      let s6 := ((s5.setRow r { w with wrote := some x.cycle }).clearFrame k.val x.frame).setCx c x.rest
      (s6.fset (fPAIR_STAT_STATE pg) stIdle).nextWork r)

/-- What the slot of a row's cycle `m` carries, and whether it is a late result (R28, R69, R71). -/
def State.slotPour (s : State) (r m : Nat) : Option (List Byte) × Bool :=
  let v := s.row r
  let o := (v.dec m).getD 5
  let late := decide (v.stretched.map (· + 1) = some m)
  if o = 9 ∨ o = 10 ∨ s.fget fRST_START_PHASE = phFlush then (some (List.replicate 4096 0), false)
  else match v.pours.find? (fun e => decide (e.1 = m)) with
    | some e => (e.2, late)
    | none => if o = 2 ∨ late then (none, false) else (some (s.standing r), false)

/-- The payload of a POUR frame: bytes 0 … 7 of each output record, in lane order (R240, R314). -/
def pourPayload (out : List Byte) : List Byte := (List.range 256).flatMap (fun l => (out.drop (16 * l)).take 8)

/-- POUR_WINDOW (R48, R54, R71, R314, R323, R340, R342): the slot of position `k` of port `p` in the window opened at T(n), once its instant has come,
with the results of cycle n − 1. The row's outcome is final. -/
def execPourWindow (pf : Fin 32) (kf : Fin 16) (s : State) : Out :=
  let p := pf.val
  let k := kf.val
  let n := s.cycle.toNat
  let r := s.rowAt p k
  if (!s.mainRuns || !s.portEn p || decide (s.boards p ≤ k) || decide (512 ≤ r) || decide (n = 0) || !s.active
      || decide (s.lt.toNat < s.tn.toNat + s.slotOfs p k) || decide ((s.row r).poured = some (n - 1))) = true then .next s
  else
    let m := n - 1
    let s1 := s.settle r m
    let st := s1.fget (fTRL_POS_STAT_STATE p k)
    let q := s1.slotPour r m
    let s2 :=
      match q.1 with
      | none => s1
      | some out =>
        let cyc := (if q.2 then m - 1 else m) % 2 ^ 32
        let lt := s1.tn.toNat + s1.applyOfs
        let pay := pourPayload out
        if st = posFar then
          s1.rackOut rkRelay none (nats (s1.trBody p tkPour cyc lt r srcRelay (b2n q.2 + 2) pay))
        else if st = posReady ∨ st = posLost then
          (if s1.portSends p then s1.trSend p tkPour cyc lt r srcActive (b2n q.2) pay
           else s1.fsat (fTRL_CNT_COUNT p tcPourDrop))
        else s1
    .next (s2.commitOutcome r m)

end Sys2Proof.Machine
end

