-- ==== Sys2Proof/Machine/Panel.lean ====
section
/-! DEFINITION. The status panel's driver (spec/18_local_io_panel.md R549 … R553). -/

namespace Sys2Proof.Machine

/-- States of R553. -/
abbrev pnOff : Nat := 0
abbrev pnRamp : Nat := 1
abbrev pnOn : Nat := 2
abbrev pnFault : Nat := 3

/-- The driver's state. -/
def State.pnState (s : State) : Nat := s.fget fPANEL_STAT_STATE

/-- A word nothing has written to the front buffer. -/
def front0 : Nat → Word := fun _ => 0

/-- The back buffer, byte 0 first (R550). -/
def State.backBytes (s : State) : List Byte := (List.range 2048).flatMap (fun j => leBytes 4 (s.reg (rPANEL_FB j)).toNat)

/-- The front buffer, byte 0 first. -/
def State.frontBytes (s : State) : List Byte := (List.range 2048).flatMap (fun j => leBytes 4 (SMap.get front0 s.panel.front j).toNat)

/-- The rate of the next frame (R552). -/
def State.pnRate (s : State) : Nat := if s.fbit fPANEL_STAT_IDLE then s.fget fPANEL_CTRL_IDLE_RATE else s.fget fPANEL_CTRL_RATE

/-- The buffers swap (R551): the front takes the checksum `c`, swaps are counted, and the panel leaves its idle rate (R552). -/
def State.pnSwap (s : State) : State :=
  let back := SMap.window (rPANEL_FB 0) 0x2000 s.regs
  let regs := s.panel.front.foldl (fun (m : SMap Word) (e : Nat × Word) => SMap.put regReset (rPANEL_FB e.1) e.2 m)
    (SMap.clearRange (rPANEL_FB 0) (rPANEL_FB 2048) s.regs)
  let s1 : State := { s with
    regs := regs, panel := { s.panel with front := back.map (fun (e : Nat × Word) => (e.1 / 4, e.2)), ready := false } }
  (((s1.setReg rPANEL_FRONT_CRC (BitVec.ofNat 32 s1.panel.swap)).fsat ⟨rPANEL_CNT_SWAP, 31, 0⟩).fset fPANEL_STAT_SWAP_PEND 0).fset
    fPANEL_STAT_IDLE 0

/-- A swap found right waits for the next frame only while the panel is ON (R551, 2). -/
def State.pnSwapNow (s : State) : State := if s.panel.ready && decide (s.pnState ≠ pnOn) then s.pnSwap else s

/-- A value written to PANEL_SWAP (R551, 1). -/
def State.pnRequest (s : State) (c : Nat) : State :=
  { s with panel := { s.panel with swap := c, ready := false } }.fset fPANEL_STAT_SWAP_PEND 1

/-- PANEL_CRC_DONE (R551): the CRC over the back buffer has been computed. -/
def execPanelCrcDone (s : State) : Out :=
  .next (if !s.fbit fPANEL_STAT_SWAP_PEND || s.panel.ready then s
    else if crc32 s.backBytes = s.panel.swap then { s with panel := { s.panel with ready := true } }.pnSwapNow
    else ((s.fset fPANEL_STAT_SWAP_PEND 0).fset fPANEL_FLAGS_CRC_BAD 1).assertEv 710)

/-- Sets the state; outside ON no frame rate is in force, and a waiting swap happens at once. -/
def State.pnGo (s : State) (st : Nat) : State :=
  let s1 := (s.fset fPANEL_STAT_STATE st).fset fPANEL_STAT_IDLE 0
  (s1.fset fPANEL_STAT_RATE_CUR (if st = pnOn then s1.pnRate else 0)).pnSwapNow

/-- The current of grey level `g` in µA (R549); the glass leaves a column of level 0 open (spec/21_electrical_mechanical.md R621). -/
def State.pnCurrent (s : State) (g : Nat) : Nat :=
  if g = 0 then 0 else (roundHalf (s.panel.drive % 512 * s.fget (fPANEL_GAMMA_LEVEL g) : Nat) 255).toNat

/-- The pixel at column `x` and row `y` of the frame shown (R550). -/
def State.pixel (s : State) (x y : Nat) : Nat :=
  let a := y * 128 + x / 2
  bitsOf (SMap.get front0 s.panel.front (a / 4)).toNat (8 * (a % 4) + 4 * (x % 2) + 3) (8 * (a % 4) + 4 * (x % 2))

/-- The current of column `x` in µA while row `y` is selected (R549). -/
def State.columnUa (s : State) (x y : Nat) : Nat := if s.pnState = pnOn then s.pnCurrent (s.pixel x y) else 0

/-- The bits shifted out for row `y`, the first first: the level of each column, then the row's select bit
(spec/21_electrical_mechanical.md R621). -/
def State.rowBits (s : State) (y : Nat) : List Bool :=
  (List.range 256).flatMap (fun x => (List.range 4).map (fun i => bitOf (s.pixel x y) i)) ++ (List.range 64).map (fun r => decide (r = y))

/-- The current of GBUSg in µA while row `y` is selected: that of a column of level `g` for each (spec/21_electrical_mechanical.md R621). -/
def State.gbusUa (s : State) (g y : Nat) : Nat :=
  if s.pnState = pnOn then ((List.range 256).filter (fun x => decide (s.pixel x y = g))).length * s.pnCurrent g else 0

/-- Whether the front buffer lights a pixel. -/
def State.pnLit (s : State) : Bool :=
  s.frontBytes.any (fun b => decide (s.pnCurrent (b.toNat % 16) ≠ 0) || decide (s.pnCurrent (b.toNat / 16) ≠ 0))

/-- PANEL_FRAME_START (R551 … R553): the frame before has ended, with no column current flowing if `dark`. A swap found right happens;
PANEL_DRIVE and the rates take effect; the front buffer, one word of which an upset may have changed, is checked. -/
def execPanelFrameStart (dark : Bool) (upset : Option (Fin 2048 × Word)) (s : State) : Out :=
  .next (if s.pnState ≠ pnOn then s
    else
      let s1 := s.when (dark && s.pnLit) (fun t => (t.fset fPANEL_FLAGS_OPEN 1).assertEv 710)
      let s2 : State := match upset with
        | none => s1
        | some (j, w) => { s1 with panel := { s1.panel with
            front := SMap.put front0 j.val (SMap.get front0 s1.panel.front j.val ^^^ w) s1.panel.front } }
      let s3 := s2.when s2.panel.ready (fun t => t.pnSwap)
      let s4 : State := { s3 with panel := { s3.panel with drive := (s3.reg rPANEL_DRIVE).toNat } }
      let s5 := s4.fset fPANEL_STAT_RATE_CUR s4.pnRate
      if crc32 s5.frontBytes = (s5.reg rPANEL_FRONT_CRC).toNat then s5
      else (s5.fset fPANEL_FLAGS_FRAME_BAD 1).when (!s5.fbit fPANEL_FLAGS_FRAME_BAD) (fun t => t.assertEv 710))

/-- PANEL_IDLE_TIMEOUT (R552): IDLE seconds have passed without a swap. -/
def execPanelIdleTimeout (s : State) : Out :=
  .next (if decide (s.pnState ≠ pnOn) || s.fbit fPANEL_STAT_SWAP_PEND || decide ((s.reg rPANEL_IDLE).toNat = 0) then s
    else
      let s1 := s.fset fPANEL_STAT_IDLE 1
      s1.fset fPANEL_STAT_RATE_CUR s1.pnRate)

/-- The panel enters FAULT, with its flag (R553). -/
def State.pnFail (s : State) (f : Fld) : State := ((s.pnGo pnFault).fset f 1).assertEv 710

/-- EN written (R553). With no panel (PANEL_ID high) the state is FAULT (spec/21_electrical_mechanical.md). -/
def State.pnEn (s : State) : State :=
  if !s.fbit fPANEL_CTRL_EN then s.pnGo pnOff
  else if s.pnState ≠ pnOff then s
  else if s.pins.panelId then s.pnFail fPANEL_FLAGS_SUPPLY
  else s.pnGo pnRamp

/-- PANEL_RAMP_DONE (R553). -/
def execPanelRampDone (s : State) : Out := .next (if s.pnState = pnRamp then s.pnGo pnOn else s)

/-- PANEL_SUPPLY_FAULT (R553): VPANEL out of range for 1 ms, or the driver over 125 °C. -/
def execPanelSupplyFault (overtemp : Bool) (s : State) : Out :=
  .next (if s.pnState = pnRamp ∨ s.pnState = pnOn then
      s.pnFail (if overtemp then fPANEL_FLAGS_OVERTEMP else fPANEL_FLAGS_SUPPLY)
    else s)

/-- The driver is loaded (R549): OFF, with both buffers of zeros and every register at its reset value. -/
def State.panelLoad (s : State) : State :=
  { s with panel := {}, regs := SMap.clearRange rPANEL_CTRL (rPANEL_CTRL + 0x10000) s.regs }

end Sys2Proof.Machine
end

