-- ==== Sys2Proof/Machine/Tick.lean ====
section
/-! DEFINITION. One fabric clock with no command waiting, and the slew of wall time. -/

namespace Sys2Proof.Machine

/-- ADJ as a signed number (spec/06_time_events.md R191). -/
def ltAdj (s : State) : Int := sgn 32 (s.reg rEVT_LT_ADJ).toNat

/-- TIME_SLEW_LEFT and TIME_STAT.SLEWING as the slew stands (spec/16_engineering_time.md R494). -/
def State.slewRegs (s : State) : State :=
  (s.fset fTIME_SLEW_LEFT_NS (unsgn 32 (clampI (-2147483647) 2147483647 (s.wall.slewLeft / 65536)))).fset fTIME_STAT_SLEWING
    (b2n (decide (s.wall.slewLeft ≠ 0)))

/-- `us` microseconds of slew: O, or O_t under a hold, moves by at most TIME_SLEW of each (R494, R496). -/
def State.slewBy (s : State) (us : Nat) : State :=
  if s.wall.slewLeft = 0 ∨ us = 0 then s
  else
    let most : Int := (us * s.fget fTIME_SLEW_PPM * 65536 / 1000 : Nat)
    let d := clampI (-most) most s.wall.slewLeft
    let w := s.wall
    let w1 : Wall := match w.hold with
      | some (h, ot) => { w with slewLeft := w.slewLeft - d, hold := some (h, ot + d) }
      | none => { w with slewLeft := w.slewLeft - d, off := w.off + d }
    { s with wall := w1 }.slewRegs

/-- The generator adds 1 + ADJ × 2^−32 ns in every fabric clock, with a 32-bit fraction carried into the count (R191). -/
def tick (s : State) : State :=
  let t : Int := (s.ltFrac : Int) + 2 ^ 32 + ltAdj s
  let n := s.lt + BitVec.ofNat 64 (t / 2 ^ 32).toNat
  { s with lt := n, ltFrac := (t % 2 ^ 32).toNat }.slewBy (n.toNat / 1000 - s.lt.toNat / 1000)

end Sys2Proof.Machine
end

