-- ==== Sys2Proof/Machine/Time.lean ====
section
/-! DEFINITION. Wall time, the PTP port and the real-time clock (spec/16_engineering_time.md R491 … R508). -/

namespace Sys2Proof.Machine

/-- Whether the management firmware runs: no restart is in progress, and it did not stay in the boot ROM (spec/19_management.md
R555, R561). -/
def State.mgtRuns (s : State) : Bool := !s.mgt.down && decide (s.fget fMGT_STAT_BOOT ≠ bootRom)

/-! ### Wall time -/

/-- TIME_WALL_EPOCH and TIME_STAT.BACK_HELD as wall time stands. -/
def State.wallRegs (s : State) : State :=
  ((s.fset fTIME_WALL_EPOCH_EPOCH s.wall.epoch).fset fTIME_WALL_EPOCH_HOLDING (b2n s.wall.hold.isSome)).fset fTIME_STAT_BACK_HELD
    (b2n s.wall.hold.isSome)

/-- What a correction works on: L + O, or L + O_t under a hold (R494, R496). -/
def State.wallTarget (s : State) : Int :=
  (s.lt.toNat : Int) * 65536 + (match s.wall.hold with | some (_, ot) => ot | none => s.wall.off)

/-- STEP_THRESHOLD in 2^−16 ns. -/
def State.stepThresh (s : State) : Int := (s.fget fTIME_STEP_THRESH_MS : Int) * 1000000 * 65536

/-- Whether an offset is of STEP_THRESHOLD or more (R494). -/
def State.stepSize (s : State) (e : Int) : Bool := decide (s.stepThresh ≤ e) || decide (s.stepThresh ≤ -e)

/-- A slew of `e` begins and replaces any left (R494). -/
def State.wallSlew (s : State) (e : Int) : State :=
  ({ s with wall := { s.wall with slewLeft := e } }.slewRegs).fset fTIME_STAT_WALL_UNSET 0

/-- A step of `e` is decided (R495). -/
def State.wallDecide (s : State) (e : Int) : State := { s with wall := { s.wall with step := some (e, s.lt.toNat) } }

/-- A manual correction by `e` (R494). -/
def State.wallSet (s : State) (e : Int) (force : Bool) : State :=
  if force || s.stepSize e then s.wallDecide e else s.wallSlew e

/-- A measurement `e` of the PTP servo (R494): an outlier leads to a step only as the STEP_CONFIRM-th in a row of one sign. -/
def State.wallMeasured (s : State) (e : Int) : State :=
  if s.stepSize e then
    let pos := decide (0 ≤ e)
    let n := if s.wall.outlierPos = pos then s.wall.outliers + 1 else 1
    let s1 := (s.fsat (fTIME_CNT_COUNT 6)).fset fTIME_STAT_OUTLIER 1
    if s.fget fTIME_PTP_CTRL_CONFIRM ≤ n then
      { s1 with wall := { s1.wall with outliers := 0, outlierPos := pos } }.wallDecide e
    else { s1 with wall := { s1.wall with outliers := n, outlierPos := pos } }
  else { s with wall := { s.wall with outliers := 0 } }.wallSlew e

/-- The record of a step (R495): old wall seconds and nanoseconds, new nanoseconds. -/
def State.stepRecord (s : State) (code fl : Nat) (old : State) : State :=
  s.cellarAs code mMgt (old.wallSec % 2 ^ 32) old.wallSubNs s.wallSubNs fl

/-- A forward step from `old`'s wall time (R495). -/
def State.steppedFwd (s old : State) : State :=
  ((((s.assertEv 701).fset fTIME_STAT_STEP_FWD 1).fsat (fTIME_CNT_COUNT 7)).fset fTIME_STAT_WALL_UNSET 0).stepRecord 0x0019 0 old

/-- A backward step from `old`'s wall time (R495): the epoch advances. -/
def State.steppedBack (s old : State) : State :=
  let s1 := { s with wall := { s.wall with epoch := (s.wall.epoch + 1) % 256 } }.wallRegs
  ((((s1.assertEv 702).fset fTIME_STAT_STEP_BACK 1).fsat (fTIME_CNT_COUNT 8)).fset fTIME_STAT_WALL_UNSET 0).stepRecord 0x001A 0 old

/-- A backward step refused (R496): the record carries REFUSED. -/
def State.stepRefused (s : State) : State :=
  (((s.assertEv 702).fset fTIME_STAT_STEP_BACK 1).fsat (fTIME_CNT_COUNT 8)).stepRecord 0x001A 16 s

/-- The decided step takes effect (R495, R496). -/
def State.wallStep (s : State) (e : Int) : State :=
  let w : Wall := { s.wall with step := none, slewLeft := 0 }
  match w.hold with
  | some (h, ot) =>
    let s1 := ({ s with wall := { w with hold := some (h, ot + e) } }.slewRegs)
    if e < 0 then s1.stepRefused else s1
  | none =>
    if e < 0 ∧ s.fget fTIME_WALL_BACKSTEP_POLICY = 1 then
      (({ s with wall := { w with hold := some (s.wallTicks, w.off + e) } }.slewRegs).wallRegs).stepRefused
    else
      let s1 := ({ s with wall := { w with off := w.off + e } }.slewRegs)
      if e < 0 then s1.steppedBack s else if 0 < e then s1.steppedFwd s else s1

/-- WALL_STEP (R495): at a boundary T(n) at least 2 µs after the decision. -/
def execWallStep (s : State) : Out :=
  .next (match s.wall.step with
    | some (e, d) => if d + 2000 ≤ s.tn.toNat then s.wallStep e else s
    | none => s)

/-- HOLD_END (R496): L + O_t has reached W_h. -/
def execHoldEnd (s : State) : Out :=
  .next (match s.wall.hold with
    | some (h, ot) => if h ≤ (s.lt.toNat : Int) * 65536 + ot then { s with wall := { s.wall with off := ot, hold := none } }.wallRegs else s
    | none => s)

/-- ACCEPT_BACK at the next boundary (R495, R496): the hold ends as a backward step, which leaves no slew. -/
def State.wallAccept (s : State) : State :=
  let s0 := { s with wall := { s.wall with acceptBack := false } }
  match s0.wall.acceptBack || s.wall.acceptBack, s.wall.hold with
  | true, some (_, ot) => ({ s0 with wall := { s0.wall with off := ot, hold := none, slewLeft := 0 } }.slewRegs.wallRegs).steppedBack s
  | _, _ => s0

/-! ### The PTP port -/

/-- Port states (R499). -/
abbrev psInit : Nat := 0
abbrev psDisabled : Nat := 2
abbrev psListening : Nat := 3
abbrev psUncal : Nat := 4
abbrev psSlave : Nat := 5

/-- Lock states (R499). -/
abbrev plFree : Nat := 0
abbrev plAcquiring : Nat := 1
abbrev plLocked : Nat := 2
abbrev plHoldover : Nat := 3

/-- Sets the port data. -/
def State.setPtp (s : State) (v : Ptp) : State := { s with ptp := v }

/-- Sets port state and lock state; a change of either raises PTP_STATE (R499). -/
def State.ptpState (s : State) (st lk : Nat) : State :=
  let same := decide (s.fget fTIME_PTP_STAT_PORT_STATE = st) && decide (s.fget fTIME_PTP_STAT_LOCK = lk)
  ((s.fset fTIME_PTP_STAT_PORT_STATE st).fset fTIME_PTP_STAT_LOCK lk).when (!same) (fun t => t.assertEv 703)

/-- The port leaves SLAVE, or never was in it, for state `st` (R499): HOLDOVER after having been SLAVE. -/
def State.ptpLeave (s : State) (st : Nat) : State :=
  ({ s with ptp := { s.ptp with good := 0 } }).ptpState st (if s.ptp.wasSlave then plHoldover else plFree)

/-- The port restarts at INITIALIZING, or stays disabled (R499): what it knew of masters is gone. -/
def State.ptpRestart (s : State) : State :=
  ({ s with ptp := { wasSlave := s.ptp.wasSlave, seq := s.ptp.seq } }).ptpLeave (if s.fbit fTIME_PTP_CTRL_EN then psInit else psDisabled)

/-- A PTP message discarded (PTP_BAD). -/
def State.ptpBad (s : State) : State := s.fsat (fTIME_CNT_COUNT 5)

/-- Whether the port takes the message: it runs, the message is one of R498, of its domain. -/
def State.ptpHears (s : State) (h : PtpHdr) : Bool := h.ok && decide (h.domain = s.fget fTIME_PTP_CTRL_DOMAIN)

/-- A message reaches the port: nothing while management does not run or the port is disabled; else `f`, or a discard. The port leaves
INITIALIZING with the first message that reaches it. -/
def State.onPtp (s : State) (h : PtpHdr) (f : State → State) : Out :=
  .next (if !s.mgtRuns || !s.fbit fTIME_PTP_CTRL_EN then s
    else
      let s1 := if s.fget fTIME_PTP_STAT_PORT_STATE = psInit then s.ptpLeave psListening else s
      if s1.ptpHears h then f s1 else s1.ptpBad)

/-- This instant in line time, in 2^−16 ns. -/
def State.lt16 (s : State) : Int := (s.lt.toNat : Int) * 65536

/-- The lock state after a measurement `e` in SLAVE (R499). -/
def State.ptpLock (s : State) (e : Int) : State :=
  let near := decide (e.natAbs < s.fget fTIME_PTP_SERVO_LOCK_NS * 65536)
  let good := if near then s.ptp.good + 1 else 0
  let lk := if !near then plAcquiring else if 16 ≤ good then plLocked else s.fget fTIME_PTP_STAT_LOCK
  ({ s with ptp := { s.ptp with good := good } }).ptpState psSlave lk

/-- An offset measurement is complete (R494, R499): the master's time `m` at line time `l`, both in 2^−16 ns. -/
def State.ptpMeasure (s : State) (l m : Int) : State :=
  let st := s.fget fTIME_PTP_STAT_PORT_STATE
  if st ≠ psUncal ∧ st ≠ psSlave then s
  else
    let e := m - l - (s.wallTarget - s.lt16)
    let s1 := if st = psSlave then s else
      ({ s with ptp := { s.ptp with wasSlave := true, good := 0 } }).ptpState psSlave plAcquiring
    let s2 := s1.fset fTIME_PTP_OFFSET_NS (unsgn 32 (clampI (-2147483647) 2147483647 (e / 65536)))
    (s2.ptpLock e).wallMeasured e

/-- The mean path delay is known (R498). -/
def State.ptpPath (s : State) (d : Int) : State :=
  ({ s with ptp := { s.ptp with path := some d } }).fset fTIME_PTP_PATH_NS (unsgn 32 (clampI (-2147483647) 2147483647 (d / 65536)))

/-- The frequency servo after a Sync in SLAVE (R500), not on a standby (R501): the value that matches the master's rate is not stated and is
free (log 10); ADJ moves by at most ADJ_STEP and stays within ±20 ppm. -/
def State.ptpServo (s : State) : State :=
  if s.fget fTIME_PTP_STAT_PORT_STATE ≠ psSlave ∨ s.fget fRACK_STAT_ROLE = roleStandby then s
  else
    let f := s.freeW
    let step : Int := s.fget fTIME_PTP_SERVO_ADJ_STEP
    let cur := ltAdj s
    let want := clampI (-85899) 85899 (sgn 32 f.1.toNat)
    f.2.fset fEVT_LT_ADJ_ADJ (unsgn 32 (clampI (cur - step) (cur + step) want))

/-- A Sync is used (R500): received at line time `l`, sent at master time `m` with every correction added. -/
def State.syncUsed (s : State) (l m : Int) : State :=
  let h := s.ptp.hist ++ [(l, m)]
  ({ s with ptp := { s.ptp with sync := some (l, m), pend := none, hist := h.drop (h.length - 16) } }).ptpServo

/-- Whether a message comes from the parent. -/
def State.fromParent (s : State) (h : PtpHdr) : Bool := decide (s.ptp.parent = some h.src)

/-- PTP_SYNC (R498, R500): a one-step Sync carries its origin time; a two-step one waits for its Follow_Up. -/
def execPtpSync (h : PtpHdr) (origin : Option Int) (s : State) : Out :=
  s.onPtp h (fun t =>
    if (!t.fromParent h || decide (h.interval < -7) || decide (1 < h.interval)) = true then t.ptpBad
    else
      let t1 := t.fsat (fTIME_CNT_COUNT 0)
      match origin with
      | some o => t1.syncUsed t1.lt16 (o * 65536 + h.corr)
      | none => { t1 with ptp := { t1.ptp with pend := some (h.seq, t1.lt16, h.corr) } })

/-- PTP_FOLLOW_UP (R498). -/
def execPtpFollowUp (h : PtpHdr) (origin : Int) (s : State) : Out :=
  s.onPtp h (fun t =>
    match t.ptp.pend with
    | some (q, l, c) =>
      if t.fromParent h && decide (q = h.seq) then (t.fsat (fTIME_CNT_COUNT 1)).syncUsed l (origin * 65536 + c + h.corr) else t.ptpBad
    | none => t.ptpBad)

/-- The order of the default BMCA (IEEE 1588-2019): data sets of one grandmaster by stepsRemoved and source, others by their rank. -/
def Foreign.better (a b : Foreign) : Bool :=
  let lt := fun (x y : List Nat) => (x.zip y).foldr (fun p r => if p.1 = p.2 then r else decide (p.1 < p.2)) false
  if a.gm = b.gm then lt [a.steps, a.src] [b.steps, b.src] else lt a.rank b.rank

/-- Whether a foreign master qualifies at line time `l`: two Announces within four announce intervals. -/
def Foreign.qualified (a : Foreign) (l : Nat) : Bool :=
  match a.prev with
  | some p => decide (l ≤ p + a.window)
  | none => false

/-- The best master takes effect (R498, R499): its data are shown; a new one starts the calibration afresh. -/
def State.ptpSelect (s : State) : State :=
  let best := (s.ptp.foreign.filter (fun f => f.qualified s.lt.toNat)).foldl (fun (b : Option Foreign) f =>
    match b with | none => some f | some x => if f.better x then some f else b) none
  match best with
  | none => s
  | some f =>
    let s1 := (((s.fset fTIME_PTP_GM_LO_ID (f.gm % 2 ^ 32)).fset fTIME_PTP_GM_HI_ID (f.gm / 2 ^ 32)).fset fTIME_PTP_STAT_STEPS_REMOVED f.steps).setReg
      rTIME_UTC (BitVec.ofNat 32 f.utc)
    if s1.ptp.parent = some f.src then s1
    else ({ s1 with ptp := { s1.ptp with parent := some f.src, pend := none, sync := none, hist := [], req := none } }).ptpLeave psUncal

/-- PTP_ANNOUNCE (R498, R499). -/
def execPtpAnnounce (h : PtpHdr) (a : PtpAnn) (s : State) : Out :=
  s.onPtp h (fun t =>
    let t1 := t.fsat (fTIME_CNT_COUNT 2)
    if h.interval < -3 ∨ 4 < h.interval ∨ 255 ≤ a.steps then t1.ptpBad
    else
      let old := t1.ptp.foreign.find? (fun (f : Foreign) => decide (f.src = h.src))
      let win := (4000000000 * 2 ^ (h.interval + 3).toNat) / 8
      let f : Foreign := { src := h.src, rank := [a.prio1, a.cls, a.acc, a.var, a.prio2, a.gm], gm := a.gm, steps := a.steps
                           utc := b2n a.utcValid * 2 ^ 31 + b2n a.leap61 * 2 ^ 30 + b2n a.leap59 * 2 ^ 29 + a.utc.toNat
                           last := t1.lt.toNat, prev := old.map (fun o => o.last), window := win }
      ({ t1 with ptp := { t1.ptp with foreign := (t1.ptp.foreign.filter (fun (g : Foreign) => decide (g.src ≠ h.src))) ++ [f] } }).ptpSelect)

/-- ANNOUNCE_RECEIPT_TIMEOUT (R499): no Announce of the parent in ANN_TMO intervals; another qualified master takes its place, or the
port listens. -/
def execAnnounceReceiptTimeout (s : State) : Out :=
  .next (if !s.mgtRuns || !s.fbit fTIME_PTP_CTRL_EN then s
    else
      let s1 := ({ s with ptp := { s.ptp with
        foreign := s.ptp.foreign.filter (fun (f : Foreign) => decide (some f.src ≠ s.ptp.parent)), parent := none, pend := none, sync := none, hist := [], req := none } }).ptpLeave psListening
      s1.ptpSelect)

/-- A PTP message leaves: its type, sequence number and time. -/
def State.ptpSend (s : State) (type seq : Nat) (data : List Nat) : State :=
  s.emit (s.engMsg .ptp (if type < 8 then 319 else 320) type (seq :: data))

/-- PTP_DELAY_REQ_SEND (R498): a Delay_Req to the parent, or a Pdelay_Req with peer-to-peer delay. -/
def execPtpDelayReqSend (s : State) : Out :=
  let p2p := decide (s.fget fTIME_PTP_CTRL_DELAY = 1)
  .next (if !s.mgtRuns || !s.fbit fTIME_PTP_CTRL_EN || (!p2p && s.ptp.sync.isNone) then s
    else
      let q := s.ptp.seq
      (({ s with ptp := { s.ptp with req := some (q, s.lt16), resp := none, seq := (q + 1) % 65536 } }).fsat (fTIME_CNT_COUNT 3)).ptpSend
        (if p2p then 2 else 1) q [])

/-- PTP_DELAY_RESP (R498): the offset measurement from the latest Sync and the Delay_Req is complete; `t4` is the master's receipt. -/
def execPtpDelayResp (h : PtpHdr) (t4 : Int) (s : State) : Out :=
  s.onPtp h (fun t =>
    match t.ptp.req, t.ptp.sync with
    | some (q, t3), some (l, m) =>
      if (decide (t.fget fTIME_PTP_CTRL_DELAY = 0) && (t.fromParent h && decide (q = h.seq))) = true then
        let d := ((l - m) + (t4 * 65536 - h.corr - t3)) / 2
        (({ t with ptp := { t.ptp with req := none } }).ptpPath d).ptpMeasure l (m + d)
      else t.ptpBad
    | _, _ => t.ptpBad)

/-- PTP_PDELAY_REQ (R498): with peer-to-peer delay the port answers with Pdelay_Resp and its follow-up. -/
def execPtpPdelayReq (h : PtpHdr) (s : State) : Out :=
  s.onPtp h (fun t =>
    if t.fget fTIME_PTP_CTRL_DELAY ≠ 1 then t.ptpBad
    else ((t.fsat (fTIME_CNT_COUNT 4)).ptpSend 3 h.seq [t.lt.toNat]).ptpSend 10 h.seq [t.lt.toNat])

/-- PTP_PDELAY_RESP (R498): a Pdelay_Resp (`follow` false; with two steps its receipt time `tm`), or its follow-up with the time the
response left. With a Sync at hand the measurement is complete. -/
def execPtpPdelayResp (h : PtpHdr) (follow twoStep : Bool) (tm : Int) (s : State) : Out :=
  let finish (t : State) (d : Int) : State :=
    let t1 := ({ t with ptp := { t.ptp with req := none, resp := none } }).ptpPath d
    match t1.ptp.sync with
    | some (l, m) => t1.ptpMeasure l (m + d)
    | none => t1
  s.onPtp h (fun t =>
    match t.ptp.req with
    | none => t.ptpBad
    | some (q, t1) =>
      if t.fget fTIME_PTP_CTRL_DELAY ≠ 1 ∨ q ≠ h.seq then t.ptpBad
      else if follow then
        (match t.ptp.resp with
          | some (t2, t4, c) => finish t (((t4 - t1) - (tm * 65536 - t2) - c - h.corr) / 2)
          | none => t.ptpBad)
      else if twoStep then { t with ptp := { t.ptp with resp := some (tm * 65536, t.lt16, h.corr) } }
      else finish t (((t.lt16 - t1) - h.corr) / 2))

/-! ### The real-time clock -/

/-- TIME_RTC_SEC. -/
def State.rtcSec (s : State) : Nat := s.fget fTIME_RTC_SEC_LO_SEC + 2 ^ 32 * s.fget fTIME_RTC_SEC_HI_SEC

/-- The alarm fires where the count comes to it from below (R506); it is latched while management cannot see it. -/
def State.rtcAlarm (s : State) (old new : Nat) : State :=
  let a := s.fget fTIME_RTC_ALARM_LO_SEC + 2 ^ 32 * s.fget fTIME_RTC_ALARM_HI_SEC
  if (s.fbit fTIME_RTC_ALARM_HI_EN && (decide (old < a) && decide (a ≤ new))) = true then
    let s1 := s.fset fTIME_RTC_ALARM_HI_EN 0
    if s1.mgtRuns && !s1.fbit fTIME_RTC_STAT_ON_VBAT then s1.assertEv 704 else { s1 with rtcFired := true }
  else s

/-- An alarm latched is raised when management runs (R506). -/
def State.rtcTell (s : State) : State := if s.rtcFired then { s with rtcFired := false }.assertEv 704 else s

/-- Sets the count to `sec`, with FRAC 0. -/
def State.rtcSet (s : State) (sec : Nat) : State :=
  let old := s.rtcSec
  (((s.fset fTIME_RTC_SEC_LO_SEC (sec % 2 ^ 32)).fset fTIME_RTC_SEC_HI_SEC (sec / 2 ^ 32)).fset fTIME_RTC_FRAC_FRAC 0).rtcAlarm old (sec % 2 ^ 40)

/-- RTC_SECOND_TICK (R503, R505). -/
def execRtcSecondTick (s : State) : Out :=
  let s1 := s.rtcSet ((s.rtcSec + 1) % 2 ^ 40)
  let d := s1.fget fTIME_RTC_CTRL_DAYSEC + 1
  .next (if 86400 ≤ d then
    (s1.fset fTIME_RTC_CTRL_DAYSEC 0).fset fTIME_RTC_DAY_WEEKDAY ((s1.fget fTIME_RTC_DAY_WEEKDAY + 1) % 7)
  else s1.fset fTIME_RTC_CTRL_DAYSEC d)

/-- RTC_SYNC (R504): management sets the count at a wall second boundary; not during a hold, nor while the main die is in reset. -/
def execRtcSync (s : State) : Out :=
  .next (if (s.mgtRuns && (s.wall.hold.isNone && s.mgt.releasedAt.isSome)) = true then s.rtcSet s.wallSec else s)

/-- VBAT_SWITCH (R508): the domain's supply; `lost` tells that it fell below 1.80 V, so that the counters restart from 0. -/
def execVbatSwitch (vbat lost : Bool) (s : State) : Out :=
  let s1 := (s.fset fTIME_RTC_STAT_ON_VBAT (b2n vbat)).when vbat (fun t => t.fset fTIME_RTC_STAT_BAT_USED 1)
  .next (s1.when lost (fun t =>
    ((((t.fset fTIME_RTC_SEC_LO_SEC 0).fset fTIME_RTC_SEC_HI_SEC 0).fset fTIME_RTC_FRAC_FRAC 0).fset fTIME_RTC_CTRL_DAYSEC 0).fset
      fTIME_RTC_DAY_WEEKDAY 0 |>.fset fTIME_RTC_STAT_LOST 1))

/-- VBAT_MEASURE (R508): at a start and every hour. -/
def execVbatMeasure (mv : BitVec 12) (s : State) : Out :=
  let low := decide (mv.toNat < 2200)
  .next (if s.mgtRuns then
    (((s.fset fTIME_RTC_STAT_VBAT_MV mv.toNat).fset fTIME_RTC_STAT_VBAT_LOW (b2n low))).when low (fun t => t.assertEv 707)
  else s)

end Sys2Proof.Machine
end

