-- ==== Sys2Proof/Machine/Can.lean ====
section
/-! DEFINITION. The four CAN FD controllers (spec/17_service_bus.md R509 … R529). Fault confinement follows ISO 11898-1 where the
spec names the standard (log 24). -/

namespace Sys2Proof.Machine

/-- A controller's state beside its registers. -/
def State.canOf (s : State) (c : Nat) : CanSt := SMap.get can0 s.can c

/-- Sets a controller's state. -/
def State.setCan (s : State) (c : Nat) (v : CanSt) : State := { s with can := SMap.put can0 c v s.can }

/-- Modes of R513. -/
abbrev cmOff : Nat := 0
abbrev cmNormal : Nat := 1
abbrev cmListen : Nat := 2
abbrev cmRate : Nat := 3
abbrev cmLoop : Nat := 4

/-- Event kinds of R203. -/
abbrev ckRx : Nat := 0
abbrev ckOverrun : Nat := 1
abbrev ckTxDone : Nat := 2
abbrev ckTxAbort : Nat := 3
abbrev ckWarn : Nat := 4
abbrev ckPassive : Nat := 5
abbrev ckBusOff : Nat := 6
abbrev ckRate : Nat := 7

/-- The mode in force. -/
def State.canMode (s : State) (c : Nat) : Nat := s.fget (fCAN_STAT_MODE_CUR c)

/-- Raises kind `k` of controller `c`: source 576 + 8c + k, and its flag (R529). -/
def State.canEv (s : State) (c k : Nat) : State :=
  (s.setArrBit (rCAN_FLAGS c) k true).assertEv (576 + 8 * c + k)

/-- CAN_CNT counter `i`. -/
def State.canCnt (s : State) (c i : Nat) : State := s.fsat (fCAN_CNT_COUNT c i)

/-- CAN_RX_STAT as the FIFO stands. -/
def State.canRxStat (s : State) (c : Nat) : State :=
  (s.fset (fCAN_RX_STAT_LOCKED c) (b2n (s.canOf c).locked)).fset (fCAN_RX_STAT_FILL c) (s.canOf c).fifo.length

/-- Sets TEC and REC with the error state, WARN and their events (R528). REC stays within its eight bits. -/
def State.canErr (s : State) (c tec rec : Nat) : State :=
  let st0 := s.fget (fCAN_STAT_STATE c)
  let st := if 255 < tec then 2 else if 127 < tec ∨ 127 < rec then 1 else 0
  let warn0 := s.fbit (fCAN_STAT_WARN c)
  let warn := decide (96 ≤ tec) || decide (96 ≤ rec)
  let up := (decide (s.fget (fCAN_ERR_TEC c) < 96) && decide (96 ≤ tec)) || (decide (s.fget (fCAN_ERR_REC c) < 96) && decide (96 ≤ rec))
  let s1 := (((s.fset (fCAN_ERR_TEC c) (min tec 256)).fset (fCAN_ERR_REC c) (min rec 255)).fset (fCAN_STAT_STATE c) st).fset
    (fCAN_STAT_WARN c) (b2n warn)
  let s2 := s1.when (up || (warn && !warn0)) (fun t => t.canEv c ckWarn)
  let s3 := s2.when (decide (st = 1) && decide (st0 = 0)) (fun t => t.canEv c ckPassive)
  s3.when (decide (st = 2) && decide (st0 ≠ 2)) (fun t =>
    let t1 := (t.canEv c ckBusOff).canCnt c 4
    t1.setCan c { t1.canOf c with recovering := t1.fbit (fCAN_CTRL_AUTO_RECOVER c) })

/-- No frame of the controller's own is on the bus. -/
def State.canIdle (s : State) (c : Nat) : State :=
  ((s.fset (fCAN_TX_STAT_ON_BUS c) 0).fset (fCAN_TX_STAT_ACTIVE c) 0).fset (fCAN_STAT_TX_BUSY c) 0

/-- Whether buffer `b` is pending. -/
def State.canPend (s : State) (c b : Nat) : Bool := bitOf (s.fget (fCAN_TX_STAT_PEND c)) b

/-- Ends buffer `b`: sent (DONE, TX_DONE) or aborted (ABORTED, TX_ABORT) (R522). -/
def State.canEnd (s : State) (c b : Nat) (sent : Bool) : State :=
  let s1 := s.setArrBit (rCAN_TX_STAT c) b false
  let s2 := s1.setCan c { s1.canOf c with abort := (s1.canOf c).abort.filter (fun (x : Nat) => decide (x ≠ b)) }
  if sent then (s2.setArrBit (rCAN_TX_STAT c) (4 + b) true).canEv c ckTxDone
  else (s2.setArrBit (rCAN_TX_STAT c) (8 + b) true).canEv c ckTxAbort

/-- Whether buffer `b`'s frame is on the bus. -/
def State.canOnBus (s : State) (c b : Nat) : Bool := s.fbit (fCAN_TX_STAT_ON_BUS c) && decide (s.fget (fCAN_TX_STAT_ACTIVE c) = b)

/-- ABORT of buffer `b` (R523, R524): at once where its frame is not on the bus, else when the frame ends. -/
def State.canAbort (s : State) (c b : Nat) : State :=
  if !s.canPend c b then s
  else if s.canOnBus c b then s.setCan c { s.canOf c with abort := b :: (s.canOf c).abort.filter (fun (x : Nat) => decide (x ≠ b)) }
  else s.canEnd c b false

/-- A rate search starts or goes on with entry `e` (R518). -/
def State.canEntry (s : State) (c e : Nat) : State :=
  (s.fset (fCAN_RATE_STAT_ENTRY c) e).setCan c { s.canOf c with good := 0 }

/-- SEARCHING tells that MODE is RATE_DETECT. -/
def State.canSearching (s : State) (c : Nat) : State :=
  s.fset (fCAN_RATE_STAT_SEARCHING c) (b2n (decide (s.fget (fCAN_CTRL_MODE c) = cmRate)))

/-- CAN_MODE_APPLY (R514): at bus idle or intermission the mode written comes into force. With a frame of its own on the bus the
controller waits. -/
def execCanModeApply (cf : Fin 4) (s : State) : Out :=
  let c := cf.val
  let m := s.fget (fCAN_CTRL_MODE c)
  let old := s.canMode c
  .next (if s.mgt.down || decide (m = old) || s.fbit (fCAN_TX_STAT_ON_BUS c) then s
    else
      let s1 := s.fset (fCAN_STAT_MODE_CUR c) m
      if m = cmOff then
        let s2 := ((List.range 3).foldl (fun t b => t.when (t.canPend c b) (fun u => u.canEnd c b false)) s1)
        ((((s2.fset (fCAN_ERR_TEC c) 0).fset (fCAN_ERR_REC c) 0).fset (fCAN_STAT_STATE c) 0).fset (fCAN_STAT_WARN c) 0).fset
          (fCAN_STAT_SYNCED c) 0 |>.fset (fCAN_STAT_RX_BUSY c) 0 |>.setCan c { s2.canOf c with recovering := false, good := 0 }
      else if m = cmRate then (s1.fset (fCAN_RATE_STAT_FOUND c) 0).canEntry c 0
      else s1)

/-- CAN_INTEGRATED (R514): 11 recessive bits have been seen since the controller left OFF. -/
def execCanIntegrated (c : Fin 4) (s : State) : Out :=
  .next (if s.mgt.down || decide (s.canMode c = cmOff) then s else s.fset (fCAN_STAT_SYNCED c) 1)

/-- Data bytes that a DLC stands for (ISO 11898-1). -/
def dlcLen (fdf rtr : Bool) (dlc : Nat) : Nat :=
  if rtr then 0
  else if dlc ≤ 8 ∨ fdf = false then min dlc 8
  else if dlc = 9 then 12 else if dlc = 10 then 16 else if dlc = 11 then 20 else if dlc = 12 then 24
  else if dlc = 13 then 32 else if dlc = 14 then 48 else 64

/-- A transmit buffer as a frame. -/
def State.canTxFrame (s : State) (c b sof : Nat) : CanFrame :=
  { xtd := s.fbit (fCAN_TXB_ID_XTD c b), rtr := s.fbit (fCAN_TXB_ID_RTR c b), id := BitVec.ofNat 29 (s.fget (fCAN_TXB_ID_ID c b))
    fdf := s.fbit (fCAN_TXB_CTL_FDF c b), brs := s.fbit (fCAN_TXB_CTL_BRS c b), esi := decide (s.fget (fCAN_STAT_STATE c) = 1)
    dlc := ⟨s.fget (fCAN_TXB_CTL_DLC c b) % 16, by omega⟩
    data := (List.range 16).flatMap (fun j => leBytes 4 (s.reg (rCAN_TXB_DATA c b j)).toNat), sof := sof }

/-- Rank of a buffer in arbitration (R521): the base identifier, base before extended, the extension bits, data before remote,
the buffer number. -/
def State.canRank (s : State) (c b : Nat) : List Nat :=
  let x := s.fbit (fCAN_TXB_ID_XTD c b)
  let id := s.fget (fCAN_TXB_ID_ID c b)
  if x then [id / 2 ^ 18, 1, id % 2 ^ 18, b2n (s.fbit (fCAN_TXB_ID_RTR c b)), b]
  else [id % 2 ^ 11, 0, 0, b2n (s.fbit (fCAN_TXB_ID_RTR c b)), b]

/-- Lexicographic order of ranks. -/
def canBefore : List Nat → List Nat → Bool
  | a :: as, b :: bs => decide (a < b) || (decide (a = b) && canBefore as bs)
  | _, _ => false

/-- The pending buffer that the controller sends next (R521). -/
def State.canChoose (s : State) (c : Nat) : Option Nat :=
  let l := (List.range 3).filter (fun b => s.canPend c b)
  if s.fbit (fCAN_CTRL_TXORD c) then l.head?
  else l.foldl (fun (a : Option Nat) b => match a with
    | none => some b
    | some x => if canBefore (s.canRank c b) (s.canRank c x) then some b else some x) none

/-- Whether the controller takes part on the bus: integrated, and not bus off. -/
def State.canOn (s : State) (c : Nat) : Bool :=
  !s.mgt.down && (decide (s.canMode c ≠ cmOff) && (s.fbit (fCAN_STAT_SYNCED c) && decide (s.fget (fCAN_STAT_STATE c) ≠ 2)))

/-- Whether CANc_TX is held recessive (R511): OFF, LISTEN, RATE_DETECT, LOOPBACK, bus off, or management in reset. -/
def State.canTxRecessive (s : State) (c : Nat) : Bool :=
  s.mgt.down || decide (s.canMode c ≠ cmNormal) || decide (s.fget (fCAN_STAT_STATE c) = 2)

/-- CAN_ARBITRATION_START (R521): in NORMAL and LOOPBACK the chosen buffer's frame goes on the bus; a controller with nothing to send
receives. In LOOPBACK TX stays recessive. -/
def execCanArbitrationStart (cf : Fin 4) (s : State) : Out :=
  let c := cf.val
  let m := s.canMode c
  .next (if !s.canOn c || s.fbit (fCAN_TX_STAT_ON_BUS c) then s
    else match (if m = cmNormal ∨ m = cmLoop then s.canChoose c else none) with
      | none => if m = cmLoop then s else s.fset (fCAN_STAT_RX_BUSY c) 1
      | some b =>
        let s1 := ((s.fset (fCAN_TX_STAT_ON_BUS c) 1).fset (fCAN_TX_STAT_ACTIVE c) b).fset (fCAN_STAT_TX_BUSY c) 1
        let f := s.canTxFrame c b 0
        s1.when (decide (m = cmNormal)) (fun t => t.emit { medium := .can, dst := c, kind := b
                                                           data := [b2n f.xtd, b2n f.rtr, f.id.toNat, b2n f.fdf, b2n f.brs, b2n f.esi, f.dlc.val]
                                                             ++ (f.data.take (dlcLen f.fdf f.rtr f.dlc.val)).map (fun x => x.toNat) }))

/-- The words of a stored entry (R525). -/
def canWords (f : CanFrame) (seq : Nat) : List Nat :=
  let n := dlcLen f.fdf f.rtr f.dlc.val
  let d := f.data.take n ++ List.replicate (64 - (f.data.take n).length) 0
  [2 ^ 31 + b2n f.xtd * 2 ^ 30 + b2n f.rtr * 2 ^ 29 + (if f.xtd then f.id.toNat else f.id.toNat % 2 ^ 11),
    b2n f.fdf * 2 ^ 31 + b2n f.brs * 2 ^ 30 + b2n f.esi * 2 ^ 29 + seq % 256 * 2 ^ 8 + f.dlc.val, f.sof % 2 ^ 32, f.sof / 2 ^ 32 % 2 ^ 32]
    ++ (List.range 16).map (fun j => leAt d (4 * j) 4)

/-- Stores a frame, or loses it to a full FIFO (R525, R527). -/
def State.canStore (s : State) (c : Nat) (f : CanFrame) : State :=
  let v := s.canOf c
  if 32 ≤ v.fifo.length then (s.canCnt c 2).canEv c ckOverrun
  else
    let s1 := ((s.setCan c { v with fifo := v.fifo ++ [canWords f v.next], next := v.next + 1 }).canCnt c 0).canRxStat c
    s1.when v.fifo.isEmpty (fun t => t.canEv c ckRx)

/-- CAN_FRAME_SENT (R522, R523): the frame on the bus has ended without error. `delay` is the loop delay measured on it; an FD frame
with BRS takes it into MEASURED (R516). In LOOPBACK the frame is stored. -/
def execCanFrameSent (cf : Fin 4) (delay : BitVec 7) (sof : Nat) (s : State) : Out :=
  let c := cf.val
  let b := s.fget (fCAN_TX_STAT_ACTIVE c)
  .next (if s.mgt.down || !s.fbit (fCAN_TX_STAT_ON_BUS c) then s
    else
      let f := s.canTxFrame c b sof
      let s1 := (s.when (f.fdf && f.brs) (fun t => t.fset (fCAN_TDC_MEASURED c) delay.toNat)).canCnt c 1
      let s2 := (s1.canErr c (s1.fget (fCAN_ERR_TEC c) - 1) (s1.fget (fCAN_ERR_REC c))).canIdle c
      let s3 := s2.canEnd c b true
      s3.when (decide (s3.canMode c = cmLoop)) (fun t => t.canStore c f))

/-- A frame on the bus ends unsent: it stays pending, unless SINGLE_SHOT or a waiting ABORT ends it (R522, R523). -/
def State.canFailed (s : State) (c : Nat) : State :=
  let b := s.fget (fCAN_TX_STAT_ACTIVE c)
  let s1 := s.canIdle c
  s1.when (s1.fbit (fCAN_CTRL_SINGLE_SHOT c) || (s1.canOf c).abort.contains b) (fun t => t.canEnd c b false)

/-- CAN_ARBITRATION_LOST (R522): the controller becomes a receiver of the winning frame. -/
def execCanArbitrationLost (c : Fin 4) (s : State) : Out :=
  .next (if s.mgt.down || !s.fbit (fCAN_TX_STAT_ON_BUS c) then s
    else ((s.canCnt c 5).canFailed c).fset (fCAN_STAT_RX_BUSY c) 1)

/-- A valid frame of a rate search (R518): the CONFIRM-th in a row finds the rate. -/
def State.canGood (s : State) (c : Nat) : State :=
  let n := (s.canOf c).good + 1
  let e := s.fget (fCAN_RATE_STAT_ENTRY c)
  if n < s.fget (fCAN_RATE_CFG_CONFIRM c) then s.setCan c { s.canOf c with good := n }
  else
    let s1 := (s.setReg (rCAN_NBT c) (s.reg (rCAN_RATE_NBT c e))).setReg (rCAN_DBT c) (s.reg (rCAN_RATE_DBT c e))
    let s2 := ((s1.fset (fCAN_RATE_STAT_FOUND c) 1).fset (fCAN_CTRL_MODE c) cmListen).fset (fCAN_STAT_MODE_CUR c) cmListen
    ((s2.setCan c { s2.canOf c with good := 0 }).canSearching c).canEv c ckRate

/-- REC after a frame received without error (ISO 11898-1): one less, and from above 127 a value 119 … 127 that the standard leaves to
the controller (log 10). -/
def State.canGoodRec (s : State) (c : Nat) : State :=
  let r := s.fget (fCAN_ERR_REC c)
  if 127 < r then
    let x := s.freeW
    x.2.canErr c (s.fget (fCAN_ERR_TEC c)) (119 + x.1.toNat % 9)
  else s.canErr c (s.fget (fCAN_ERR_TEC c)) (r - 1)

/-- CAN_FRAME_RECEIVED (R518, R525): a valid frame from another node. -/
def execCanFrameReceived (cf : Fin 4) (f : CanFrame) (s : State) : Out :=
  let c := cf.val
  let m := s.canMode c
  .next (if !s.canOn c || decide (m = cmLoop) then s
    else
      let s1 := s.fset (fCAN_STAT_RX_BUSY c) 0
      if m = cmRate then s1.canGood c
      else if m = cmNormal then (s1.canGoodRec c).canStore c f
      else s1.canStore c f)

/-- CAN_ERR.LEC of an error. -/
def lecCode : CanLec → Nat
  | .stuff => 1
  | .form => 2
  | .ack => 3
  | .bitRecessive => 4
  | .bitDominant => 5
  | .crc => 6

/-- CAN_BUS_ERROR (R522, R528): LEC and DATA_PHASE, the count of errors, TEC or REC in NORMAL, and the frame on the bus. In LISTEN and
RATE_DETECT the counters do not change (R513); a search counts its valid frames anew (R518). -/
def execCanBusError (cf : Fin 4) (lec : CanLec) (dp : Bool) (why : CanWhy) (s : State) : Out :=
  let c := cf.val
  .next (if !s.canOn c then s
    else
      let tx := s.fbit (fCAN_TX_STAT_ON_BUS c)
      let s1 := (((s.fset (fCAN_ERR_LEC c) (lecCode lec)).fset (fCAN_ERR_DATA_PHASE c) (b2n dp)).canCnt c 3).fset (fCAN_STAT_RX_BUSY c) 0
      let t0 := s1.fget (fCAN_ERR_TEC c)
      let r0 := s1.fget (fCAN_ERR_REC c)
      let up := match why with | .flag => if tx then 8 else 1 | .dominant => 8 | .exempt => 0
      let counts := decide (s1.canMode c = cmNormal) || decide (s1.canMode c = cmLoop)
      let s2 := s1.when counts (fun t => if tx then t.canErr c (t0 + up) r0 else t.canErr c t0 (r0 + up))
      let s3 := s2.when (decide (s2.canMode c = cmRate)) (fun t => t.setCan c { t.canOf c with good := 0 })
      s3.when tx (fun t => t.canFailed c))

/-- RECOVER written (R528): ignored when not bus off. -/
def State.canRecover (s : State) (c : Nat) : State :=
  if s.fget (fCAN_STAT_STATE c) = 2 then s.setCan c { s.canOf c with recovering := true } else s

/-- CAN_RECOVERY_DONE (R528): 128 sequences of 11 recessive bits since the recovery began. -/
def execCanRecoveryDone (cf : Fin 4) (s : State) : Out :=
  let c := cf.val
  .next (if s.mgt.down || !(s.canOf c).recovering then s
    else
      let s1 := (((s.fset (fCAN_ERR_TEC c) 0).fset (fCAN_ERR_REC c) 0).fset (fCAN_STAT_STATE c) 0).fset (fCAN_STAT_WARN c) 0
      s1.setCan c { s1.canOf c with recovering := false })

/-- CAN_RATE_DWELL_END (R518): the next entry is tried; after the last the search starts again and PASSES increments. -/
def execCanRateDwellEnd (cf : Fin 4) (s : State) : Out :=
  let c := cf.val
  let e := s.fget (fCAN_RATE_STAT_ENTRY c) + 1
  .next (if s.mgt.down || decide (s.canMode c ≠ cmRate) then s
    else if e < s.fget (fCAN_RATE_CFG_COUNT c) then s.canEntry c e
    else (s.fsat (fCAN_RATE_STAT_PASSES c)).canEntry c 0)

/-- A read of CAN_RX[c][w] under the lock rules of R526. -/
def State.canRead (s : State) (c w : Nat) : Word × State :=
  let v := s.canOf c
  let at' (l : List Nat) : Word := BitVec.ofNat 32 (l.getD w 0)
  if w = 0 then
    if v.locked then (at' v.shown, s)
    else match v.fifo with
      | [] => (0, s)
      | e :: _ => (at' e, (s.setCan c { v with locked := true, shown := e }).canRxStat c)
  else if w = 19 ∧ v.locked = true then
    let s1 := (s.setCan c { v with locked := false, fifo := v.fifo.drop 1 }).canRxStat c
    (at' v.shown, s1.when (!(s1.canOf c).fifo.isEmpty) (fun t => t.canEv c ckRx))
  else (at' v.shown, s)

/-- A reset of the controllers (R512). -/
def State.canReset (s : State) : State :=
  { s with can := [], regs := SMap.clearRange (rCAN_CTRL 0) (rCAN_CTRL 0 + 0x10000) s.regs }

/-! ### Register rules -/

/-- Nominal bit lengths and quanta of a timing word: BRP, TSEG1, TSEG2, SJW, each one more than its field. -/
def canBit (brp t1 t2 : Nat) : Nat × Nat := ((brp + 1) * (3 + t1 + t2), 3 + t1 + t2)

/-- R515 for a nominal and a data timing word. -/
def canTimingOk (nbt dbt : Nat) : Bool :=
  let n := canBit (bitsOf nbt 7 0) (bitsOf nbt 15 8) (bitsOf nbt 22 16)
  let d := canBit (bitsOf dbt 4 0) (bitsOf dbt 12 8) (bitsOf dbt 19 16)
  decide (bitsOf nbt 30 24 ≤ bitsOf nbt 22 16) && decide (bitsOf dbt 27 24 ≤ bitsOf dbt 19 16)
    && (decide (80 ≤ n.1) && decide (8 ≤ n.2)) && (decide (10 ≤ d.1) && decide (5 ≤ d.2)) && decide (d.1 ≤ n.1)

/-- Whether a REQ of buffer `b` is permitted (R520). -/
def State.canReqOk (s : State) (c b : Nat) : Bool :=
  let fdf := s.fbit (fCAN_TXB_CTL_FDF c b)
  let brs := s.fbit (fCAN_TXB_CTL_BRS c b)
  !(s.fbit (fCAN_TXB_ID_RTR c b) && fdf) && !(brs && !fdf) && !(fdf && !s.fbit (fCAN_CTRL_FD_EN c))
    && (fdf || decide (s.fget (fCAN_TXB_CTL_DLC c b) ≤ 8))

end Sys2Proof.Machine
end

