-- ==== Sys2Proof/Machine/Cask.lean ====
section
/-! DEFINITION. The cask: its bytes, wear-spread counters, commit buffer and passwords, and the option block (spec/20_reset_watchdog_cask.md R597 … R613). -/

namespace Sys2Proof.Machine

/-- The first bytes of the factory option block (R598): MAGIC, VERSION, SEQ 0 and the defaults to WDT_PERIOD. -/
def optHead : List Byte :=
  leBytes 4 0x0B700001 ++ leBytes 2 1 ++ leBytes 2 0 ++ leBytes 4 0 ++ leBytes 1 0 ++ leBytes 1 3 ++ leBytes 2 60
    ++ leBytes 2 1000 ++ leBytes 2 0 ++ leBytes 4 10000

/-- Byte `o` of the factory option block: every other field 0, and its CRC. -/
def optFactory (o : Nat) : Byte :=
  if o < 0x18 then optHead.getD o 0 else if 0x7FC ≤ o then (leBytes 4 0x421121BB).getD (o - 0x7FC) 0 else 0

/-- What an unlisted byte of the cask reads as: both copies of the option block hold the factory contents (R598); the rest is 0
(log 9). -/
def cask0 : Nat → Byte := fun a => if a < 0x1000 then optFactory (a % 0x800) else 0

/-- `n` bytes of the cask as stored. -/
def State.caskList (s : State) (a n : Nat) : List Byte := (List.range n).map (fun i => SMap.get cask0 s.cask (a + i))

/-- Writes bytes of the cask. -/
def State.caskPut (s : State) (l : List (Nat × Byte)) : State :=
  { s with cask := l.foldl (fun c e => SMap.put cask0 e.1 e.2 c) s.cask }

/-- Bytes from address `a` upwards, each with its address. -/
def addrBytes (a : Nat) (l : List Byte) : List (Nat × Byte) := l.zipIdx.map (fun e => (a + e.2, e.1))

/-- Address of the wear-spread counter of 1 KB block `b` (R604, R608). -/
def wearAddr (b : Nat) : Nat := 0x281000 + 4 * b

/-- The wear-spread counter of block `b`. -/
def State.wear (s : State) (b : Nat) : Nat := ofLE (s.caskList (wearAddr b) 4)

/-- Counts a commit that wrote block `b` (R608). -/
def State.wearInc (s : State) (b : Nat) : State :=
  let v := s.wear b
  if 0xFFFFFFFF ≤ v then s
  else
    (s.caskPut (addrBytes (wearAddr b) (leBytes 4 (v + 1)))).when (decide (v + 1 = 0xFFFFFFFF)) (fun t =>
      (t.fset fCASK_STAT_SATURATED 1).fset fCASK_WEAR_STAT_SATURATED (t.fget fCASK_WEAR_STAT_SATURATED + 1))

/-- The 1 KB blocks that the addresses lie in, each once. -/
def blocksOf (l : List (Nat × Byte)) : List Nat :=
  l.foldl (fun bs e => if bs.contains (e.1 / 1024) then bs else bs ++ [e.1 / 1024]) []

/-- One cask commit (R606 … R608). -/
def State.caskCommit (s : State) (l : List (Nat × Byte)) : State :=
  (blocksOf l).foldl (fun t b => t.wearInc b) (s.caskPut l)

/-- One cask commit of bytes from address `a` upwards. -/
def State.caskWrite (s : State) (a : Nat) (l : List Byte) : State := s.caskCommit (addrBytes a l)

/-- Byte address at which region `r` starts, and its bytes (R604). -/
def regionAt (r : Nat) : Nat × Nat := (4096 * (caskRegion r).1, 4096 * (caskRegion r).2)

/-- The region of a cask address; the regions fill the 16 MB. -/
def regionOf (a : Nat) : Nat :=
  ((List.range 16).find? (fun r => decide (a < (regionAt r).1 + (regionAt r).2))).getD 15

/-- A region's password for reads or writes; 0 is none (R598). -/
def State.caskPw (s : State) (r : Nat) (write : Bool) : Nat :=
  let e := s.opt.pw.getD r (0, 0)
  if write then e.2 else e.1

/-- Whether master `m` may access region `r` (R610). -/
def State.caskMay (s : State) (r : Nat) (write : Bool) (m : Nat) : Bool :=
  decide (s.caskPw r write = 0) || s.ck.unlocks.contains { region := r, write := write, master := m }

/-- Whether a cask address holds password bytes of an option block copy. -/
def pwByte (a : Nat) : Bool := decide (a < 0x1000) && (decide (0x210 ≤ a % 0x800) && decide (a % 0x800 < 0x310))

/-- Bytes of the cask as a permitted reader sees them: passwords read 0xFF (R604). -/
def State.caskShown (s : State) (a n : Nat) : List Byte :=
  (s.caskList a n).zipIdx.map (fun e => if pwByte (a + e.2) then 0xFF else e.1)

/-- A window read by master `m` (R610): without the unlock it returns 0 and sets PW_READ. -/
def State.caskRead (s : State) (m a n : Nat) : List Byte × State :=
  if s.caskMay (regionOf a) false m then (s.caskShown a n, s) else (List.replicate n 0, s.fset fCASK_STAT_PW_READ 1)

/-- Distinct bytes in the commit buffer. -/
def State.bufBytes (s : State) : State := s.fset fCASK_STAT_BUF_BYTES s.ck.buf.length

/-- Puts bytes into the commit buffer (R606). -/
def State.bufPut (s : State) (l : List (Nat × Byte)) : State :=
  { s with ck := { s.ck with buf := l.foldl (fun b (e : Nat × Byte) => SMap.put (fun _ => none) e.1 (some e.2) b) s.ck.buf } }.bufBytes

/-- Whether the bytes take the commit buffer past 65,536 distinct bytes. -/
def State.bufOver (s : State) (l : List (Nat × Byte)) : Bool :=
  decide (65536 < ((s.bufPut l).ck.buf).length)

/-- Gathers bytes that may be written into the commit buffer (R606): held while a commit runs; dropped with reason STATE where the
buffer has no room. `none` where they are taken. -/
def State.caskGather (s : State) (l : List (Nat × Byte)) : Option Nat × State :=
  if s.fbit fCASK_STAT_BUSY then (none, { s with ck := { s.ck with held := s.ck.held ++ l } })
  else if s.bufOver l then (some 7, s.fset fCASK_STAT_BUF_FULL 1)
  else (none, s.bufPut l)

/-- A window write by master `m` (R604, R606, R610): the reason it is dropped with, if it is. -/
def State.caskWinWrite (s : State) (m a : Nat) (l : List Byte) : Option Nat × State :=
  let r := regionOf a
  if r < 6 then (some 6, s)
  else if !s.caskMay r true m then (some 4, s)
  else s.caskGather (addrBytes a l)

/-- The commit buffer is committed (R606): an empty one ends at once with EMPTY. -/
def State.caskStart (s : State) : State :=
  if s.fbit fCASK_STAT_BUSY then s
  else if s.ck.buf.isEmpty then (s.fset fCASK_COMMIT_RESULT_RESULT 2).fset fCASK_COMMIT_RESULT_BYTES 0
  else s.fset fCASK_STAT_BUSY 1

/-- DISCARD empties the buffer. -/
def State.caskDiscard (s : State) : State := { s with ck := { s.ck with buf := [] } }.bufBytes

/-- The bytes of the commit buffer in ascending address order. -/
def State.bufList (s : State) : List (Nat × Byte) := s.ck.buf.filterMap (fun e => e.2.map (fun b => (e.1, b)))

/-- A host commit ends (R606, R608): `ok` tells whether it verified. The buffer empties and the writes held meanwhile enter it. -/
def State.caskDone (s : State) (ok : Bool) : State :=
  if !s.fbit fCASK_STAT_BUSY then s
  else
    let l := s.bufList
    let s1 := (s.caskCommit l).fset fCASK_STAT_BUSY 0
    let s2 := (s1.fset fCASK_COMMIT_RESULT_RESULT (if ok then 1 else 3)).fset fCASK_COMMIT_RESULT_BYTES l.length
    let h := s2.ck.held
    let s3 := { s2.fsat fCASK_CNT_COMMIT_COUNT with ck := { s2.ck with buf := [], held := [] } }.bufBytes
    if s3.bufOver h then s3.fset fCASK_STAT_BUF_FULL 1 else s3.bufPut h

/-- A password given by master `m` for region `r` (R610): an unlock, the ninth replacing the oldest; or BAD_PW, a cellar book
record, and every attempt on the region refused for 1 s. -/
def State.caskUnlock (s : State) (m r : Nat) (write : Bool) (pw : Nat) : State :=
  if s.lt.toNat < SMap.get (fun _ => 0) s.ck.refused r then s
  else if s.caskPw r write = pw then
    let u : Unlock := { region := r, write := write, master := m }
    let l := (s.ck.unlocks.filter (fun e => decide (e ≠ u))) ++ [u]
    { s with ck := { s.ck with unlocks := l.drop (l.length - 8) } }
  else
    let s1 := { s.fset fCASK_STAT_BAD_PW 1 with
      ck := { s.ck with refused := SMap.put (fun _ => 0) r (s.lt.toNat + 1000000000) s.ck.refused } }
    s1.cellarAs 0x0004 m rCASK_PW_HI 0 0xF 16

/-- CASK_LOCK drops unlocks of the writing master (R610). -/
def State.caskLock (s : State) (m v : Nat) : State :=
  { s with ck := { s.ck with unlocks := s.ck.unlocks.filter (fun u =>
      !(decide (u.master = m) && bitOf v (u.region + (if u.write then 16 else 0)))) } }

/-- CASK_UNLOCKED of a reading master. -/
def State.caskUnlocked (s : State) (m : Nat) : Nat :=
  (s.ck.unlocks.filter (fun u => decide (u.master = m))).foldl (fun a u => a + 2 ^ (u.region + (if u.write then 16 else 0))) 0

/-! ### The option block -/

/-- Whether every byte of a range of a list is 0. -/
def zerosAt (l : List Byte) (i n : Nat) : Bool := ((l.drop i).take n).all (fun b => decide (b = 0))

/-- A retain list entry of a copy (R598): address and bytes. -/
def retainAt (l : List Byte) (i : Nat) : Nat × Nat := (leAt l (0x110 + 8 * i) 4, leAt l (0x114 + 8 * i) 4)

/-- The retain list of a copy. -/
def retainOf (l : List Byte) : List (Nat × Nat) := (List.range (leAt l 0x100 2)).map (retainAt l)

/-- Whether a range is one that may be retained (R613). -/
def retainRange (e : Nat × Nat) : Bool :=
  decide (0x2000000 ≤ e.1) && (decide (e.1 ≤ 0x39FFFFF) && (decide (e.1 % 16 = 0) && (decide (e.2 % 16 = 0)
    && (decide (16 ≤ e.2) && decide (e.1 + e.2 ≤ 0x3A00000)))))

/-- Whether no two ranges overlap. -/
def retainApart : List (Nat × Nat) → Bool
  | [] => true
  | e :: l => l.all (fun f => decide (e.1 + e.2 ≤ f.1) || decide (f.1 + f.2 ≤ e.1)) && retainApart l

/-- Whether a retain list is valid (R613). -/
def retainOk (l : List (Nat × Nat)) : Bool :=
  l.all retainRange && (retainApart l && decide (l.foldl (fun a e => a + e.2) 0 ≤ 10481664))

/-- Whether every field of a copy but its retain list, CRC and signature lies in its range (R598). -/
def optFieldsOk (l : List Byte) : Bool :=
  zerosAt l 0x006 2 && (decide (leAt l 0x00C 1 ≤ 1) && (decide (1 ≤ leAt l 0x00D 1) && (decide (leAt l 0x00D 1 ≤ 15)
    && (decide (10 ≤ leAt l 0x00E 2) && (decide (leAt l 0x00E 2 ≤ 3600) && (decide (100 ≤ leAt l 0x010 2)
    && (decide (leAt l 0x010 2 ≤ 10000) && (decide (leAt l 0x012 1 ≤ 3) && (zerosAt l 0x013 1
    && (decide (100 ≤ leAt l 0x014 4) && (decide (leAt l 0x014 4 ≤ 1000000) && (zerosAt l 0x01C 228
    && (decide (leAt l 0x100 2 ≤ 32) && (zerosAt l 0x102 14 && zerosAt l 0x310 1260))))))))))))))

/-- Whether a copy's retain list is valid, and its entries beyond RETAIN_COUNT are 0. -/
def optRetainOk (l : List Byte) : Bool :=
  let n := min 32 (leAt l 0x100 2)
  retainOk ((List.range n).map (retainAt l)) && zerosAt l (0x110 + 8 * n) (256 - 8 * n)

/-- Whether a copy is valid (R597). -/
def optValid (l : List Byte) : Bool :=
  decide (leAt l 0 4 = 0x0B700001) && (decide (leAt l 4 2 = 1) && (decide (leAt l 0x7FC 4 = crc32 (l.take 0x7FC))
    && (optFieldsOk l && optRetainOk l)))

/-- The fields of a valid copy. -/
def optParse (l : List Byte) : OptBlock :=
  { autoStart := decide (leAt l 0x00C 1 = 1), failLimit := leAt l 0x00D 1, startOkS := leAt l 0x00E 2
    listenMs := leAt l 0x010 2, warmEn := bitOf (leAt l 0x012 1) 0, flushOnReset := bitOf (leAt l 0x012 1) 1
    wdtPeriod := leAt l 0x014 4, subsysVid := leAt l 0x018 2, subsysId := leAt l 0x01A 2, retain := retainOf l
    pw := (List.range 16).map (fun r => (leAt l (0x210 + 16 * r) 8, leAt l (0x218 + 16 * r) 8)) }

/-- Copy `i` of the option block as stored. -/
def State.optCopy (s : State) (i : Nat) : List Byte := s.caskList (0x800 * i) 0x800

/-- The copy in use (RST_OPT.SRC); the factory contents where the defaults apply. -/
def State.optInUse (s : State) : List Byte :=
  let c := s.fget fRST_OPT_SRC
  if c < 2 then s.optCopy c else (List.range 0x800).map optFactory

/-- The staging buffer takes the copy in use, its password bytes 0xFF (R599). -/
def State.optReload (s : State) : State :=
  let l := s.optInUse.zipIdx.map (fun e => if pwByte e.2 then 0xFF else e.1)
  (List.range 512).foldl (fun t j => t.setReg (rCASK_OPT_BUF j) (BitVec.ofNat 32 (leAt l (4 * j) 4))) s

/-- The option block's fields come into force (R597, R598): the registers that show them. -/
def State.optForce (s : State) (o : OptBlock) : State :=
  let s1 := { s with opt := o }
  let s2 := (s1.fset fRST_START_LIMIT o.failLimit).fset fWDT_CFG_PERIOD o.wdtPeriod
  (List.range 16).foldl (fun t r =>
    let e := o.pw.getD r (0, 0)
    (t.fset (fCASK_REGION_RPW r) (b2n (decide (e.1 ≠ 0)))).fset (fCASK_REGION_WPW r) (b2n (decide (e.2 ≠ 0)))) s2

/-- Step 1 of a start (R597): the valid copy with the newer SEQ is used and repairs the other; with none, a critical-state
error and the defaults. Answers whether a copy was valid. -/
def State.optLoad (s : State) : Bool × State :=
  let c0 := s.optCopy 0
  let c1 := s.optCopy 1
  let v0 := optValid c0
  let v1 := optValid c1
  let src := if v0 && v1 then (if newerN 32 (leAt c1 8 4) (leAt c0 8 4) then 1 else 0) else if v0 then 0 else if v1 then 1 else 2
  let s1 := ((s.fset fRST_OPT_COPY0_OK (b2n v0)).fset fRST_OPT_COPY1_OK (b2n v1)).fset fRST_OPT_SRC src
  if src = 2 then (false, (((s1.fset fRST_OPT_SEQ 0).integCrit 6 1).optForce {}).optReload)
  else
    let c := if src = 0 then c0 else c1
    let s2 := s1.fset fRST_OPT_SEQ (leAt c 8 4)
    let s3 := s2.when (!(v0 && v1)) (fun t => (t.caskWrite (0x800 * (1 - src)) c).integCorr)
    (true, (s3.optForce (optParse c)).optReload)

/-- The staging buffer's bytes. -/
def State.optBuf (s : State) : List Byte := (List.range 512).flatMap (fun j => leBytes 4 (s.reg (rCASK_OPT_BUF j)).toNat)

/-- The copy that a commit would write (R599): the staged fields, passwords staged as eight 0xFF bytes kept, signature, SEQ one
newer than the newer valid copy, and the CRC. -/
def State.optStaged (s : State) : List Byte :=
  let b := s.optBuf
  let seqs := [0, 1].filterMap (fun i => let c := s.optCopy i; if optValid c then some (leAt c 8 4) else none)
  let seq := seqs.foldl (fun a q => if newerN 32 q a then q else a) (seqs.headD 0)
  let pws := (List.range 32).flatMap (fun i =>
    let w := (b.drop (0x210 + 8 * i)).take 8
    if w.all (fun x => decide (x = 0xFF)) then leBytes 8 (s.caskPw (i / 2) (decide (i % 2 = 1))) else w)
  let l := leBytes 4 0x0B700001 ++ leBytes 2 1 ++ (b.drop 6).take 2 ++ leBytes 4 ((seq + 1) % 2 ^ 32)
    ++ (b.drop 0x00C).take (0x210 - 0x00C) ++ pws ++ (b.drop 0x310).take 1260
  l ++ leBytes 4 (crc32 l)

/-- CASK_OPT_CMD.COMMIT by master `m` (R599): what its checks find, or the cask write of the copy not in use, which CASK_COMMIT_DONE ends. -/
def State.optCommit (s : State) (m : Nat) : State :=
  let res (v : Nat) : State := s.fset fCASK_OPT_STAT_RESULT v
  if !s.caskMay 0 true m then res 4
  else
    let l := s.optStaged
    if !optFieldsOk l then res 2
    else if !optRetainOk l then res 3
    else
      let s1 := s.caskWrite (if s.fget fRST_OPT_SRC = 0 then 0x800 else 0) l
      { s1.fset fCASK_OPT_STAT_BUSY 1 with ck := { s1.ck with optFirst := !s1.fbit fCASK_STAT_BUSY } }

/-- An option block commit ends: `ok` tells whether the write verified. -/
def State.optDone (s : State) (ok : Bool) : State :=
  (s.fset fCASK_OPT_STAT_BUSY 0).fset fCASK_OPT_STAT_RESULT (if ok then 1 else 5)

/-- The oldest commit in progress ends (R606). -/
def State.commitDone (s : State) (ok : Bool) : State :=
  if s.fbit fCASK_OPT_STAT_BUSY && (s.ck.optFirst || !s.fbit fCASK_STAT_BUSY) then s.optDone ok else s.caskDone ok

end Sys2Proof.Machine
end

