-- ==== Sys2Proof/Machine/Cellar.lean ====
section
/-! DEFINITION. The cellar book: intake, first faults, freeze, selection, commits to the cask and restore (spec/19_management.md R574 … R583). -/

namespace Sys2Proof.Machine

/-- Slots of the ring and of its copy in the cask. -/
abbrev ringSize : Nat := 65536
abbrev keptRing : Nat := 64384

/-- Where the cask keeps the book: header, first faults, ring (R582). -/
abbrev cbHeader : Nat := 0x81000
abbrev cbFfAt : Nat := 0x82000
abbrev cbRingAt : Nat := 0x8A000

/-- A slot that holds no record. -/
def noRec : Nat → List Byte := fun _ => []

/-- A record's 32 bytes with index `i` (R575, R576); `ff` tells that the first-fault region took it too. -/
def recBytes (r : CellarRec) (i : Nat) (ff : Bool) : List Byte :=
  leBytes 2 r.code ++ leBytes 2 (r.src % 1024 + (r.flags + b2n ff) * 1024) ++ leBytes 8 r.lt.toNat ++ leBytes 5 r.wallSec
    ++ leBytes 1 r.wallEpoch ++ leBytes 4 r.p0 ++ leBytes 4 r.p1 ++ leBytes 4 r.p2 ++ leBytes 2 i

/-- Next index. -/
def State.cbHead (s : State) : Nat := s.fget fMGT_CB_HEAD_COUNT

/-- Stores a record (R578): it takes the next index, and the first-fault region too until that holds 1,024. -/
def State.cbStore (s : State) (r : CellarRec) : State :=
  let i := s.cbHead
  let n := s.fget fMGT_CB_STAT_FF_COUNT
  let ff := decide (n < 1024)
  let b := recBytes r i ff
  let s1 := { s with cb := { s.cb with ring := SMap.put noRec (i % ringSize) b s.cb.ring } }.fset fMGT_CB_HEAD_COUNT (i + 1)
  if ff then
    let s2 := { s1 with cb := { s1.cb with ff := SMap.put noRec n b s1.cb.ff } }.fset fMGT_CB_STAT_FF_COUNT (n + 1)
    s2.when (decide (n + 1 = 1024)) (fun t => (t.fset fMGT_CB_STAT_FF_FULL 1).assertEv 712)
  else s1

/-- The first record stored after a loss is a CB_LOST record (R579). -/
def State.cbTell (s : State) : State :=
  if s.cb.untold = 0 then s
  else ({ s with cb := { s.cb with untold := 0 } }).cbStore (s.mkRec 0x0025 mMgt s.cb.untold 0 0 0)

/-- The intake takes one waiting record (R579, R580): while frozen it only counts it. -/
def State.cbTake (s : State) (r : CellarRec) : State :=
  if s.fbit fMGT_CB_STAT_FROZEN then s.fsat fMGT_CB_FROZEN_COUNT else s.cbTell.cbStore r

/-- CELLAR_INTAKE (R578): the oldest waiting record is stored; nothing while management restarts. -/
def execCellarIntake (s : State) : Out :=
  .next (if s.mgt.down then s
    else match s.cellarQ with
      | [] => s
      | r :: q => { s with cellarQ := q }.cbTake r)

/-- A freeze (R580): waiting records are stored first, then a CB_FREEZE record; a freeze in force is not changed. -/
def State.cbFreeze (s : State) : State :=
  if s.fbit fMGT_CB_STAT_FROZEN then s
  else
    let s1 := s.cellarQ.foldl (fun t r => t.cbTake r) { s with cellarQ := [] }
    let s2 := s1.cbStore (s1.mkRec 0x0026 mMgt s1.cbHead 0 0 0)
    let s3 := ((s2.fset fMGT_CB_STAT_FROZEN 1).fset fMGT_CB_CTRL_FREEZE 1).fset fMGT_CB_FROZEN_COUNT 0
    { s3 with cb := { s3.cb with frozenAt := s3.lt.toNat } }

/-- A freeze ends (R580): the records that wait count as frozen, and a CB_UNFREEZE record is stored first. -/
def State.cbUnfreeze (s : State) : State :=
  if !s.fbit fMGT_CB_STAT_FROZEN then s
  else
    let s1 := { s with cellarQ := [] }.fsatN fMGT_CB_FROZEN_COUNT s.cellarQ.length
    let s2 := (s1.fset fMGT_CB_STAT_FROZEN 0).fset fMGT_CB_CTRL_FREEZE 0
    s2.cbStore (s2.mkRec 0x0027 mMgt (s2.fget fMGT_CB_FROZEN_COUNT) 0 0 0)

/-- FREEZE_MAX_EXPIRY (R580). -/
def execFreezeMaxExpiry (s : State) : Out :=
  .next (if s.cb.frozenAt + 1000000000 * s.fget fMGT_CB_CFG_FREEZE_MAX ≤ s.lt.toNat then s.cbUnfreeze else s)

/-- FF_CLEAR empties the first-fault region (R578). -/
def State.cbFfClear (s : State) : State :=
  ({ s with cb := { s.cb with ff := [], savedFf := 0 } }.fset fMGT_CB_STAT_FF_COUNT 0).fset fMGT_CB_STAT_FF_FULL 0

/-- The record at an index of the ring (false) or the first-fault region, if it is held (R581). -/
def State.cbRecord (s : State) (ffRegion : Bool) (i : Nat) : Option (List Byte) :=
  let b :=
    if ffRegion then (if i < s.fget fMGT_CB_STAT_FF_COUNT then SMap.get noRec s.cb.ff i else [])
    else if (s.cbHead + 2 ^ 32 - 1 - i % 2 ^ 32) % 2 ^ 32 < ringSize then SMap.get noRec s.cb.ring (i % ringSize) else []
  if b.isEmpty then none else some b

/-- A write to MGT_CB_IDX copies the selected record (R581). -/
def State.cbSelect (s : State) (i : Nat) : State :=
  let q := s.cbRecord (s.fbit fMGT_CB_SELSTAT_REGION) i
  let b := q.getD (List.replicate 32 0)
  let s1 := (s.fset fMGT_CB_IDX_INDEX i).fset fMGT_CB_SELSTAT_VALID (b2n q.isSome)
  (List.range 8).foldl (fun t w => t.setReg (rMGT_CB_REC w) (BitVec.ofNat 32 (leAt b (4 * w) 4))) s1

/-- Whether stored records wait for a commit. -/
def State.cbWaiting (s : State) : Bool :=
  decide (s.cb.saved ≠ s.cbHead) || decide (s.cb.savedFf ≠ s.fget fMGT_CB_STAT_FF_COUNT)

/-- The new records, then the header, reach cask region 2 in one commit (R582). -/
def State.cbCommit (s : State) : State :=
  if !s.cbWaiting then s
  else
    let h := s.cbHead
    let n := (h + 2 ^ 32 - s.cb.saved) % 2 ^ 32
    let k := min n keptRing
    let ring := (List.range k).flatMap (fun j =>
      let i := (h + 2 ^ 32 - k + j) % 2 ^ 32
      addrBytes (cbRingAt + 32 * (i % keptRing)) (SMap.get noRec s.cb.ring (i % ringSize)))
    let c := s.fget fMGT_CB_STAT_FF_COUNT
    let ff := (List.range (c - s.cb.savedFf)).flatMap (fun j =>
      addrBytes (cbFfAt + 32 * (s.cb.savedFf + j)) (SMap.get noRec s.cb.ff (s.cb.savedFf + j)))
    let hdr := addrBytes cbHeader (leBytes 4 0xCE110001 ++ leBytes 4 h ++ leBytes 4 c)
    { s.caskCommit (ring ++ ff ++ hdr) with cb := { s.cb with saved := h, savedFf := c } }

/-- Whether a commit is due (R582): 2,048 records wait, or PERSIST_MS have passed since the oldest of them. A line time that has started
again since then tells nothing of its age, and the commit runs. -/
def State.cbDue (s : State) : Bool :=
  let t := leAt (SMap.get noRec s.cb.ring (s.cb.saved % ringSize)) 4 8
  decide (2048 ≤ (s.cbHead + 2 ^ 32 - s.cb.saved) % 2 ^ 32) || decide (t + 1000000 * s.fget fMGT_CB_CFG_PERSIST_MS ≤ s.lt.toNat)
    || decide (s.lt.toNat < t)

/-- CELLAR_COMMIT (R582): the waiting records are committed once a commit is due; nothing while management restarts. -/
def execCellarCommit (s : State) : Out := .next (if s.mgt.down || !s.cbDue then s else s.cbCommit)

/-- Records read back from the cask; a slot that no record was ever written to holds none. -/
def State.cbSlots (s : State) (at' : Nat) (l : List (Nat × Nat)) : SMap (List Byte) :=
  l.foldl (fun m e =>
    let b := s.caskList (at' + 32 * e.1) 32
    if b.all (fun x => decide (x = 0)) then m else SMap.put noRec e.2 b m) []

/-- A start that finds the book's RAM lost restores it from the cask (R582). -/
def State.cbRestore (s : State) : State :=
  if !s.cb.lost then s
  else
    let hdr := s.caskList cbHeader 12
    let ok := decide (leAt hdr 0 4 = 0xCE110001)
    let h := if ok then leAt hdr 4 4 else 0
    let c := if ok then min 1024 (leAt hdr 8 4) else 0
    let ring := if ok then s.cbSlots cbRingAt ((List.range keptRing).map (fun j =>
      let i := (h + 2 ^ 32 - keptRing + j) % 2 ^ 32
      (i % keptRing, i % ringSize))) else []
    let ff := if ok then s.cbSlots cbFfAt ((List.range c).map (fun j => (j, j))) else []
    let s1 := { s with cb := { ring := ring, ff := ff, saved := h, savedFf := c, lost := false } }
    let s2 := ((s1.fset fMGT_CB_HEAD_COUNT h).fset fMGT_CB_STAT_FF_COUNT c).fset fMGT_CB_STAT_FF_FULL (b2n (decide (c = 1024)))
    (s2.fset fMGT_CB_STAT_RESTORED 1).cellar 0x0028 ring.length (b2n (!ok)) 0

end Sys2Proof.Machine
end

