-- ==== Sys2Proof/Machine/Lio.lean ====
section
/-! DEFINITION. The local 24 V IO (spec/18_local_io_panel.md R530 … R548): the logic die, the field die and the frames between them. -/

namespace Sys2Proof.Machine

/-- One bit of the CRC-8 of R532: polynomial 0x07. -/
def crc8Bit (c : Nat) : Nat := if 128 ≤ c then (c * 2 % 256) ^^^ 7 else c * 2

/-- The CRC-8 of R532 over bytes: initial value 0, no reflection, no final XOR. -/
def crc8 (l : List Byte) : Nat :=
  l.foldl (fun c b => crc8Bit (crc8Bit (crc8Bit (crc8Bit (crc8Bit (crc8Bit (crc8Bit (crc8Bit (c ^^^ b.toNat))))))))) 0

/-- Frame kinds of R533. -/
abbrev lkNormal : Nat := 0
abbrev lkArm : Nat := 1

/-- Supply states of R545. -/
abbrev suMissing : Nat := 0
abbrev suLow : Nat := 1
abbrev suOk : Nat := 2

/-- Event kinds of R203 for point `i`. -/
def State.lioRise (s : State) (i : Nat) : State := s.assertEv (512 + 2 * i)
def State.lioFall (s : State) (i : Nat) : State := s.assertEv (513 + 2 * i)

/-- Whether point `i` is an output. -/
def State.lioIsOut (s : State) (i : Nat) : Bool := s.fbit (fLIO_PT_CFG_DIR i)

/-! ### Outputs taken from the image -/

/-- Image points take their safe values (R548). -/
def State.lioSafe (s : State) : State :=
  let src := (s.reg rLIO_OUT_SRC)
  (s.setReg rLIO_OUT ((s.reg rLIO_OUT &&& ~~~src) ||| (s.reg rLIO_OUT_SAFE &&& src))).fset fLIO_STAT_IMAGE 0

/-- What the image needs apart from its read (R548): ACTIVE, in module RUN, and EN. -/
def State.lioImageOk (s : State) : Bool :=
  s.active && (decide (s.fget fSYS_MODULE_MODE_CUR = 0) && s.fbit fLIO_MAP_OUT_EN)

/-- Safe values wherever the image is not in effect, or may no longer be. -/
def State.lioCheck (s : State) : State := if s.lioImageOk && s.fbit fLIO_STAT_IMAGE then s else s.lioSafe

/-- The input record of R546, written at T(n) for cycle `n`. -/
def State.lioMapIn (s : State) (n : Nat) : State :=
  if s.mgt.down || !s.fbit fLIO_MAP_IN_EN then s
  else
    (s.passTags inMgmt 1).wrBytes (s.fget fLIO_MAP_IN_ADDR) (leBytes 4 (s.reg rLIO_IN).toNat ++ leBytes 4 (s.reg rLIO_FAULT).toNat
      ++ leBytes 1 (s.fget fLIO_STAT_SUPPLY)
      ++ leBytes 1 (s.fget fLIO_STAT_IN_VALID + 2 * s.fget fLIO_STAT_LINK + 4 * s.fget fLIO_STAT_SHUTDOWN)
      ++ leBytes 2 0 ++ leBytes 4 (n % 2 ^ 32))

/-- LIO_MAP_OUT_DONE (R547, R548): the read of the word at ADDR, a fabric request of the management path, has completed with `r`
(spec/03_partitions_fabric.md R109, R117). -/
def execLioMapOutDone (r : Resp) (s : State) : Out :=
  .next (if s.mgt.down then s
    else if !s.lioImageOk then s.lioSafe
    else match r with
      | .ok =>
        let s := s.passTags inMgmt 1
        let src := s.reg rLIO_OUT_SRC
        let w : Word := BitVec.ofNat 32 (s.rdLE (s.fget fLIO_MAP_OUT_ADDR) 4)
        (s.setReg rLIO_OUT ((s.reg rLIO_OUT &&& ~~~src) ||| (w &&& src))).fset fLIO_STAT_IMAGE 1
      | _ =>
        let t := s.noteResp (s.fget fLIO_MAP_OUT_ADDR) r mMgt (s.fget fPART_RULE_EPOCH) false 0
        ((t.lioSafe.fsat (fLIO_CNT_COUNT 3)).fset fLIO_FLAGS_MAP_ERR 1))

/-- LIO_BOUNDARY_TIMEOUT (R548): no cycle boundary has reached the logic die for 2 × BC. -/
def execLioBoundaryTimeout (s : State) : Out := .next (if s.mgt.down then s else s.lioSafe)

/-! ### Downstream -/

/-- The logic die's next downstream frame (R533). -/
def State.lioDown (s : State) : List Byte :=
  let v := s.lio
  let cfg := if v.slot < 32 then
      s.fget (fLIO_PT_CFG_DIR v.slot) * 2 ^ 23 + s.fget (fLIO_PT_CFG_TYPE v.slot) * 2 ^ 22 + s.fget (fLIO_PT_CFG_DEBOUNCE v.slot)
    else s.fget fLIO_CTRL_RETRY
  let b := leBytes 1 ((if v.arm then lkArm else lkNormal) * 64 + v.seq) ++ leBytes 4 (s.reg rLIO_OUT).toNat ++ leBytes 1 v.slot ++ leBytes 3 cfg
  b ++ leBytes 1 (crc8 b)

/-- LIO_DOWN_FRAME_SEND (R532, R533, R536). -/
def execLioDownFrameSend (s : State) : Out :=
  .next (if s.mgt.down then s
    else ({ s with lio := { s.lio with seq := (s.lio.seq + 1) % 64, slot := (s.lio.slot + 1) % 33, arm := false } }).emit
      { medium := .lioDown, dst := 0, kind := 0, data := s.lioDown.map (fun (b : Byte) => b.toNat) })

/-- ARM written (R539): the next downstream frame is an ARM frame. -/
def State.lioArm (s : State) : State := { s with lio := { s.lio with arm := true } }

/-- The checks of R535 on a downstream frame. -/
def downOk (l : List Byte) : Bool :=
  decide (l.length = 10) && (decide (leAt l 9 1 = crc8 (l.take 9)) && (decide (leAt l 0 1 / 64 ≤ 1) && (decide (leAt l 5 1 ≤ 32)
    && decide (if leAt l 5 1 < 32 then bitsOf (leAt l 6 3) 21 16 = 0 else bitsOf (leAt l 6 3) 23 8 = 0))))

/-- Sets the field die. -/
def State.setLioF (s : State) (v : LioField) : State := { s with lioF := v }

/-- A configuration slot at the field die (R536): an output that becomes an input is switched off and its retries stop (R544). -/
def LioField.config (v : LioField) (slot cfg : Nat) : LioField :=
  if slot = 32 then { v with retry := cfg % 256 }
  else
    let d := bitOf cfg 23
    let v1 := { v with
      dir := setBits v.dir slot slot (b2n d), typ := setBits v.typ slot slot (b2n (bitOf cfg 22))
      deb := SMap.put deb0 slot (cfg % 65536) v.deb, chg := if d then SMap.put (fun _ => 0) slot 0 v.chg else v.chg }
    if d then v1 else { v1 with on := setBits v1.on slot slot 0, fault := setBits v1.fault slot slot 0 }

/-- Bitwise helpers on point masks. -/
def maskAnd (a b : Nat) : Nat := (BitVec.ofNat 32 a &&& BitVec.ofNat 32 b).toNat
def maskNot (a : Nat) : Nat := (~~~ BitVec.ofNat 32 a).toNat

/-- OUT at the field die (R543, R544): every output point takes its bit; one that its protection has shut off stays off, unless it is now
commanded off, which clears FAULT. -/
def LioField.drive (v : LioField) (out : Nat) : LioField :=
  let cmd := maskAnd out v.dir
  let flt := maskAnd v.fault cmd
  let kept := maskAnd flt v.on
  { v with out := out, fault := flt, on := maskAnd cmd (maskNot flt) + kept }

/-- LIO_DOWN_FRAME_APPLY (R533, R535, R539, R543): the field die takes a downstream frame as it came over the channel. -/
def execLioDownFrameApply (l : List Byte) (s : State) : Out :=
  let v := s.lioF
  .next (if !downOk l then s.setLioF { v with bad := (v.bad + 1) % 16 }
    else
      let arm := decide (leAt l 0 1 / 64 = lkArm)
      let v1 := { (v.config (leAt l 5 1) (leAt l 6 3)) with seq := leAt l 0 1 % 64, shutdown := v.shutdown && !arm }
      s.setLioF (if v1.shutdown then { v1 with out := leAt l 1 4 } else v1.drive (leAt l 1 4)))

/-- LIO_FIELD_TIMEOUT (R537): every output off, SHUTDOWN set, retries stopped (R544). -/
def execLioFieldTimeout (s : State) : Out := .next (s.setLioF { s.lioF with shutdown := true, on := 0, fault := 0 })

/-- FIELD_SUPPLY_RISE (R536). -/
def execFieldSupplyRise (s : State) : Out := .next (s.setLioF {})

/-- LIO_INPUT_CHANGE (R540): the debounced level of input `i` changes. -/
def execLioInputChange (i : Fin 32) (s : State) : Out :=
  let v := s.lioF
  .next (if bitOf v.dir i.val then s
    else s.setLioF { v with level := setBits v.level i.val i.val (1 - bitsOf v.level i.val i.val)
                            chg := SMap.put (fun _ => 0) i.val (min 3 (SMap.get (fun _ => 0) v.chg i.val + 1)) v.chg })

/-- LIO_OVERCURRENT (R544, 1): the protection shuts output `i` off. -/
def execLioOvercurrent (i : Fin 32) (s : State) : Out :=
  let v := s.lioF
  .next (if !bitOf v.on i.val then s
    else s.setLioF { v with on := setBits v.on i.val i.val 0, fault := setBits v.fault i.val i.val 1 })

/-- LIO_RETRY (R544, 2): RETRY × 10 ms after the shut-off the output is switched on again while it is commanded on. -/
def execLioRetry (i : Fin 32) (s : State) : Out :=
  let v := s.lioF
  .next (if bitOf v.fault i.val then s.setLioF { v with on := setBits v.on i.val i.val 1 } else s)

/-- LIO_RETRY_OK (R544, 3): a retry has stayed on for 1 ms without overcurrent. -/
def execLioRetryOk (i : Fin 32) (s : State) : Out :=
  let v := s.lioF
  .next (if bitOf v.fault i.val && bitOf v.on i.val then s.setLioF { v with fault := setBits v.fault i.val i.val 0 } else s)

/-! ### Upstream -/

/-- LIO_UP_FRAME_BUILD (R534): the frame's content, with the sensed levels of the outputs and the measured supply in 0.125 V units. -/
def execLioUpFrameBuild (sense : Word) (supply : BitVec 8) (s : State) : Out :=
  let v := s.lioF
  let inp := maskAnd v.level (maskNot v.dir) + maskAnd sense.toNat v.dir
  let chg := (List.range 32).foldl (fun (a : Nat) i => a + (if bitOf v.dir i then 0 else SMap.get (fun _ => 0) v.chg i) * 4 ^ i) 0
  let b := leBytes 1 (v.seq + 64 * b2n v.shutdown) ++ leBytes 4 inp ++ leBytes 8 chg ++ leBytes 4 v.fault ++ leBytes 1 supply.toNat ++ leBytes 1 v.bad
  .next ((s.setLioF { v with chg := [] }).emit
    { medium := .lioUp, dst := 0, kind := 0, data := (b ++ leBytes 1 (crc8 b)).map (fun (x : Byte) => x.toNat) })

/-- The supply state that a voltage in 0.125 V units leads to (R545). -/
def supplyNext (st v : Nat) : Nat :=
  if v < 80 then suMissing
  else if 152 < v then suOk
  else if st = suOk then (if v < 144 then suLow else suOk)
  else if st = suMissing then (if 88 < v then suLow else suMissing)
  else suLow

/-- Sets the supply state; a change raises LIO_SUPPLY (R545). -/
def State.setSupply (s : State) (st : Nat) : State :=
  if s.fget fLIO_STAT_SUPPLY = st then s else (s.fset fLIO_STAT_SUPPLY st).assertEv 709

/-- The checks of R535 on an upstream frame. `direct`: it directly follows the previous valid one. -/
def State.upOk (s : State) (l : List Byte) (direct : Bool) : Bool :=
  let old := (s.reg rLIO_IN).toNat
  decide (l.length = 20) && (decide (leAt l 19 1 = crc8 (l.take 19)) && (decide (leAt l 0 1 < 128) && decide (leAt l 18 1 < 16)))
    && (!direct || (List.range 32).all (fun i => s.lioIsOut i
      || (bitOf (leAt l 5 8) (2 * i) == (bitOf (leAt l 1 4) i != bitOf old i))))

/-- The edge events of input `i` (R541): `n` events, the first away from the level `old`. -/
def State.lioEdges (s : State) (i : Nat) (old : Bool) : Nat → State
  | 0 => s
  | n + 1 => (if old then s.lioFall i else s.lioRise i).lioEdges i (!old) n

/-- A point's events in a valid upstream frame (R541, R544): CHG edges of an input, or one where it differs in a catch-up frame; of an
output the start of a shut-off, and its end while the output is still commanded on. -/
def State.lioPoint (s : State) (l : List Byte) (direct : Bool) (oldIn oldFault i : Nat) : State :=
  let was := bitOf oldIn i
  let is := bitOf (leAt l 1 4) i
  if s.lioIsOut i then
    let f0 := bitOf oldFault i
    let f1 := bitOf (leAt l 13 4) i
    let back := bitOf (s.reg rLIO_OUT).toNat i && !bitOf (leAt l 0 1) 6
    if !f0 && f1 then s.lioRise i else if f0 && !f1 && back then s.lioFall i else s
  else
    let n := if direct then bitsOf (leAt l 5 8) (2 * i + 1) (2 * i) else b2n (was != is)
    s.lioEdges i (if direct then was else !is) n

/-- LIO_UP_FRAME_RECEIVE (R534, R535, R538, R541, R544, R545): the logic die takes an upstream frame as it came over the channel. `near`
tells that it started no more than 3 µs after the previous valid one ended. -/
def execLioUpFrameReceive (l : List Byte) (near : Bool) (s : State) : Out :=
  let up := s.fbit fLIO_STAT_LINK
  let direct := up && (near && !s.lio.gap)
  .next (if s.mgt.down then s
    else if !s.upOk l direct then
      (({ s with lio := { s.lio with gap := true } }.fsat (fLIO_CNT_COUNT 0)).fset fLIO_FLAGS_FRAME_BAD 1).when
        (decide (l.length ≠ 20) || decide (leAt l 19 1 ≠ crc8 (l.take 19))) (fun t => t.integFree)
    else
      let oldIn := (s.reg rLIO_IN).toNat
      let oldFault := (s.reg rLIO_FAULT).toNat
      let flt := leAt l 13 4
      let sh := bitOf (leAt l 0 1) 6
      let st := leAt l 18 1
      let bad := if up then (st + 16 - s.lio.status) % 16 else 0
      let s1 : State := { s with lio := { s.lio with gap := false, status := st } }
      let s2 := (s1.fsatN (fLIO_CNT_COUNT 1) bad).when (decide (bad ≠ 0)) (fun t => t.fset fLIO_FLAGS_FRAME_BAD 1)
      let s3 := s2.when (sh && !s.fbit fLIO_STAT_SHUTDOWN) (fun t => (t.fsat (fLIO_CNT_COUNT 2)).fset fLIO_FLAGS_SHUTDOWN 1)
      let s4 := (((s3.fset fLIO_STAT_SHUTDOWN (b2n sh)).fset fLIO_STAT_LINK 1).fset fLIO_STAT_IN_VALID 1).setReg rLIO_IN (BitVec.ofNat 32 (leAt l 1 4))
      let s5 := (s4.setReg rLIO_FAULT (BitVec.ofNat 32 flt)).setReg rLIO_FAULT_SEEN
        (s4.reg rLIO_FAULT_SEEN ||| (BitVec.ofNat 32 flt &&& ~~~ BitVec.ofNat 32 oldFault))
      let s6 := (s5.fset fLIO_SUPPLY_MV_MV (leAt l 17 1 * 125)).setSupply (supplyNext (s.fget fLIO_STAT_SUPPLY) (leAt l 17 1))
      s6.when up (fun t => (List.range 32).foldl (fun u i => u.lioPoint l direct oldIn oldFault i) t))

/-- LIO_LINK_TIMEOUT (R538): 16 µs without a valid upstream frame. -/
def execLioLinkTimeout (s : State) : Out :=
  .next (if s.mgt.down || !s.fbit fLIO_STAT_LINK then s
    else ((((s.fset fLIO_STAT_LINK 0).fset fLIO_STAT_IN_VALID 0).fset fLIO_FLAGS_LINK_LOST 1).fset fLIO_SUPPLY_MV_MV 0).setSupply suMissing)

/-- A reset of the logic die (R531): its registers and all it holds. -/
def State.lioReset (s : State) : State :=
  { s with lio := {}, regs := SMap.clearRange rLIO_CTRL (rLIO_CTRL + 0x10000) s.regs }

end Sys2Proof.Machine
end

