-- ==== Sys2Proof/Machine/Persist.lean ====
section
/-! DEFINITION. Calibration in the cask: saves and the restore at a start (spec/08_conversion_calibration.md R279 … R281). -/

namespace Sys2Proof.Machine

/-- Cask address of row `r`'s block (R279). -/
def calBlockAt (r : Nat) : Nat := 0x291000 + 0x1000 + r * 0xC40

/-- The twelve bytes of a channel in a row block (R279): its active set at CUR and TASTE_EN. A set whose entry cannot be read is
not stated, and is free (log 10). -/
def State.calLane (s : State) (ch : Nat) : List Byte × State :=
  match s.coefRd ch with
  | (some l, t) =>
    ((entrySet l (activeSet l (t.fget fCONV_EPOCH_CUR))).bytes ++ leBytes 1 (b2n (bitOf (leAt l 0 1) cfTasteEn)) ++ leBytes 1 0, t)
  | (none, t) =>
    let a := t.freeW
    let b := a.2.freeW
    (leBytes 8 a.1.toNat ++ leBytes 3 b.1.toNat ++ leBytes 1 0, b.2)

/-- Writes row `r`'s block in one commit (R280). -/
def State.calSaveRow (s : State) (r : Nat) : State :=
  let q := (List.range 256).foldl (fun (a : List Byte × State) l => let b := a.2.calLane (r * 256 + l); (a.1 ++ b.1, b.2)) ([], s)
  let s1 := q.2
  let desc := (List.range 9).flatMap (fun i => leBytes 4 (s1.reg (rCONV_ROW_VSCALE r + 4 * i)).toNat)
  s1.caskWrite (calBlockAt r) (leBytes 4 0xCA1B0001 ++ leBytes 2 r ++ leBytes 2 (s1.fget fCONV_EPOCH_CUR) ++ leBytes 8 s1.lt.toNat
    ++ desc ++ List.replicate 12 0 ++ q.1)

/-- A save or the restore begins, at row 0. -/
def State.calBegin (s : State) : State :=
  { s.fset fCONV_PERSIST_BUSY 1 with calSince := s.lt.toNat, calRows := 0, calBad := 0 }

/-- A save begins (R280); one in progress, or the restore, goes on. -/
def State.calSaveStart (s : State) : State := if s.fbit fCONV_PERSIST_BUSY then s else s.calBegin

/-- The save goes on until `rows` row blocks are written (R280). -/
def State.calSaveTo (s : State) (rows : Nat) : State :=
  let n := max s.calRows (min rows 512)
  { ((List.range n).drop s.calRows).foldl (fun t r => t.calSaveRow r) s with calRows := n }

/-- A save ends after `rows` row blocks with a result (R280). -/
def State.calSaveEnd (s : State) (rows result : Nat) : State :=
  let s1 := s.calSaveTo rows
  (((s1.fset fCONV_PERSIST_BUSY 0).fset fCONV_PERSIST_SAVE 0).fset fCONV_PERSIST_STAT_EPOCH (s1.fget fCONV_EPOCH_CUR)).fset
    fCONV_PERSIST_STAT_RESULT result

/-- PERIODIC_CAL_SAVE (R280): every PERIOD minutes in RUN, counted from the start of the last save or of the restore; a PERIOD of 0
disables it. -/
def execPeriodicCalSave (s : State) : Out :=
  let p := s.fget fCONV_PERSIST_PERIOD
  .next (if s.mainRuns ∧ s.fget fSYS_MODULE_MODE_CUR = 0 ∧ p ≠ 0 ∧ s.calSince + 60000000000 * p ≤ s.lt.toNat then s.calSaveStart else s)

/-- CAL_SAVE_DONE (R280): `rows` row blocks were written before the cask refused one; all 512: OK. -/
def execCalSaveDone (rows : Nat) (s : State) : Out :=
  .next (if s.calSaving then s.calSaveEnd rows (if 512 ≤ rows then 1 else 3) else s)

/-- Restores row `r` (R281): its descriptor and sets serve the cycles that begin after this. A row restored with defaults is
counted. -/
def State.calRestoreRow (s0 : State) (r : Nat) : State :=
  let s := s0.keepDesc r
  let h := s.caskList (calBlockAt r) 64
  let ok := decide (leAt h 0 4 = 0xCA1B0001) && decide (leAt h 4 2 = r)
  let s1 := (List.range 9).foldl (fun t i =>
    let off := rCONV_ROW_VSCALE r + 4 * i
    t.setReg off (if ok then BitVec.ofNat 32 (leAt h (0x10 + 4 * i) 4) else regReset off)) s
  let s2 := (List.range 256).foldl (fun t l =>
    let a := t.coefAddr (r * 256 + l)
    let b := t.caskList (calBlockAt r + 0x40 + 12 * l) 12
    if ok then (t.tblWr a (leBytes 1 (leAt b 10 1 % 2 * 2) ++ leBytes 1 0 ++ leBytes 2 0 ++ b.take 10))
    else (t.tblWr (a + 4) (List.replicate 10 0)).tblWr a (leBytes 1 (setBits (t.rdB a).toNat 5 5 1))) s1
  { s2 with
    calBad := s.calBad + b2n (!ok)
    restored := if s.started then s.restored ++ [(r, s.cycle.toNat)] else s.restored }

/-- The restore goes on until `rows` rows are restored (R281). -/
def State.calRestoreTo (s : State) (rows : Nat) : State :=
  let n := max s.calRows (min rows 512)
  { ((List.range n).drop s.calRows).foldl (fun t r => t.calRestoreRow r) s with calRows := n }

/-- CAL_RESTORE_DONE (R281): every row has been restored, in ascending order. -/
def execCalRestoreDone (s : State) : Out :=
  .next (if s.fbit fCONV_PERSIST_RESTORED || !s.fbit fCONV_PERSIST_BUSY then s
    else
      let t := s.calRestoreTo 512
      ((t.fset fCONV_PERSIST_BUSY 0).fset fCONV_PERSIST_RESTORED 1).fset fCONV_PERSIST_STAT_BAD_ROWS t.calBad)

/-- Time a row of a save takes, and a row of the restore, ns: the spec gives 100 ms and 40 ms at most for the 512 rows (R280, R281), and
the model spreads the rows over that time (DESIGN CHOICE, log 50). -/
abbrev calSaveNs : Nat := 195312
abbrev calRestoreNs : Nat := 78125

/-- Rows that a save or the restore has reached by now. A flush lets no further row begin (R280; spec/20_reset_watchdog_cask.md R612). -/
def State.calAdvance (s : State) : State :=
  if !s.fbit fCONV_PERSIST_BUSY ∨ s.fget fRST_START_PHASE ≠ phOperating then s
  else if s.fbit fCONV_PERSIST_RESTORED then s.calSaveTo ((s.lt.toNat - s.calSince) / calSaveNs)
  else s.calRestoreTo ((s.lt.toNat - s.calSince) / calRestoreNs)

/-- One fabric clock of an idle module (log 12): the line-time generator advances, and with it a save or the restore; in HELD the main die has no
clock (spec/20_reset_watchdog_cask.md R595, R596). -/
def State.idle (s : State) : State := if s.fget fRST_START_PHASE = phHeld then s else (tick s).calAdvance.releaseAll

end Sys2Proof.Machine
end

