-- ==== Sys2Proof/Machine/Settings.lean ====
section
/-! DEFINITION. The settings records of cask region 1, the boot record and the flash images (spec/19_management.md R558 … R566). -/

namespace Sys2Proof.Machine

/-- Cask address of settings slot `k` (R564). -/
def slotAddr (k : Nat) : Nat := 0x1000 + 4096 * k

/-- The settings types (R566). -/
abbrev setBoot : Nat := 1
abbrev setGenT : Nat := 2
abbrev setEng : Nat := 3
abbrev setTime : Nat := 4
abbrev setSensor : Nat := 5
abbrev setCellar : Nat := 6
abbrev setLife : Nat := 7

/-- The firmware's current payload layout version of every type. -/
abbrev setVersion : Nat := 1

/-- The registers a type's record holds, with the bits it takes; 4 bytes each, in this order (R566). -/
def setRegs (t : Nat) : List (Nat × Nat) :=
  if t = setGenT then [(rTRL_GEN, 0xFFFF)]
  else if t = setEng then [(rTIME_ENG_CTRL, 0x80000000), (rTIME_ENG_IP, 0xFFFFFFFF), (rTIME_ENG_MASK, 0x1F), (rTIME_ENG_GW, 0xFFFFFFFF)]
  else if t = setTime then [(rTIME_PTP_CTRL, 0xFFFFFFFF), (rTIME_PTP_SERVO, 0xFFFFFFFF), (rTIME_STEP_THRESH, 0xFFFF),
    (rTIME_SLEW, 0x1FF), (rTIME_WALL_BACKSTEP, 3)]
  else if t = setSensor then
    (List.range 12).flatMap (fun i => [(rMGT_SENS_WARN i, 0xFFFFFFFF), (rMGT_SENS_CRIT i, 0xFFFFFFFF)]) ++ [(rMGT_CTRL, 0x30)]
  else if t = setCellar then [(rMGT_CB_CFG, 0xFFFFFFFF), (rMGT_NOTICE, 0x8000007F)]
  else if t = setLife then [(rMGT_LIFE_HOURS, 0xFFFFFFFF), (rMGT_LIFE_TJ, 0xFFFFFFFF)]
  else []

/-- What a slot holds (R564, R565): nothing, a copy that fails its check, one of a newer version, or one that can be used. -/
inductive SetCopy where
  | blank
  | bad
  | newer (version : Nat)
  | good (seq version : Nat) (payload : List Byte)
  deriving DecidableEq, Repr

/-- Reads slot `k` for type `t`. A slot whose header was never written holds no copy. -/
def State.setCopy (s : State) (t k : Nat) : SetCopy :=
  let h := s.caskList (slotAddr k) 32
  if h.all (fun b => decide (b = 0)) then .blank
  else
    let n := leAt h 8 2
    if leAt h 0 4 ≠ 0x5E750001 ∨ leAt h 4 2 ≠ t ∨ 4064 < n then .bad
    else
      let p := s.caskList (slotAddr k + 32) n
      if leAt h 0x1C 4 ≠ crc32 (h.take 0x1C ++ p) then .bad
      else if setVersion < leAt h 6 2 then .newer (leAt h 6 2)
      else .good (leAt h 0x0C 4) (leAt h 6 2) p

/-- SEQ, version and payload of the usable copy with the newer SEQ, and the slot it lies in (R564). -/
def State.setUsable (s : State) (t : Nat) : Option (Nat × Nat × Nat × List Byte) :=
  match s.setCopy t (2 * t), s.setCopy t (2 * t + 1) with
  | .good a v p, .good b w q => if newerN 32 b a then some (2 * t + 1, b, w, q) else some (2 * t, a, v, p)
  | .good a v p, _ => some (2 * t, a, v, p)
  | _, .good b w q => some (2 * t + 1, b, w, q)
  | _, _ => none

/-- Whether a save may write over a slot: never over a copy of a newer version (R565). -/
def SetCopy.free : SetCopy → Bool
  | .blank => true
  | .bad => true
  | .newer _ => false
  | .good _ _ _ => false

/-- The slot a save writes (R564): one that fails its check or was never written, else the one with the older SEQ. -/
def State.setSlot (s : State) (t : Nat) : Option Nat :=
  let a := s.setCopy t (2 * t)
  let b := s.setCopy t (2 * t + 1)
  if a.free then some (2 * t) else if b.free then some (2 * t + 1)
  else match a, b with
    | .good x _ _, .good y _ _ => if newerN 32 y x then some (2 * t) else some (2 * t + 1)
    | .good _ _ _, _ => some (2 * t)
    | _, .good _ _ _ => some (2 * t + 1)
    | _, _ => none

/-- Saves a payload of type `t` in one cask commit (R564). -/
def State.setWrite (s : State) (t : Nat) (p : List Byte) : State :=
  match s.setSlot t with
  | none => s
  | some k =>
    let seq := match s.setUsable t with | some (_, q, _, _) => (q + 1) % 2 ^ 32 | none => 1
    let h := leBytes 4 0x5E750001 ++ leBytes 2 t ++ leBytes 2 setVersion ++ leBytes 2 p.length ++ leBytes 2 0 ++ leBytes 4 seq
      ++ leBytes 8 s.lt.toNat ++ leBytes 4 0
    s.caskWrite (slotAddr k) (h ++ leBytes 4 (crc32 (h ++ p)) ++ p)

/-- Saves the registers of type `t` (R566). -/
def State.setSave (s : State) (t : Nat) : State :=
  s.setWrite t ((setRegs t).flatMap (fun e => leBytes 4 ((s.reg e.1).toNat &&& e.2)))

/-- A usable payload's values enter the type's registers. -/
def State.setLoad (s : State) (t : Nat) (p : List Byte) : State :=
  ((setRegs t).zipIdx).foldl (fun u e =>
    let off := e.1.1
    let m := e.1.2
    u.setReg off (BitVec.ofNat 32 (((s.reg off).toNat &&& (0xFFFFFFFF - m)) ||| (leAt p (4 * e.2) 4 &&& m)))) s

/-- The check of the two slots of type `t` at a start (R564, R565): a copy that fails is a critical-state error; one of a newer
version sets SET_NEWER. -/
def State.setCheck (s : State) (t : Nat) : State :=
  [2 * t, 2 * t + 1].foldl (fun u k =>
    match s.setCopy t k with
    | .bad => u.integCrit 7 k
    | .newer v => (u.fset fMGT_STAT_SET_NEWER 1).cellar 0x0022 t 3 v
    | _ => u) s

/-- A start reads type `t` (R564 … R566): the usable copy's values, migrated and saved under the current version where older; none:
the defaults stay and SET_DEFAULT is set. -/
def State.setRead (s : State) (t : Nat) : State :=
  let s1 := s.setCheck t
  match s.setUsable t with
  | none => (s1.fset fMGT_STAT_SET_DEFAULT 1).cellar 0x0022 t 1 0
  | some (_, _, v, p) =>
    let s2 := s1.setLoad t p
    if v < setVersion then (s2.setSave t).cellar 0x0022 t 2 v else s2

/-! ### Flash -/

/-- Bytes of a bank. -/
abbrev bankSize : Nat := 2 ^ 27

/-- `n` bytes of the flash from address `a`; bank B lies above bank A. -/
def State.flashList (s : State) (a n : Nat) : List Byte := (List.range n).map (fun i => SMap.get byteFF s.flash (a + i))

/-- Component entry `i` of an image header (R558): kind, offset and length; its three zero bytes hold. -/
def compAt (h : List Byte) (i : Nat) : Nat × Nat × Nat := (leAt h (0x20 + 16 * i) 1, leAt h (0x24 + 16 * i) 4, leAt h (0x28 + 16 * i) 4)

/-- Whether an image header is valid (R558). -/
def imgHeaderOk (h : List Byte) : Bool :=
  let n := leAt h 6 2
  let len := leAt h 0x0C 4
  let cs := (List.range n).map (compAt h)
  let count (k : Nat) : Nat := (cs.filter (fun c => decide (c.1 = k))).length
  decide (leAt h 0 4 = 0x0D7F0001) && (decide (leAt h 4 2 = 1) && (decide (5 ≤ n) && (decide (n ≤ 8) && (decide (4096 ≤ len)
    && (decide (len ≤ 2 ^ 26) && (decide (leAt h 0xA0 4 = crc32 (h.take 0xA0)) && (zerosAt h 0x14 12 && (zerosAt h 0xA4 92
    && (zerosAt h (0x20 + 16 * n) (128 - 16 * n) && (cs.all (fun c => decide (1 ≤ c.1) && (decide (c.1 ≤ 6) && decide (c.2.1 + c.2.2 ≤ len)))
    && ((List.range n).all (fun i => zerosAt h (0x21 + 16 * i) 3)
    && ([1, 2, 3, 4, 5].all (fun k => decide (count k = 1)) && decide (count 6 ≤ 1)))))))))))))

/-- The header of bank `b`. -/
def State.imgHeader (s : State) (b : Nat) : List Byte := s.flashList (b * bankSize) 256

/-- Whether bank `b` holds a valid image (R558). -/
def State.imgValid (s : State) (b : Nat) : Bool :=
  let h := s.imgHeader b
  let len := leAt h 0x0C 4
  imgHeaderOk h && decide (leAt h 0x10 4 = crc32 (s.flashList (b * bankSize + 256) (len - 256)))

/-- A bank's check (R559): CHECKED, BAD and REV of a valid header. -/
def State.bankCheck (s : State) (b : Nat) : State :=
  let h := s.imgHeader b
  ((s.fset (fMGT_FW_BANK_CHECKED b) 1).fset (fMGT_FW_BANK_BAD b) (b2n (!s.imgValid b))).fset (fMGT_FW_BANK_REV_REV b)
    (if imgHeaderOk h then leAt h 8 4 else 0)

/-- The BOOT record (R561, R566): CONFIRMED, TRIAL, and bank and mode of the last boot; none saved: bank A confirmed, no trial. -/
structure Boot where
  confirmed : Nat := 0
  trial : Option Nat := none
  bank : Nat := 0
  mode : Nat := 0
  deriving DecidableEq, Repr

/-- The BOOT record in use. -/
def State.boot (s : State) : Boot :=
  match s.setUsable setBoot with
  | none => {}
  | some (_, _, _, p) =>
    { confirmed := leAt p 0 1 % 2, trial := if leAt p 1 1 = 0xFF then none else some (leAt p 1 1 % 2), bank := leAt p 2 1 % 2
      mode := leAt p 3 1 % 4 }

/-- Saves the BOOT record; MGT_STAT shows TRIAL. -/
def State.setBootRec (s : State) (b : Boot) : State :=
  (s.setWrite setBoot (leBytes 1 b.confirmed ++ leBytes 1 (b.trial.getD 0xFF) ++ leBytes 1 b.bank ++ leBytes 1 b.mode)).fset
    fMGT_STAT_TRIAL_PEND (b2n b.trial.isSome)

/-- The bank the module booted from. -/
def State.bootBank (s : State) : Nat := s.fget fMGT_STAT_BANK

/-- Whether the boot ROM runs alone (R561). -/
def State.inRom (s : State) : Bool := decide (s.fget fMGT_STAT_BOOT = bootRom)

/-- FW record actions (R577). -/
abbrev fwWrite : Nat := 1
abbrev fwTrial : Nat := 2
abbrev fwConfirm : Nat := 3
abbrev fwCancel : Nat := 4
abbrev fwAbandoned : Nat := 5
abbrev fwScrubBad : Nat := 6

/-- A FW cellar book record (R577). -/
def State.fwRecord (s : State) (action b : Nat) : State :=
  s.cellar 0x0021 action b (let h := s.imgHeader b; if imgHeaderOk h then leAt h 8 4 else 0)

/-- FW command results (R560). -/
abbrev fwOk : Nat := 1
abbrev fwBooted : Nat := 2
abbrev fwRange : Nat := 3
abbrev fwErr : Nat := 4
abbrev fwNot : Nat := 5

/-- Sets the result of a flash command. -/
def State.fwResult (s : State) (r : Nat) : State := s.fset fMGT_FW_STAT_RESULT r

/-- The bank and offset that a command's OFFSET names (R560, R561): in ROM bit 27 selects the bank; else the bank not booted from. -/
def State.fwTarget (s : State) (ofs : Nat) : Nat × Nat :=
  if s.inRom then (ofs / bankSize % 2, ofs % bankSize) else (1 - s.bootBank, ofs)

/-- OP WRITE and FW_WRITE (R560): a write that may run starts, and BUSY reads 1 until it ends; one out of range is refused. -/
def State.fwStart (s : State) (ofs : Nat) (data : List Byte) : State :=
  let t := s.fwTarget ofs
  let n := data.length
  if n < 4 ∨ 1024 < n ∨ n % 4 ≠ 0 ∨ ofs % 4 ≠ 0 then s.fwResult fwRange
  else if (!s.inRom && (decide (bankSize ≤ ofs))) = true then
    s.fwResult (if ofs < 2 * bankSize then fwBooted else fwRange)
  else if bankSize < t.2 + n then s.fwResult fwRange
  else { s.fset fMGT_FW_STAT_BUSY 1 with mgt := { s.mgt with fw := some { addr := t.1 * bankSize + t.2, data := data } } }

/-- A flash write ends (R560): at a sector boundary the 256 KB sector is erased first; bytes written hold the AND of old and new.
`ok` tells whether it verified. -/
def State.fwDone (s : State) (ok : Bool) : State :=
  match s.mgt.fw with
  | none => s
  | some j =>
    let f := if j.addr % 262144 = 0 then SMap.clearRange j.addr (j.addr + 262144) s.flash else s.flash
    let f1 := (addrBytes j.addr j.data).foldl (fun m (e : Nat × Byte) => SMap.put byteFF e.1 (SMap.get byteFF m e.1 &&& e.2) m) f
    let s1 := ({ s with flash := f1, mgt := { s.mgt with fw := none } }.fset fMGT_FW_STAT_BUSY 0).fwResult (if ok then fwOk else fwErr)
    s1.fwRecord fwWrite (j.addr / bankSize)

/-- OP TRIAL (R561): the bank not booted from is tried at the next start; in ROM, OFFSET bit 27 names it. -/
def State.fwTrialOp (s : State) (ofs : Nat) : State :=
  let b := if s.inRom then ofs / bankSize % 2 else 1 - s.bootBank
  ((s.setBootRec { s.boot with trial := some b }).fwRecord fwTrial b).fwResult fwOk

/-- OP CONFIRM (R561): only after a boot as TRIAL or FALLBACK; the image is scrubbed at the next start (R562). -/
def State.fwConfirmOp (s : State) : State :=
  let m := s.fget fMGT_STAT_BOOT
  if m = 1 ∨ m = 2 then
    { ((s.setBootRec { s.boot with confirmed := s.bootBank, mode := 0 }).fwRecord fwConfirm s.bootBank).fwResult fwOk with scrubDue := true }
  else s.fwResult fwNot

/-- OP CANCEL sets TRIAL to none (R561); with none it does not apply. -/
def State.fwCancelOp (s : State) : State :=
  match s.boot.trial with
  | none => s.fwResult fwNot
  | some b => ((s.setBootRec { s.boot with trial := none }).fwRecord fwCancel b).fwResult fwOk

/-- TRL_GEN is written (R420, R422): GENERATION, its record, and the save. -/
def State.putGen (s : State) (g : Nat) : State :=
  (((s.fset fTRL_GEN_GEN g).assertEv 697).cellar 0x0017 (s.fget fTRL_GEN_GEN) (g % 65536) 0).setSave setGenT

/-- TRL_GEN follows a generation (R420): only a change has effects. -/
def State.setGen (s : State) (g : Nat) : State := if s.fget fTRL_GEN_GEN = g % 65536 then s else s.putGen g

/-- Whether a generation has been saved (R420). -/
def State.genSaved (s : State) : Bool := (s.setUsable setGenT).isSome

end Sys2Proof.Machine
end

