-- ==== Sys2Proof/Machine/JMove.lean ====
section
/-! DEFINITION. Judin data movement: LD, ST, LEA, LDI, TFR, MULU, MULS (spec/05_judin_reference.md R170, R171). -/

namespace Sys2Proof.Machine

/-- Bytes of a register (R170). -/
def rgSize (r : Rg) : Nat := match r with | .x => 2 | .y => 2 | _ => 1

/-- A register's value as stored; F as 0b000 followed by F (R170). -/
def rgValue (r : Rg) (l : Lane) : Nat :=
  match r with
  | .a => l.a.toNat
  | .b => l.b.toNat
  | .x => l.x.toNat
  | .y => l.y.toNat
  | .f => l.f.toNat

/-- Loads a register and sets the flags of a load (R168, R170). -/
def rgLoad (r : Rg) (v : Nat) (l : Lane) : Lane :=
  match r with
  | .a => { l with a := BitVec.ofNat 8 v, f := logicKind 8 (v % 256) l.f }
  | .b => { l with b := BitVec.ofNat 8 v, f := logicKind 8 (v % 256) l.f }
  | .x => { l with x := BitVec.ofNat 16 v, f := logicKind 16 (v % 65536) l.f }
  | .y => { l with y := BitVec.ofNat 16 v, f := logicKind 16 (v % 65536) l.f }
  | .f => { l with f := BitVec.ofNat 5 v }

/-- A reserved combination raises ILLEGAL (R162, R165); a context that issues no instruction stands. -/
def State.unless (s : State) (c : Cx) (bad : Bool) (t : State) : State :=
  if s.issues c && bad then (s.fetched c).illegal c else t

/-- Whether a load into the register in the operand's mode is reserved (R165). -/
def loadReserved (r : Rg) (o : MOp) : Bool :=
  match r with
  | .x => mopUpdates o .x
  | .y => mopUpdates o .y
  | _ => false

/-- LD r, ea. -/
def State.jLd (s : State) (c : Cx) (r : Rg) (o : MOp) : State :=
  s.unless c (loadReserved r o) (s.perLane c (mopLen o) 1 false (fun _ l =>
    let e := mopEa o l (rgSize r)
    { accs := [⟨e.1.toNat, (rgSize r), false⟩], run := fun rd => (rgLoad r (rd e.1.toNat (rgSize r)) e.2, []) }))

/-- ST r, ea: the stored register's value is the one before the instruction (R165). -/
def State.jSt (s : State) (c : Cx) (r : Rg) (o : MOp) : State :=
  s.perLane c (mopLen o) 1 false (fun _ l =>
    let e := mopEa o l (rgSize r)
    { accs := [⟨e.1.toNat, (rgSize r), true⟩], run := fun _ => (e.2, [(e.1.toNat, (rgSize r), rgValue r l)]) })

/-- LEA r, ea: makes no access; POSTINC and PREDEC are reserved (R165, R170). -/
def State.jLea (s : State) (c : Cx) (r : R16) (o : MOp) : State :=
  s.unless c (mopUpdates o .x || mopUpdates o .y) (s.regLanes c (mopLen o) 1 (fun l => l.set16 r (mopEa o l 2).1))

/-- LDI r, #i8: into F, bits 7:5 of i8 must be 0. -/
def State.jLdiI8 (s : State) (c : Cx) (r : RI) (i : BitVec 8) : State :=
  match r with
  | .a => s.regLanes c 1 1 (fun l => rgLoad .a i.toNat l)
  | .b => s.regLanes c 1 1 (fun l => rgLoad .b i.toNat l)
  | .f => s.unless c (decide (32 ≤ i.toNat)) (s.regLanes c 1 1 (fun l => rgLoad .f i.toNat l))

/-- LDI r, #i16. -/
def State.jLdiI16 (s : State) (c : Cx) (r : R16) (i : BitVec 16) : State :=
  s.regLanes c 2 1 (fun l => match r with | .x => rgLoad .x i.toNat l | .y => rgLoad .y i.toNat l)

/-- Value of a TFR source in a lane; DP is shared. -/
def rtValue (r : RT) (dp : BitVec 16) (l : Lane) : BitVec 16 :=
  match r with
  | .a => l.a.setWidth 16
  | .b => l.b.setWidth 16
  | .x => l.x
  | .y => l.y
  | .f => l.f.setWidth 16
  | .dp => dp
  | .xh => l.x >>> 8
  | .yh => l.y >>> 8

/-- Writes a TFR destination that is a lane register (R171). -/
def rtPut (r : RT) (v : BitVec 16) (l : Lane) : Lane :=
  match r with
  | .a => { l with a := v.setWidth 8 }
  | .b => { l with b := v.setWidth 8 }
  | .x => { l with x := v }
  | .y => { l with y := v }
  | .f => { l with f := v.setWidth 5 }
  | .dp => l
  | .xh => { l with x := (l.x &&& 0x00FF) ||| (v <<< 8) }
  | .yh => { l with y := (l.y &&& 0x00FF) ||| (v <<< 8) }

/-- TFR s, d: to DP it is uniform and takes the lead lane's value (R163). -/
def State.jTfr (s : State) (c : Cx) (src dst : RT) : State :=
  let x := s.cx c
  s.unless c (!tfrLegal src dst)
    (if dst = .dp then
      (if s.issues c then ((s.fetched c).setCx c { x with dp := rtValue src x.dp x.lead }).advance c 1 1 0 else s)
    else s.regLanes c 1 1 (fun l => rtPut dst (rtValue src x.dp l) l))

/-- MULU and MULS: X takes the product; C and V become 0; two clocks (R169, R170). -/
def State.jMul (s : State) (c : Cx) (signed : Bool) : State :=
  s.regLanes c 1 2 (fun l =>
    let p := if signed then unsgn 16 (sgn 8 l.a.toNat * sgn 8 l.b.toNat) else l.a.toNat * l.b.toNat
    { l with x := BitVec.ofNat 16 p, f := mkFlags false (topBit 16 p) false (decide (p = 0)) (fL l.f) })

/-- LD (R170). -/
def execJLd (c : Cx) (r : Rg) (o : MOp) (s : State) : Out := .next (s.jLd c r o)

/-- ST (R170). -/
def execJSt (c : Cx) (r : Rg) (o : MOp) (s : State) : Out := .next (s.jSt c r o)

/-- LEA (R170). -/
def execJLea (c : Cx) (r : R16) (o : MOp) (s : State) : Out := .next (s.jLea c r o)

/-- LDI r, #i8 (R170). -/
def execJLdiI8 (c : Cx) (r : RI) (i : BitVec 8) (s : State) : Out := .next (s.jLdiI8 c r i)

/-- LDI r, #i16 (R170). -/
def execJLdiI16 (c : Cx) (r : R16) (i : BitVec 16) (s : State) : Out := .next (s.jLdiI16 c r i)

/-- TFR (R171). -/
def execJTfr (c : Cx) (src dst : RT) (s : State) : Out := .next (s.jTfr c src dst)

/-- MULU (R170). -/
def execJMulu (c : Cx) (s : State) : Out := .next (s.jMul c false)

/-- MULS (R170). -/
def execJMuls (c : Cx) (s : State) : Out := .next (s.jMul c true)

end Sys2Proof.Machine
end

