-- ==== Sys2Proof/Machine/TwinItems.lean ====
section
/-! DEFINITION. What the two copies of a pair compare: the items, their bits, the comparator, and the patterns of the injection test (spec/12_twin_presses.md R377 … R379, R388). The copies hold the same while they agree, so State holds what they hold once; a mismatch command tells in which compared bits of the instruction at PC the shadow's items differ (log 83). -/

namespace Sys2Proof.Machine

/-! ### Bits (R377, R388) -/

/-- Item groups (PRESS_TWIN_MISMATCH). -/
abbrev tgRf : Nat := 1
abbrev tgFrame : Nat := 2
abbrev tgFabric : Nat := 3
abbrev tgRead : Nat := 4
abbrev tgFlow : Nat := 5
abbrev tgLm : Nat := 6
abbrev tgDp : Nat := 7
abbrev tgStack : Nat := 8
abbrev tgEvent : Nat := 9
abbrev tgValid : Nat := 10

/-- The items of R377 in the table's order: group, bits, and whether a valid bit is counted behind them. Return-stack index and push are
counted as one, so that GROUP and BIT name a bit (log 83). -/
def laneItems : List (Nat × Nat × Bool) := [(tgRf, 19, true), (tgFrame, 27, true), (tgFabric, 34, true), (tgRead, 16, true)]
def sharedItems (scalar : Bool) : List (Nat × Nat × Bool) :=
  [(tgFlow, 16, true), (tgLm, if scalar then 1 else 256, false), (tgDp, 16, false), (tgStack, 24, false), (tgEvent, if scalar then 30 else 285, false)]

/-- Bits that a list of items counts. -/
def itemBits (l : List (Nat × Nat × Bool)) : Nat := l.foldl (fun a e => a + e.2.1 + b2n e.2.2) 0

/-- The item that bit `b` of a list of items lies in, and GROUP and BIT that name it: a valid bit is VALID with the item's group. -/
def bitName : List (Nat × Nat × Bool) → Nat → Option (Nat × Nat × Nat)
  | [], _ => none
  | (g, w, v) :: l, b =>
    if b < w then some (g, g, b) else if v && decide (b = w) then some (g, tgValid, g) else bitName l (b - w - b2n v)

/-- A compared bit's item, GROUP and BIT: bits 0 … 99 are a lane's, those from 100 on the pair's (R388). -/
def twinBit (scalar : Bool) (b : Nat) : Option (Nat × Nat × Nat) :=
  if b < 100 then bitName laneItems b else bitName (sharedItems scalar) (b - 100)

/-! ### The comparator (R379) -/

/-- Whether a difference lies in a compared item at all: a bit that exists, of the pair or of at least one lane. -/
def flipLive (scalar : Bool) (f : TwinFlip) : Bool := (twinBit scalar f.bit).isSome && (decide (100 ≤ f.bit) || decide (f.lanes ≠ 0))

/-- What the comparator registers of the bits that differ (PRESS_TWIN_MISMATCH, PRESS_TWIN_LANES): the first item in the table's order, its
lowest bit, the lowest lane in which it differs, and every lane with a difference; none where nothing differs. -/
def twinCompare (scalar : Bool) (fs : List TwinFlip) : Option TwinDiff :=
  let l := fs.filter (fun f => flipLive scalar f)
  match l.foldl (fun (m : Option Nat) f => some (match m with | some b => min b f.bit | none => f.bit)) none with
  | none => none
  | some b =>
    (twinBit scalar b).map (fun e =>
      let same := l.filter (fun f => decide (f.bit < 100) && decide ((twinBit scalar f.bit).map (fun g => g.1) = some e.1))
      let lanes := (l.filter (fun f => decide (f.bit < 100))).foldl (fun m f => m ||| f.lanes) 0
      { group := e.2.1, bit := e.2.2, lane := if b < 100 then lowestLane (same.foldl (fun m f => m ||| f.lanes) 0) else 0, lanes := lanes })

/-! ### What an instruction produces (R377) -/

/-- The memory operand of an instruction's source: mode and bytes. -/
def srcMop : Instr → Option (MOp × Nat)
  | .jLd _ r o => some (o, rgSize r)
  | .jAdd _ _ (.mem o) | .jAdc _ _ (.mem o) | .jSub _ _ (.mem o) | .jSbc _ _ (.mem o) | .jAnd _ _ (.mem o) | .jOr _ _ (.mem o)
  | .jXor _ _ (.mem o) | .jCmp _ _ (.mem o) | .jCpc _ _ (.mem o) | .jBit _ _ o | .jLmload _ o => some (o, 1)
  | .jAddw _ _ (.mem o) | .jSubw _ _ (.mem o) | .jCmpw _ _ (.mem o) | .jCpcw _ _ (.mem o) => some (o, 2)
  | _ => none

/-- The accesses of an instruction in one lane of a context. -/
def jAccs (s : State) (x : Ctx) (i : Instr) (l : Lane) : List Access :=
  let bit (o : BitArg) (on wr : Bool) : List Access :=
    match o with
    | .mem b _ => if on then ⟨(bopEa b l).toNat, 1, false⟩ :: (if wr then [⟨(bopEa b l).toNat, 1, true⟩] else []) else []
    | .reg _ _ => []
  let rec' (o : ROp) (n k : Nat) (wr : Bool) : List Access :=
    let a := (ropEa o l).toNat
    ⟨a, n, false⟩ :: (if wr then [⟨(a + k) % 65536, n - k, true⟩] else [])
  match i with
  | .jSt _ r o => [⟨(mopEa o l (rgSize r)).1.toNat, rgSize r, true⟩]
  | .jLmsave _ o => [⟨(mopEa o l 1).1.toNat, 1, true⟩]
  | .jLdb _ o | .jLdbn _ o | .jAndb _ o | .jAndbn _ o | .jOrb _ o | .jOrbn _ o | .jXorb _ o | .jXorbn _ o => bit o true false
  | .jOut _ o | .jOutn _ o => bit o true true
  | .jSetb _ o | .jRstb _ o | .jTglb _ o => bit o (fL l.f) true
  | .jTon _ _ o | .jTof _ _ o | .jTp _ _ o => rec' o 8 2 true
  | .jCtu _ o | .jCtd _ o => rec' o 5 2 true
  | .jCres _ o | .jCld _ o => rec' o 5 2 (fL l.f)
  | .jRedge _ o | .jFedge _ o => rec' o 1 0 true
  | .jPush _ r => [⟨(x.dp - BitVec.ofNat 16 (rgSize r)).toNat, rgSize r, true⟩]
  | .jPop _ r => [⟨x.dp.toNat, rgSize r, false⟩]
  | .jMread _ ch => [⟨l.x.toNat, s.mbxWords ch.toNat * 4, true⟩]
  | .jGoSend _ ch => [⟨l.x.toNat, s.mbxWords ch.toNat * 4, false⟩]
  | i => match srcMop i with | some (o, n) => [⟨(mopEa o l n).1.toNat, n, false⟩] | none => []

/-- Whether an instruction writes registers or flags in the lanes in which it acts. -/
def writesRf : Instr → Bool
  | .jSt _ _ o | .jLmsave _ o | .jLmload _ o => mopUpdates o .x || mopUpdates o .y
  | .jOut _ o | .jOutn _ o | .jSetb _ o | .jRstb _ o | .jTglb _ o => match o with | .reg _ _ => true | .mem _ _ => false
  | .jTfr _ _ d => decide (d ≠ .dp)
  | .jBr _ _ _ | .jBrl _ _ _ | .jBany _ _ | .jBall _ _ | .jBnone _ _ | .jBanyl _ _ | .jBalll _ _ | .jBnonel _ _ | .jJmps _ _ | .jJmp _ _
  | .jJmpx _ _ | .jCall _ _ | .jCallx _ _ | .jRet _ | .jPush _ _ | .jNop _ | .jEnd _ | .jFence _ | .jBrk _ | .jLmall _ | .jLmand _ | .jLmandn _
  | .jLmor _ | .jSev _ _ | .jWfe _ _ | .jWuntil _ _ | .jGoSend _ _ | .jGoDone _ _ | .jMread _ _ | .jTrig _ _ | .undefinedOpcode _ _ => false
  | _ => true

/-- Whether an instruction acts in every lane, enabled or not (R129, R146). -/
def allLanes : Instr → Bool
  | .jRte _ | .jLmsave _ _ | .jLmload _ _ => true
  | _ => false

/-- The shared items an instruction produces: a target where it can leave the straight line, mask, DP, return stack, event. The entry of an
exception, which any instruction may take, produces a target and a push. -/
def sharedMade : Instr → List Nat
  | .jLmall _ | .jLmand _ | .jLmandn _ | .jLmor _ | .jLmload _ _ => [tgFlow, tgStack, tgLm]
  | .jRte _ => [tgFlow, tgStack, tgLm]
  | .jTfr _ _ d => if d = .dp then [tgFlow, tgStack, tgDp] else [tgFlow, tgStack]
  | .jPush _ _ | .jPop _ _ => [tgFlow, tgStack, tgDp]
  | .jSev _ _ | .jGoSend _ _ | .jGoDone _ _ | .jMread _ _ | .jTrig _ _ => [tgFlow, tgStack, tgEvent]
  | _ => [tgFlow, tgStack]

/-- The instruction at PC, as its words in the program store spell it. -/
def State.atPc (s : State) (c : Cx) : Instr :=
  let x := s.cx c
  judinDecode c (s.codeWord x x.pc.toNat) (s.codeWord x ((x.pc.toNat + 1) % 65536))

/-- Whether an access produces an item of a group in its lane: a write of frame or scratch, a write that leaves the context, a read through
the fabric. -/
def State.accMakes (s : State) (x : Ctx) (l : Nat) (q : Access) (g : Nat) : Bool :=
  let ts := q.bytes.map (fun b => s.tgt x l b q.wr)
  if g = tgFrame then q.wr && ts.any (fun t => match t with | .scratch _ | .frame _ => true | _ => false)
  else if g = tgFabric then q.wr && ts.any (fun t => match t with | .fabric _ | .cmd _ _ => true | _ => false)
  else decide (g = tgRead) && (!q.wr && ts.any (fun t => match t with | .fabric _ | .sysrec _ => true | _ => false))

/-- The lanes in which the instruction at PC of a running context produces an item of a per-lane group; for a shared group lane 0 stands for
the pair. A context that runs nothing produces none. -/
def State.produced (s : State) (c : Cx) (g : Nat) : BitVec 256 :=
  let x := s.cx c
  if !x.running then 0
  else
    let i := s.atPc c
    let on := x.acting (allLanes i)
    if tgFlow ≤ g then (if (sharedMade i).contains g then 1 else 0)
    else laneSet ((on.filter (fun e =>
      if g = tgRf then writesRf i else (jAccs s x i e.2).any (fun q => s.accMakes x e.1 q g))).map (fun e => e.1))

/-- The lanes of a pair. -/
def pairLanes (c : Cx) : BitVec 256 := match c with | .press _ => BitVec.allOnes 256 | .scalar _ => 1

/-- Differences as they reach the comparator: those in bits of an item that the instruction at PC produces. A valid bit that differs is an item
that one copy alone produces, which any lane may (R377). -/
def State.reaching (s : State) (c : Cx) (fs : List TwinFlip) : List TwinFlip :=
  let scalar := match c with | .press _ => false | .scalar _ => true
  fs.filterMap (fun f =>
    (twinBit scalar f.bit).bind (fun e =>
      let lanes := if e.2.1 = tgValid then pairLanes c else s.produced c e.1 &&& pairLanes c
      if f.bit < 100 then some { f with lanes := f.lanes &&& lanes } else if lanes = 0 then none else some { f with lanes := 0 }))

/-- What the comparator of a pair registers of the differences in its shadow's items at the instruction at PC, if anything (R377, R382). -/
def State.twinSees (s : State) (c : Cx) (fs : List TwinFlip) : Option TwinDiff :=
  if s.mainRuns then twinCompare (match c with | .press _ => false | .scalar _ => true) (s.reaching c fs) else none

/-! ### The injection test (R387 … R389) -/

/-- Patterns of a pair's test (R388): bit walk, lane walk, shared walk, null, fence path. -/
def twinPatterns (scalar : Bool) : Nat := if scalar then 191 else 956

/-- What pattern `i` forces into the shadow's items (R388); none for the null pattern and the fence path. -/
def injected (scalar : Bool) (i : Nat) : Option TwinFlip :=
  let lanes := if scalar then 1 else 256
  if i < 100 then some { bit := i, lanes := if scalar then 1 else BitVec.allOnes 256 }
  else if i < 100 + lanes then some { bit := 0, lanes := BitVec.ofNat 256 (2 ^ (i - 100)) }
  else if i + 2 < twinPatterns scalar then some { bit := i - lanes, lanes := 0 }
  else none

/-- What the comparator must register of pattern `i`, whose stream produces every item in every lane (R387, R388). -/
def expected (scalar : Bool) (i : Nat) : Option TwinDiff := (injected scalar i).bind (fun f => twinCompare scalar [f])

/-- Whether a pattern gave its expected result exactly, within 3 clocks (R388, R389): no mismatch in the null pattern, a fence seen at both ends
in the fence path. -/
def patternOk (scalar : Bool) (i : Nat) (r : TwinSeen) : Bool :=
  if i + 1 = twinPatterns scalar then r.diff.isSome && r.fence
  else if i + 2 = twinPatterns scalar then r.diff.isNone
  else decide (r.diff = expected scalar i) && decide (r.clocks ≤ 3)

/-- The patterns that failed, in ascending order, where `seen` tells what the patterns gave that it lists; every other gave what it should. -/
def failedPatterns (scalar : Bool) (seen : List (Nat × TwinSeen)) : List Nat :=
  if seen.isEmpty then [] else (List.range (twinPatterns scalar)).filter (fun i => seen.any (fun e => decide (e.1 = i) && !patternOk scalar i e.2))

end Sys2Proof.Machine
end

