-- ==== Sys2Proof/Machine/Twin.lean ====
section
/-! DEFINITION. Twin comparison: fences, the proof of a spare, and divergence of a scalar pair (spec/12_twin_presses.md). -/

namespace Sys2Proof.Machine

/-- Causes of a fence (PRESS_TWIN_STAT). -/
abbrev twTest : Nat := 1
abbrev twDiverged : Nat := 2
abbrev twForced : Nat := 3
abbrev twProof : Nat := 4

/-- The capture registers are written, once (PRESS_TWIN_MISMATCH … PRESS_TWIN_LANES). The PC is that of the instruction the
context was about to complete. -/
def State.twinCapture (s : State) (c : Cx) (m : TwinDiff) : State :=
  let pg := cxPage c
  let x := s.cx c
  if s.fbit (fTWIN_STAT_CAPTURED pg) then s
  else
    let s1 := ((s.fset (fTWIN_MISMATCH_GROUP pg) m.group).fset (fTWIN_MISMATCH_BIT pg) m.bit).fset (fTWIN_MISMATCH_LANE pg) m.lane
    let s2 := s1.when x.running (fun t =>
      (((t.fset (fTWIN_WHERE_PARTITION pg) x.part).fset (fTWIN_WHERE_VALID pg) 1).fset (fTWIN_WHERE_PC pg) x.pc.toNat).fset
        (fTWIN_RELEASED_COUNT pg) x.released)
    let s3 := s2.when x.running (fun t =>
      ((t.fset (fTWIN_ROW_LATE pg) (b2n (!x.scalar && (t.row x.row).jobLate))).fset (fTWIN_ROW_ROW pg) (if x.scalar then x.bind / 256 else x.row)).fset
        (fTWIN_ROW_CYCLE pg) (x.cycle % 65536))
    let s4 := (s3.fset (fTWIN_LT_LO_LT pg) (s.lt.toNat % 2 ^ 32)).fset (fTWIN_LT_HI_LT pg) (s.lt.toNat / 2 ^ 32)
    let s5 := (List.range 8).foldl (fun t i => t.fset (fTWIN_LANES_LANES pg i) (m.lanes.toNat / 2 ^ (32 * i) % 2 ^ 32)) s4
    s5.when (decide (m.group ≠ 0)) (fun t => t.fset (fTWIN_STAT_CAPTURED pg) 1)

/-- The cellar book record of a fence (spec/19_management.md R577). -/
def State.fenceRecord (s : State) (pair part pc : Nat) (m : TwinDiff) : State :=
  s.cellar 0x0015 pair (m.group * 65536 + m.bit) (part * 2 ^ 24 + m.lane * 65536 + pc)

/-- P after a change of the pairs in service (R59, R73): the pairs that serve and the spares that will, at most 32. -/
def State.pairsChanged (s : State) : State :=
  let st (k : Nat) : Nat := s.fget (fPAIR_STAT_STATE (pressPage k))
  let n := ((List.range 34).filter (fun k => decide (st k ≤ stWb) || decide (st k = stSpare) || decide (st k = stTest))).length
  let p := min 32 n
  let old := s.fget fSCHED_PAIRS_IN_SERVICE
  let s1 := (s.fset fSCHED_PAIRS_IN_SERVICE p).fset fSCHED_CAPACITY_CLOCKS (p * 1225 * s.bc)
  (s1.when (decide (p < old)) (fun t => (t.fset fSCHED_STAT_NO_SPARE 1).assertEv 677)).overcommit

/-- The row that a fenced pair was executing (R72, R384): class S and F are stretched, a stretched one is abandoned, class G and V
return to the ready rows. -/
def State.fenceRow (s : State) (k : Fin 34) : State :=
  let x := s.cx (.press k)
  if x.running || x.ended then
    let r := x.row
    let s1 := (s.clearFrame k.val x.frame).fset (fSCHED_ROW_STAT_CLAIM r) clReady
    let v := s1.row r
    if v.stopped = some x.cycle then s1.nextWork r
    else if v.jobLate then (s1.setRow r (v.pour (x.cycle + 1) none)).nextWork r
    else if s1.classOf r ≤ 1 then s1.stretch r x.cycle
    else s1.setRow r { v with decs := v.decs.filter (fun e => decide (e.1 ≠ x.cycle) || decide (e.2 ≠ 1)) }
  else s

/-- Spares whose proof a fence in service abandons: they are reset and enter service at the next placement decision (R390). -/
def State.abandonProofs (s : State) : State :=
  (List.range 34).foldl (fun t k =>
    t.when (decide (t.fget (fPAIR_STAT_STATE (pressPage k)) = stTest)) (fun u => u.fset (fPAIR_STAT_STATE (pressPage k)) stSpare)) s

/-- Fences press pair `k` (R382, R385, R72). What it wrote before the instruction at PC has matched and is out (R383); nothing later leaves it.
A pair under test counts as a spare where it is named as one (R389, R390). -/
def State.fencePair (s0 : State) (k : Fin 34) (cause : Nat) (m : TwinDiff) : State :=
  let pg := pressPage k.val
  let c := Cx.press k
  let st := s0.fget (fPAIR_STAT_STATE pg)
  if st = stFenced then s0
  else
    let s := s0.releaseBuf c true
    let x := s.cx c
    let spare := decide (st = stSpare) || (decide (st = stTest) && s.spares.contains k.val)
    let s1 := if cause = twProof ∨ cause = twTest then s else s.twinCapture c m
    let s2 := (s1.fenceRow k).setCx c {}
    let s3 := [0, 1].foldl (fun t i => t.voidFrame k.val i) s2
    let s4 := ((s3.fset (fPAIR_STAT_STATE pg) stFenced).fset (fTWIN_STAT_CAUSE pg) cause).fset
      (if k.val < 32 then ⟨rSCHED_FENCED_LO, k.val, k.val⟩ else ⟨rSCHED_FENCED_HI, k.val - 32, k.val - 32⟩) 1
    let s5 := s4.tagEpochNext (cxIdx c)
    let s6 := s5.when spare (fun t => t.fset fSCHED_PAIRS_SPARES_LEFT (t.fget fSCHED_PAIRS_SPARES_LEFT - 1))
    let s7 := (s6.assertEv 679).fenceRecord k.val x.part (if x.running then x.pc.toNat else 0) m
    (s7.when (!spare && decide (cause ≠ twTest)) (fun t => t.abandonProofs)).pairsChanged

/-- TWIN_MISMATCH (R377, R382): the items of the two copies differ in `m` at the instruction at PC; what reaches the comparator fences the pair.
A pair under test or already fenced compares nothing of its own. -/
def execTwinMismatch (k : Fin 34) (m : List TwinFlip) (s : State) : Out :=
  let st := s.fget (fPAIR_STAT_STATE (pressPage k.val))
  .next (match s.twinSees (.press k) m with
    | some d => if st = stTest ∨ st = stFenced then s else s.fencePair k twDiverged d
    | none => s)

/-- Stores the cellar book records that wait and commits them. -/
def State.cellarNow (s : State) : State := (s.cellarQ.foldl (fun (t : State) r => t.cbTake r) { s with cellarQ := [] }).cbCommit

/-- A scalar pair diverges (R386): it stops and is recorded, the record is committed, and the module resets with cause TWIN_SCALAR, in which
the ports are silent, ACTIVE_OUT is low and FAULT_N asserted. -/
def State.scalarDiverged (s : State) (j : Fin 16) (m : TwinDiff) : State :=
  let c := Cx.scalar j
  let pg := scalarPage j.val
  let s0 := s.releaseBuf c true
  let x := s0.cx c
  let s1 := (((s0.twinCapture c m).fset (fTWIN_STAT_CAUSE pg) twDiverged).fset (fPAIR_STAT_STATE pg) stFenced).setCx c {}
  let s2 := (s1.assertEv 679).fenceRecord (64 + j.val) x.part (if x.running then x.pc.toNat else 0) m
  s2.cellarNow.moduleReset 7 j.val

/-- SCALAR_MISMATCH (R377, R386): the items of the two copies differ in `m` at the instruction at PC. -/
def execScalarMismatch (j : Fin 16) (m : List TwinFlip) (s : State) : Out :=
  let st := s.fget (fPAIR_STAT_STATE (scalarPage j.val))
  .next (match s.twinSees (.scalar j) m with
    | some d => if st = stTest ∨ st = stFenced then s else s.scalarDiverged j d
    | none => s)

/-- Writing PROOF to a spare (R390). -/
def State.startProof (s : State) (k : Nat) : State :=
  if s.fget (fPAIR_STAT_STATE (pressPage k)) = stSpare then s.fset (fPAIR_STAT_STATE (pressPage k)) stTest else s

/-- The result of an injection test in TWIN_TEST (R389): the failed patterns, and the first of them. -/
def State.twinResult (s : State) (pg : Nat) (failed : List Nat) : State :=
  (((s.fset (fTWIN_TEST_RAN pg) 1).fset (fTWIN_TEST_PASS pg) (b2n failed.isEmpty)).fset (fTWIN_TEST_FAILS pg)
    (min failed.length 1023)).fset (fTWIN_TEST_FIRST_FAIL pg) (failed.headD 0x3FF)

/-- The injection test of a pair has run (R388, R389): the fence path has advanced its tag epoch, and the result stands in TWIN_TEST. -/
def State.twinTested (s : State) (c : Cx) (failed : List Nat) : State := (s.tagEpochNext (cxIdx c)).twinResult (cxPage c) failed

/-- PROOF_DONE (R390): the patterns of R388 have run on a spare; pattern `pats[i]` gave `gave[i]`. -/
def execProofDone (k : Fin 34) (pats : List Nat) (gave : List TwinSeen) (s : State) : Out :=
  let pg := pressPage k.val
  if s.fget (fPAIR_STAT_STATE pg) = stTest ∧ s.fget fRST_START_PHASE ≠ phStarting ∧ s.mainRuns = true then
    let failed := failedPatterns false (pats.zip gave)
    let s1 := s.twinTested (.press k) failed
    .next (if failed.isEmpty then (s1.fset (fPAIR_STAT_STATE pg) stSpare).fsat (fTWIN_STAT_PROOFS pg)
      else s1.fencePair k twProof {})
  else .next s

end Sys2Proof.Machine
end

