-- ==== Sys2Proof/Machine/Power.lean ====
section
/-! DEFINITION. Supplies, reset pins, clocks, the flush and the watchdog's expiry (spec/20_reset_watchdog_cask.md R584 … R615, spec/21_electrical_mechanical.md R620 … R624). -/

namespace Sys2Proof.Machine

/-- Registers of the real-time clock, which VBAT keeps (spec/16_engineering_time.md R503, R508). -/
def rtcReg (off : Nat) : Bool := decide (rTIME_RTC_SEC_LO ≤ off) && decide (off ≤ rTIME_RTC_STAT)

/-- The always-on island without power (R624): everything but the clock, the cask, the flash and
the local-IO field die, which its field supply feeds, is lost. -/
def State.auxLost (s : State) : State :=
  { pending := s.pending, out := s.out, free := s.free, fuses := s.fuses, cask := s.cask, flash := s.flash
    scrubDue := s.scrubDue, pins := s.pins, rtcFired := s.rtcFired, lioF := s.lioF, regs := s.regs.filter (fun e => rtcReg e.1) }

/-- AUX3V3_LOSS (R624). -/
def execAux3v3Loss (s : State) : Out := .next { s.auxLost with pins := { s.pins with aux := false } }

/-- POWER_ON (R585, R590): AUX3V3 rises; RST_CAUSE holds POWER_ON alone. -/
def execPowerOn (s : State) : Out :=
  let s1 : State := { s.auxLost with pins := { s.pins with aux := true } }
  .next ((s1.setReg rRST_CAUSE 2).fset fRST_LAST_CAUSE 1)

/-- MAIN_POWER_GOOD (R623). -/
def execMainPowerGood (s : State) : Out := .next { s with pins := { s.pins with main := true } }

/-- A flush that MAIN_POWER or a clock loss stops (R612): the retained marker is cleared, the next start is cold. -/
def State.flushAbort (s : State) : State :=
  if s.fget fRST_START_PHASE = phFlush then
    let s1 := s.when s.flush.main (fun t => t.caskPut (addrBytes (regionAt 5).1 (leBytes 4 0)))
    (s1.fset fRST_FLUSH_RESULT 3).fset fRST_FLUSH_US ((s.lt.toNat - s.flush.since + 500) / 1000)
  else s

/-- MAIN_POWER_LOSS (R585, R612, R624): the module resets with cause MAIN_POWER in any phase; a flush in hand stops. -/
def execMainPowerLoss (s : State) : Out :=
  let s1 := { s.flushAbort with pins := { s.pins with main := false } }
  .next (s1.resetNow 2 0)

/-- RESET_N_ASSERT (R594): taken in every phase but FLUSH and HELD; the reset is held while the pin stays low. -/
def execResetNAssert (s : State) : Out :=
  let ph := s.fget fRST_START_PHASE
  .next (if ph = phFlush ∨ ph = phHeld then s
    else ({ s with pins := { s.pins with resetN := false } }).resetNow 3 0)

/-- RESET_N_RELEASE (R594). -/
def execResetNRelease (s : State) : Out := .next { s with pins := { s.pins with resetN := true } }

/-- PWR_FAIL_N_ASSERT (R611, R612): taken in STARTING, OPERATING, RECOVERY and TEST. -/
def execPwrFailNAssert (s : State) : Out :=
  let ph := s.fget fRST_START_PHASE
  let s1 := { s with pins := { s.pins with pwrFailN := false } }
  .next (if ph = phFlush ∨ ph = phHeld then s1 else s1.startFlush none)

/-- Whether every clock of the main die is good. -/
def State.clocksOk (s : State) : Bool := s.fbit fRST_CLOCK_TCXO_OK && s.fbit fRST_CLOCK_MAIN_OK

/-- PWR_FAIL_N_RELEASE (R612): the pin is high and the input has been in range for 100 ms; a module held by a flush starts with
cause PWR_FAIL. -/
def execPwrFailNRelease (s : State) : Out :=
  let s1 := { s with pins := { s.pins with pwrFailN := true } }
  .next (if s.fget fRST_START_PHASE = phHeld ∧ s.clocksOk = true then s1.resetNow 13 0 else s1)

/-- ACTIVE_OUT falls, which closes the field engine gate (spec/14_racking_standby.md R417). -/
def State.activeOff (s : State) : State := (s.fset fRACK_STAT_ACTIVE_OUT 0).fset fRACK_STAT_GATE 0

/-- Whether FAULT_N is asserted, that is low (R588): from any reset until the main die is released, during a clock loss and in HELD, in RECOVERY and
factory test, and from the end of a flush's stop phase. Without AUX3V3 the open drain is high-impedance (spec/21_electrical_mechanical.md R624). -/
def State.faultN (s : State) : Bool :=
  let ph := s.fget fRST_START_PHASE
  s.pins.aux && !(decide (ph = phOperating) || (decide (ph = phFlush) && (s.flush.main && !s.flush.quiet)))

/-- The frequency that SQW shows, in Hz; 0 where it is low (spec/16_engineering_time.md R507). -/
def State.sqwHz (s : State) : Nat :=
  if s.pins.aux then [0, 1, 1024, 4096, 32768].getD (s.fget fTIME_RTC_CTRL_SQW) 0 else 0

/-- FLUSH_STOP_PHASE (R612): the REST window has closed; the ports fall silent and ACTIVE_OUT drops. -/
def execFlushStopPhase (s : State) : Out :=
  .next (if s.fget fRST_START_PHASE ≠ phFlush ∨ s.flush.quiet = true then s
    else { s.activeOff with
      flush := { s.flush with
        quiet := true, cycle := s.cycle.toNat, lt := s.lt.toNat, sec := s.wallSec, epoch := s.wall.epoch } })

/-- The 4 KB header of the retained image (R614). -/
def State.retainHeader (s : State) : List Byte :=
  let l := s.opt.retain
  let h := leBytes 4 0xF1A50001 ++ leBytes 4 0 ++ leBytes 8 s.flush.cycle ++ leBytes 8 s.flush.lt ++ leBytes 5 s.flush.sec
    ++ leBytes 1 s.flush.epoch ++ leBytes 2 0 ++ leBytes 2 l.length ++ List.replicate 14 0
    ++ (List.range 32).flatMap (fun i => let e := l.getD i (0, 0); leBytes 4 e.1 ++ leBytes 4 e.2) ++ List.replicate 3788 0
  h ++ leBytes 4 (crc32 h)

/-- The retained ranges, packed in list order. -/
def State.retainData (s : State) : List Byte := s.opt.retain.flatMap (fun e => s.rdList e.1 e.2)

/-- FLUSH_DONE (R612): the commit in progress completes, `calRows` row blocks of a calibration save had been written when it was
abandoned, the cellar book's rest is committed, and the retained image is written where there is one; `ok` tells whether the
cask took it. The module is HELD, or the reset that the flush ran for takes effect. -/
def execFlushDone (ok : Bool) (calRows : Nat) (s : State) : Out :=
  if s.fget fRST_START_PHASE ≠ phFlush ∨ s.flush.quiet = false then .next s
  else
    let base := (regionAt 5).1
    let image := s.flush.main && !s.opt.retain.isEmpty
    let s1 := (s.caskDone true).when (s.fbit fCASK_OPT_STAT_BUSY) (fun t => t.optDone true)
    let s2 := s1.when s1.calSaving (fun t => t.calSaveEnd calRows 2)
    let s3 := s2.cellarQ.foldl (fun t r => t.cbTake r) { s2 with cellarQ := [] }
    let s4 := s3.cbCommit
    let s5 := if image then (s4.caskPut (addrBytes base (leBytes 4 0))).caskWrite (base + 0x1000) s4.retainData else s4
    let s6 := if image && ok then s5.caskWrite base s5.retainHeader else s5
    let s7 := (s6.fset fRST_FLUSH_RESULT (if !ok then 4 else if image then 1 else 2)).fset fRST_FLUSH_US
      ((s.lt.toNat - s.flush.since + 500) / 1000)
    match s7.flushFor with
    | some (c, d) => .next (s7.resetNow c d)
    | none => .next (s7.fset fRST_START_PHASE phHeld)

/-- The clock's bit in RST_CLOCK. -/
def clkFld : Clk → Fld
  | .tcxo => fRST_CLOCK_TCXO_OK
  | .main => fRST_CLOCK_MAIN_OK
  | .mgt => fRST_CLOCK_MGT_OK

/-- The management island restarts (spec/19_management.md R555): its cause, and what it no longer answers until the end. The CAN
controllers and the local-IO logic die are reset with it (R512, R531), and the engineering service loses its requests. The management
path's tag epoch advances (spec/03_partitions_fabric.md R119). -/
def State.mgtRestart (s : State) (cause : Nat) : State :=
  let s1 := ((s.fset fMGT_LAST_RESTART_CAUSE cause).fsat fMGT_STAT_RESTARTS).lioReset.canReset
  { s1 with mgt := { s1.mgt with down := true }, eng := {} }.tagEpochNext inMgmt

/-- MGT_WATCHDOG_EXPIRY (R555). -/
def execMgtWatchdogExpiry (s : State) : Out := .next (s.mgtRestart 1)

/-- MGT_FAULT (R555): a fault of the processor. -/
def execMgtFault (s : State) : Out := .next (s.mgtRestart 3)

/-- CLOCK_LOSS (R595): the TCXO or the fabric clock is lost: ACTIVE_OUT drops, the record is written and the main die is held as it
stands. The management clock alone restarts the management island. -/
def execClockLoss (k : Clk) (s : State) : Out :=
  let s1 := s.fset (clkFld k) 0
  match k with
  | .mgt => .next (s1.mgtRestart 3)
  | _ =>
    if !s.clocksOk then .next s1
    else .next ((((s1.fset fRST_CLOCK_LOST 1).flushAbort.activeOff).cellar 0x0029 0 0 0).fset fRST_START_PHASE phHeld)

/-- CLOCK_RETURN (R596): once every main clock is good again the module resets with cause CLOCK_LOSS. -/
def execClockReturn (k : Clk) (s : State) : Out :=
  let s1 := s.fset (clkFld k) 1
  match k with
  | .mgt => .next s1
  | _ => .next (if !s.clocksOk ∧ s1.clocksOk then s1.resetNow 10 0 else s1)

/-- WDT_EXPIRY (R602): no service by the end of the period. -/
def execWdtExpiry (s : State) : Out :=
  .next (if s.wdtStart + 1000 * s.opt.wdtPeriod ≤ s.lt.toNat then s.wdtExpire else s)

/-- THERMAL_TRIP (spec/19_management.md R571). -/
def execThermalTrip (s : State) : Out := .next (s.moduleReset 9 0)

/-- ILLEGAL_STATE_DETECTION (R585): unit state that fails its check is a critical-state error that resets the module. -/
def execIllegalStateDetection (unit : Nat) (s : State) : Out := .next (s.critReset 4 unit)

/-- START_OK_EXPIRY (R593). -/
def execStartOkExpiry (s : State) : Out :=
  .next (match s.mgt.releasedAt with
    | some t =>
      if (s.startOk && decide (t + 1000000000 * s.opt.startOkS ≤ s.lt.toNat)) = true then
        { s.fset fRST_START_FAIL_COUNT 0 with startOk := false }
      else s
    | none => s)

end Sys2Proof.Machine
end

