-- ==== Sys2Proof/Machine/Start.lean ====
section
/-! DEFINITION. A start: bank choice, option block, settings, the injection test, release of the main die and the warm restart (spec/19_management.md R556 … R566, spec/20_reset_watchdog_cask.md R588 … R597, R615, spec/12_twin_presses.md R387 … R389). -/

namespace Sys2Proof.Machine

/-- A change of SCHED_SPARE takes effect (spec/02_control_cycle.md, SCHED_SPARE): idle pairs newly named stand by as spares, and spares no
longer named serve. -/
def State.takeSpares (s : State) : State :=
  let l := [s.fget fSCHED_SPARE_SPARE0, s.fget fSCHED_SPARE_SPARE1]
  if l = s.spareNow then s
  else
    let st (t : State) (k : Nat) : Nat := t.fget (fPAIR_STAT_STATE (pressPage k))
    let s1 := (List.range 34).foldl (fun t k =>
      if l.contains k && decide (st t k = stIdle) then t.fset (fPAIR_STAT_STATE (pressPage k)) stSpare
      else if !l.contains k && decide (st t k = stSpare) then t.fset (fPAIR_STAT_STATE (pressPage k)) stIdle
      else t) { s with spareNow := l }
    (s1.fset fSCHED_PAIRS_SPARES_LEFT (l.filter (fun k => decide (st s1 k = stSpare))).length).pairsChanged

/-- SYS_MODULE_MODE.CUR changes, with its record (spec/19_management.md R577); PART_CTRL[0].REQ reads the module's mode
(spec/03_partitions_fabric.md R77). -/
def State.setModule (s : State) (cur : Nat) : State :=
  let old := s.fget fSYS_MODULE_MODE_CUR
  if old = cur then s
  else
    let s1 := (s.fset fSYS_MODULE_MODE_CUR cur).fset (fPART_CTRL_REQ 0) (if cur = 0 then 0 else 1)
    (s1.cellar 0x0002 old cur 0).when (decide (old = 1) && decide (cur = 0)) (fun t => t.takeSpares)

/-- RST_START.WHY. -/
abbrev whyRequested : Nat := 1
abbrev whyModeSel : Nat := 2
abbrev whyFailLimit : Nat := 3
abbrev whyOption : Nat := 4
abbrev whyRom : Nat := 5

/-- Boot modes (R561). -/
abbrev btConfirmed : Nat := 0
abbrev btTrial : Nat := 1
abbrev btFallback : Nat := 2

/-- choose() (R561): the BOOT record is saved without its trial before the trial bank is used; the bank and how it boots. -/
def State.choose (s : State) : State × Option Nat × Nat :=
  let b := s.boot
  let rest (t : State) : State × Option Nat × Nat :=
    let c := b.confirmed
    let t1 := t.bankCheck c
    if t1.imgValid c then (t1, some c, btConfirmed)
    else
      let t2 := t1.bankCheck (1 - c)
      if t2.imgValid (1 - c) then (t2, some (1 - c), btFallback) else (t2, none, bootRom)
  match b.trial with
  | none => rest s
  | some k =>
    let s1 := (s.setBootRec { b with trial := none }).bankCheck k
    if s1.imgValid k then (s1, some k, btTrial) else rest s1

/-- Step 0 of a start (R556, R561): the bank is chosen and the firmware boots from it; a trial that was not confirmed is recorded as
abandoned. -/
def State.bootStep (s : State) : State :=
  let old := s.boot
  let q := s.setCheck setBoot |>.choose
  let s1 := (q.1.fset fMGT_STAT_BOOT q.2.2).fset fMGT_STAT_BANK (q.2.1.getD 0)
  match q.2.1 with
  | none => (s1.fset fMGT_FW_REV_REV 0).fset fMGT_STAT_TRIAL_PEND (b2n s1.boot.trial.isSome)
  | some b =>
    let s2 := (s1.fset fMGT_FW_REV_REV (leAt (s1.imgHeader b) 8 4)).setBootRec { s1.boot with bank := b, mode := q.2.2 }
    s2.when (decide (old.mode = btTrial)) (fun t => t.fwRecord fwAbandoned old.bank)

/-- Wall time in units of 2^−16 ns as the real-time clock holds it (spec/16_engineering_time.md R502, R503). -/
def State.rtcTicks (s : State) : Int :=
  ((s.fget fTIME_RTC_SEC_LO_SEC + 2 ^ 32 * s.fget fTIME_RTC_SEC_HI_SEC) * 65536000000000
    + s.fget fTIME_RTC_FRAC_FRAC * 2000000000 : Nat)

/-- The wall offset is set from the clock when line time starts (R502); a clock that did not lose its count makes it known. -/
def State.wallStart (s0 : State) : State :=
  let s := s0.rtcCount
  let s1 := { s with wall := { s.wall with off := s.rtcTicks - (s.lt.toNat : Int) * 65536, epoch := 0 } }
  s1.when (!s.fbit fTIME_RTC_STAT_LOST) (fun t => t.fset fTIME_STAT_WALL_UNSET 0)

/-- A start into RECOVERY (spec/20_reset_watchdog_cask.md R592). -/
def State.toRecovery (s : State) (why : Nat) : State :=
  let s1 := ((s.fset fRST_START_PHASE phRecovery).fset fRST_START_WHY why).setModule 2
  s1.wallStart

/-- The START record (R577): P0 bank and mode as MGT_STAT bits 31:29 show them, P1 RST_LAST (R586), P2 the image revision. -/
def State.startRecord (s : State) : State :=
  s.cellar 0x0001 (s.fget fMGT_STAT_BOOT * 2 + s.bootBank) (s.reg rRST_LAST).toNat (s.fget fMGT_FW_REV_REV)

/-- The settings records are read and the cellar book restored where needed (R556). -/
def State.startRecords (s : State) : State :=
  ([setGenT, setEng, setTime, setSensor, setCellar, setLife].foldl (fun t k => t.setRead k) s).cbRestore.startRecord

/-- The patterns that a pair failed, by what a start found of it. -/
def pairFailed {n : Nat} (scalar : Bool) (l : List (Fin n × List (Nat × TwinSeen))) (k : Fin n) : List Nat :=
  failedPatterns scalar ((l.filter (fun e => decide (e.1 = k))).flatMap (fun e => e.2))

/-- The injection test of every pair (spec/12_twin_presses.md R387 … R389) and whether step 5 has failed: a pair that passes enters IDLE or SPARE; one or
two press pairs that fail are fenced, and spares take their places. -/
def State.injection (s : State) (f : StartFacts) : Bool × State :=
  let s1 := (List.finRange 34).foldl (fun t k =>
    let failed := pairFailed false f.press k
    (t.twinTested (.press k) failed).when failed.isEmpty (fun u =>
      u.fset (fPAIR_STAT_STATE (pressPage k.val)) (if u.spares.contains k.val then stSpare else stIdle))) s
  let s2 := (List.finRange 16).foldl (fun t j =>
    let failed := pairFailed true f.scalar j
    (t.twinTested (.scalar j) failed).when failed.isEmpty (fun u => u.fset (fPAIR_STAT_STATE (scalarPage j.val)) stIdle)) s1
  let bad := (List.finRange 34).filter (fun k => !(pairFailed false f.press k).isEmpty)
  if (decide (3 ≤ bad.length) || (List.finRange 16).any (fun j => !(pairFailed true f.scalar j).isEmpty)) = true then (true, s2)
  else
    let s3 := bad.foldl (fun t k => t.fencePair k twTest {}) s2
    (false, s3.spares.foldl (fun t k => t.enterSpare k) s3)

/-- A start's steps 0 … 5 have ended. -/
def State.startEnded (s : State) : State := { s with mgt := { s.mgt with startDone := true } }

/-- START_SEQUENCE (R556, R591, R592, R597): runs where both supplies are present, RESET_N is high and no start has run since the
reset. -/
def execStartSequence (f : StartFacts) (s : State) : Out :=
  if (!s.pins.aux || !s.pins.main || !s.pins.resetN || s.mgt.startDone || decide (s.fget fRST_START_PHASE ≠ phStarting)) = true then
    .next s
  else
    let s0 := (s.fset fRST_START_MODE_SEL f.modeSel.val).bootStep
    let q := s0.optLoad
    let s1 := q.2
    if s1.inRom then .next ((s1.toRecovery whyRom).startEnded)
    else
      let s2 : State := { s1.startRecords with recReq := false }
      if f.modeSel.val = 2 then .next ((s2.fset fRST_START_PHASE phTest).startEnded)
      else if s.recReq then .next ((s2.toRecovery whyRequested).startEnded)
      else if f.modeSel.val ≠ 0 then .next ((s2.toRecovery whyModeSel).startEnded)
      else if s2.fget fRST_START_FAIL_COUNT = s2.opt.failLimit then .next ((s2.toRecovery whyFailLimit).startEnded)
      else if !q.1 then .next ((s2.toRecovery whyOption).startEnded)
      else match f.loadFail with
        | some k => .next (s2.moduleReset 12 (k.val + 2))
        | none =>
          let r := s2.panelLoad.trainLanes.injection f
          if r.1 then .next (r.2.moduleReset 12 5) else .next r.2.startEnded

/-- RST_RETAIN.RESULT. -/
abbrev rtRestored : Nat := 1
abbrev rtNoMarker : Nat := 2
abbrev rtListDiff : Nat := 3
abbrev rtDisabled : Nat := 4
abbrev rtStandby : Nat := 5

/-- How this start treats the retained image (spec/20_reset_watchdog_cask.md R615): a reason that makes it cold, if any. -/
def State.warmCheck (s : State) : Option Nat :=
  let h := s.caskList (regionAt 5).1 0x1000
  let want := leBytes 2 s.opt.retain.length
  let list := (List.range 32).flatMap (fun i => let e := s.opt.retain.getD i (0, 0); leBytes 4 e.1 ++ leBytes 4 e.2)
  if !s.opt.warmEn then some rtDisabled
  else if s.standby then some rtStandby
  else if leAt h 0 4 ≠ 0xF1A50001 ∨ leAt h 0xFFC 4 ≠ crc32 (h.take 0xFFC) then some rtNoMarker
  else if (h.drop 0x20).take 2 ≠ want ∨ (h.drop 0x30).take 256 ≠ list then some rtListDiff
  else none

/-- The start set component of the booted image (R557, R558): its place in the bank and its length. -/
def State.startSetComp (s : State) : Option (Nat × Nat) :=
  let h := s.imgHeader s.bootBank
  ((List.range (leAt h 6 2)).map (compAt h)).findSome? (fun c => if c.1 = 6 then some (c.2.1, c.2.2) else none)

/-- MAIN_DIE_RELEASE (spec/20_reset_watchdog_cask.md R590, R615): once the steps have ended and the role is decided; a standby first
has the peer's line time (spec/14_racking_standby.md R419, R428). Line time starts, T(0) is fixed (spec/02_control_cycle.md R44), the image is
cleared, and the restores begin. -/
def execMainDieRelease (s : State) : Out :=
  if (decide (s.fget fRST_START_PHASE ≠ phStarting) || !s.mgt.startDone || (!s.becomesActive && !s.standby)
      || (s.standby && !s.mgt.peerTime)) = true then .next s
  else
    let s1 : State :=
      { s.fset fRST_START_PHASE phOperating with
        mem := SMap.clearRange 0x2000000 0x3A00000 s.mem
        lt := if s.standby then s.lt else 0
        ltFrac := if s.standby then s.ltFrac else 0
        startOk := true }
    let bc := s1.bc * 1000
    let s2 := ({ s1 with mgt := { s1.mgt with
        releasedAt := some s1.lt.toNat
        lifeAt := s1.lt.toNat
        t0 := (s1.lt.toNat + 100000 + bc - 1) / bc * bc
        startSet := if s1.standby then none else s1.startSetComp.map (fun (c : Nat × Nat) => (c.1, 0)) } }).wallStart
    let s3 := s2.calBegin
    let s4 := match s3.warmCheck with
      | some r => s3.fset fRST_RETAIN_RESULT r
      | none => s3.fset fRST_RETAIN_BUSY 1
    .next (if (!s4.standby && s4.opt.autoStart) = true then
        { (s4.fset fSYS_MODULE_MODE_REQ 0).fset fSYS_MODULE_MODE_BUSY 1 with modeReqPend := true }
      else s4)

/-- WARM_RESTORE_DONE (R615): each retained range is back in the image, and the marker is cleared in one commit. -/
def execWarmRestoreDone (s : State) : Out :=
  .next (if !s.fbit fRST_RETAIN_BUSY then s
    else
      let base := (regionAt 5).1
      let h := s.caskList base 0x20
      let q := s.opt.retain.foldl (fun (a : Nat × State) e =>
        (a.1 + e.2, a.2.wrBytes e.1 (a.2.caskList (base + 0x1000 + a.1) e.2))) (0, s)
      let s1 := q.2.caskWrite base (leBytes 4 0)
      let s2 := ((s1.fset fRST_RETAIN_BUSY 0).fset fRST_RETAIN_RESULT rtRestored).fset fRST_RETAIN_KB (q.1 / 1024)
      let s3 := (s2.fset fRST_RETAIN_CYCLE_LO_CYCLE (leAt h 8 4)).fset fRST_RETAIN_CYCLE_HI_CYCLE (leAt h 12 4)
      s3.fset fRST_START_WARM 1)

/-- FLASH_SCRUB (R562): every 90 days of line time, and at the first start after a new image has been confirmed; the firmware runs. -/
def execFlashScrub (s : State) : Out :=
  .next (if (s.mgtRuns && !s.mgt.scrubbing && (s.scrubDue || decide (s.mgt.scrubAt + 7776000000000000 ≤ s.lt.toNat))) = true then
    { s with scrubDue := false, mgt := { s.mgt with scrubbing := true, scrubAt := s.lt.toNat } } else s)

/-- SCRUB_END (R562): both images are checked; one that fails sets BAD and writes a FW record. -/
def execScrubEnd (s : State) : Out :=
  .next (if !s.mgtRuns || !s.mgt.scrubbing then s
    else [0, 1].foldl (fun t b =>
      let t1 := t.bankCheck b
      if t1.imgValid b then t1 else t1.fwRecord fwScrubBad b) { s with mgt := { s.mgt with scrubbing := false } })

/-- LIFE_SAVE (R566, R572): after each hour of line time the hours, and the average of sensor 0 over them, are saved. -/
def execLifeSave (s : State) : Out :=
  if !s.mgtRuns || decide (s.lt.toNat < s.mgt.lifeAt + 3600000000000) then .next s else
  let h := s.fget fMGT_LIFE_HOURS_VALUE
  let avg := sgn 32 (s.fget fMGT_LIFE_TJ_VALUE)
  let hour : Int := if s.mgt.lifeN = 0 then avg else roundHalf s.mgt.lifeSum s.mgt.lifeN
  let s1 := (s.fset fMGT_LIFE_HOURS_VALUE (h + 1)).fset fMGT_LIFE_TJ_VALUE (unsgn 32 (roundHalf (avg * h + hour) (h + 1)))
  .next ({ s1 with mgt := { s1.mgt with lifeSum := 0, lifeN := 0, lifeAt := s.lt.toNat } }.setSave setLife)

/-- NOTICE_POST (R573): the pending sources, at most seven, go on the notice channel as sender 0x201 while it is EMPTY. -/
def execNoticePost (s : State) : Out :=
  let ch := s.fget fMGT_NOTICE_CHANNEL
  if (!s.fbit fMGT_NOTICE_EN || s.mgt.down || s.noticePend.isEmpty) = true then .next s
  else if !s.mbxSends ch mMgt then .next (s.fset fMGT_STAT_NOTICE_BAD 1)
  else if s.fbit (fMBX_CH_STAT_GO ch) then .next s
  else
    let l := ((List.range 768).filter (fun e => s.noticePend.contains e)).take 7
    let words := [l.length] ++ l ++ List.replicate (7 - l.length) 0
    let s1 := (words.zipIdx).foldl (fun t e => t.setReg (rMBX_MSG ch e.2) (BitVec.ofNat 32 e.1)) s
    .next ({ s1 with noticePend := s1.noticePend.filter (fun e => !l.contains e) }.mbxPost ch)

end Sys2Proof.Machine
end

