-- ==== Sys2Proof/Machine/Racking.lean ====
section
/-! DEFINITION. Racking and hot standby: the racking frames, first fill, sweep, heartbeat, takeover and proof swap (spec/14_racking_standby.md). -/

namespace Sys2Proof.Machine

/-- The full number with low 32 bits `lo` that lies nearest above or below `base`. -/
def ext32 (base lo : Nat) : Nat :=
  let d := (lo + 2 ^ 32 - base % 2 ^ 32) % 2 ^ 32
  if d < 2 ^ 31 then base + d else base + d - 2 ^ 32

/-- Sets the racking port's own state. -/
def State.setRack (s : State) (v : Rack) : State := { s with rack := v }

/-- PINS of HELLO and BEAT (R427). -/
def State.rackPins (s : State) : Nat := s.fget fRACK_STAT_SLOT_ID + 2 * s.fget fRACK_STAT_PEER_IN + 4 * s.fget fRACK_STAT_ACTIVE_OUT

/-- A die identity as HELLO carries it (R427, RACK_PEER_DIE): die `d` of the fuses, three words. -/
def State.dieBytes (s : State) (d : Nat) : List Byte :=
  let w (i : Nat) : Nat := s.fuses.dies.getD (3 * d + i) 0
  leBytes 4 (w 0) ++ leBytes 2 (w 1) ++ leBytes 1 (w 1 / 65536) ++ leBytes 1 0 ++ leBytes 2 (w 2 / 65536) ++ leBytes 2 (w 2)

/-- FW_REV of the TRELLIS component of the booted image (R427, spec/19_management.md R558). -/
def State.trellisRev (s : State) : Nat :=
  let h := s.imgHeader s.bootBank
  ((List.range (leAt h 6 2)).findSome? (fun i => if (compAt h i).1 = 2 then some (leAt h (0x2C + 16 * i) 4) else none)).getD 0

/-- A HELLO payload (R427). -/
def State.helloData (s : State) : List Nat :=
  nats (leBytes 8 s.fuses.serial.toNat ++ leBytes 1 (s.fget fRACK_STAT_ROLE) ++ leBytes 1 s.rackPins ++ leBytes 2 (s.fget fTRL_GEN_GEN)
    ++ leBytes 4 (s.bc * 1000) ++ leBytes 8 s.cycle.toNat ++ leBytes 1 (s.fget fRACK_STAT_SYNC) ++ leBytes 1 s.fuses.stepping ++ leBytes 2 0
    ++ leBytes 4 s.trellisRev ++ s.dieBytes 0 ++ s.dieBytes 1)

/-- A BEAT payload (R427). -/
def State.beatData (s : State) (yield : Bool) : List Nat :=
  nats (leBytes 1 (s.fget fRACK_STAT_ROLE) ++ leBytes 1 s.rackPins ++ leBytes 1 (s.fget fRACK_STAT_SYNC)
    ++ leBytes 1 (b2n yield + 2 * b2n s.rack.swapW.isSome + 4 * b2n (decide (s.fget fSYS_MODULE_MODE_CUR = 0)))
    ++ leBytes 2 (s.fget fCONV_EPOCH_CUR) ++ leBytes 2 0 ++ leBytes 4 s.rackApplied ++ leBytes 4 (s.rack.swapW.getD 0)
    ++ leBytes 8 s.rack.ltRx ++ leBytes 8 s.rack.rxAt)

/-- BEAT goes on every lane that is up (R426). -/
def State.sendBeat (s : State) (yield : Bool) : State :=
  s.rackLanes.foldl (fun t l => t.rackOn l rkBeat none (t.beatData yield)) s

/-- Bytes of the channel variables of a lane that are racked (R434): granules of 16. -/
def State.sweepVars (s : State) (n : Nat) : Nat := 16 * bitsOf (s.rackPart n) 2 0

/-- KB per full sweep under the RACK_PART values in force (R435). -/
def State.sweepKb (s : State) : Nat :=
  let row (r : Nat) : Nat := 14336 + (match s.owner r with
    | none => 0
    | some n => 256 * s.sweepVars n + (if bitOf (s.rackPart n) 4 then 1024 else 0))
  let data (n : Nat) : Nat := if bitOf (s.rackPart n) 5 then s.fget (fPART_DATA_SIZE n) * 65536 else 0
  ((List.range 512).foldl (fun a r => a + row r) 0 + (List.range 256).foldl (fun a n => a + data n) 0) / 1024

/-- A sweep begins: RACK_PART as it now stands is in force, and the size of a full sweep follows (R435). -/
def State.sweepStart (s : State) : State :=
  let parts := (List.range 256).foldl (fun m n => SMap.put (fun _ => 0x34) n (s.reg (rRACK_PART n)).toNat m) s.rack.parts
  let s1 := s.setRack { s.rack with parts := parts }
  s1.fset fRACK_SWEEP_BYTES_KB s1.sweepKb

/-- The racking part of T(n) on either role (R427): BEAT every cycle, HELLO every 1,024 cycles; the sweep of a first fill begins
(R437). -/
def State.rackBoundary (s : State) : State :=
  let hello := decide (1024 ≤ s.rack.helloAge + 1)
  let s1 := s.setRack { s.rack with helloAge := if hello then 0 else s.rack.helloAge + 1 }
  let s2 := (s1.sendBeat false).when hello (fun t => t.rackOut rkHello none t.helloData)
  s2.when (s2.active && decide (s2.fget fRACK_STAT_SYNC = syFilling) && decide (s2.fget fRACK_FILL_PHASE = 1) && s2.rack.fill.isEmpty) (fun t =>
    ((t.fset fRACK_FILL_PHASE 2).fset fRACK_FILL_PERCENT 0).sweepStart)

/-! ### Fill -/

/-- Registers that are racked (R430): SYS_MODULE_MODE and the blocks named, without the graft registers, TRL_PORT_CTRL and the port
counters. -/
def rackedReg (off : Nat) : Bool :=
  decide (off = rSYS_MODULE_MODE)
    || (decide (0x20000 ≤ off) && decide (off < 0x50000)) || (decide (0x51000 ≤ off) && decide (off < 0x51800))
    || (decide (0x160000 ≤ off) && decide (off < 0x1C0000)) || (decide (0x1F0000 ≤ off) && decide (off < 0x200000))
    || (decide (0x200000 ≤ off) && (decide (off < 0x280000) && (decide (off % 0x4000 ≠ 0) && !(decide (0x100 ≤ off % 0x4000)
      && decide (off % 0x4000 ≤ 0x180)))))

/-- What the first phase of a fill sends (R437): the racked registers, and the table and program stores where they differ from
what they hold when nothing was written; every port's schedule tables, of which the standby keeps mirrored copies
(spec/10_trellis_link.md R304). -/
def State.fillData (s : State) : List Nat :=
  ((s.regs.filter (fun e => rackedReg e.1)).flatMap (fun e => nats (leBytes 4 e.1 ++ leBytes 4 e.2.toNat)))
    ++ ((s.mem.filter (fun e => decide (0x1000000 ≤ e.1) && decide (e.1 < 0x1E00000))).flatMap (fun e => nats (leBytes 4 e.1 ++ [e.2])))
    ++ (List.range 64).flatMap (fun i => nats (leBytes 4 (s.schedTbl 0 0 + 256 * i) ++ s.rdList (s.schedTbl 0 0 + 256 * i) 256))

/-- What a fill still has to send goes out as far as the racking buffer has room (R426, R437). -/
def State.fillPump (s : State) : List (List Nat) → State
  | [] => s.setRack { s.rack with fill := [] }
  | d :: l =>
    if s.rackHeld + 32 + d.length ≤ 262144 then State.fillPump (s.rackOne rkConfig d) l else s.setRack { s.rack with fill := d :: l }

/-- The active begins a first fill (R437): what was waiting is superseded by it. The medians of its ports go with it (R442). -/
def State.fillStart (s : State) : State :=
  let s1 := { ((s.fset fRACK_STAT_SYNC syFilling).fset fRACK_FILL_PHASE 1).fset fRACK_FILL_PERCENT 0 with rackUnacked := [] }
  let s2 := (List.range 32).foldl (fun t p => (List.range 17).foldl (fun u k => u.rackMedian p k) t) s1
  s2.fillPump (rackSplit s2.fillData)

/-- A standby asks for a first fill (R438). -/
def State.fillWait (s : State) : State :=
  ((s.fset fRACK_STAT_SYNC syFilling).fset fRACK_FILL_PHASE 1).fset fRACK_FILL_PERCENT 0
    |>.setRack { s.rack with fresh := true, stamps := [], pours := [], fill := [], missed := 0 }

/-- What a HELLO or BEAT with the peer's role and SYNC does to SYNC (R436 … R438). -/
def State.rackSync (s : State) (role sync : Nat) : State :=
  let st := s.fget fRACK_STAT_SYNC
  let s1 := if st = syNoPeer then s.fset fRACK_STAT_SYNC syHello else s
  if s.standby ∧ role = roleActive ∧ s.fget fRST_START_PHASE = phOperating ∧ (st = syNoPeer ∨ st = syHello ∨ st = syLost) then s1.fillWait
  else if s.active ∧ role = roleStandby ∧ sync = syFilling ∧ (st ≠ syFilling ∨ s.fget fRACK_FILL_PHASE = 3) then s1.fillStart
  else s1

/-- FILL_DONE (R437): the sweep of a first fill has ended. -/
def execFillDone (s : State) : Out :=
  .next (if s.fget fRACK_STAT_SYNC = syFilling ∧ s.fget fRACK_FILL_PHASE = 2 then
    (((s.fset fRACK_STAT_SYNC syInSync).fset fRACK_FILL_PHASE 3).fset fRACK_FILL_PERCENT 100).fsat (fRACK_CNT_COUNT 11)
  else s)

/-! ### Received frames -/

/-- Every valid frame (R420, R421): the peer's GEN and ROLE; `none` where it demotes this active module. -/
def State.rackTake (s : State) (h : RackHdr) : Option State :=
  let own := s.fget fTRL_GEN_GEN
  let g := h.gen % 65536
  if s.active ∧ h.role.val = roleActive ∧ (newerN 16 g own ∨ (g = own ∧ s.fbit fRACK_STAT_SLOT_ID)) then none
  else some ((s.fset fRACK_PEER_STAT_GEN g).fset fRACK_PEER_STAT_ROLE h.role.val)

/-- Runs `f` on a valid frame, or demotes (R421). -/
def State.onRack (s : State) (h : RackHdr) (f : State → State) : Out :=
  match s.rackTake h with
  | none => .next (s.moduleReset 8 0)
  | some t => .next (f t)

/-- Runs `f` on an ordered frame that a standby applies (R426): the next OSEQ, or the first after a fill began. -/
def State.onOrdered (s : State) (h : RackHdr) (f : State → State) : Out :=
  s.onRack h (fun t =>
    if !t.standby then t
    else if t.rack.fresh ∨ h.seq % 2 ^ 32 = (t.rackApplied + 1) % 2 ^ 32 then
      f ({ t with rackApplied := h.seq % 2 ^ 32 }.setRack { t.rack with fresh := false })
    else t)

/-- RACK_HELLO (R427). -/
def execRackHello (h : RackHdr) (m : RackHello) (s : State) : Out :=
  s.onRack h (fun t =>
    let t1 := (t.setReg rRACK_PEER_SERIAL_LO (BitVec.ofNat 32 m.serial)).setReg rRACK_PEER_SERIAL_HI (BitVec.ofNat 32 (m.serial / 2 ^ 32))
    let t2 := (t1.fset fRACK_PEER_STAT_SYNC m.sync.val).fset fRACK_PEER_STAT_SLOT_ID (b2n m.slot)
    let t3 := [0, 1].foldl (fun u d =>
      let b := m.dies.getD d []
      let u1 := u.setReg (rRACK_PEER_DIE d 0) (BitVec.ofNat 32 (leAt b 0 4))
      let u2 := u1.setReg (rRACK_PEER_DIE d 1) (BitVec.ofNat 32 (leAt b 6 1 * 65536 + leAt b 4 2))
      u2.setReg (rRACK_PEER_DIE d 2) (BitVec.ofNat 32 (leAt b 8 2 * 65536 + leAt b 10 2))) t2
    let t4 := t3.setRack { t3.rack with peer := some (m.slot, h.role.val) }
    let t5 := if t4.standby && decide (h.role.val = roleActive) then
        { t4.fset fSCHED_BC_BC_ACTIVE (m.bcNs / 1000) with cycle := BitVec.ofNat 64 m.cycle } else t4
    t5.rackSync h.role.val m.sync.val)

/-- The servo of a standby (R428): delay and offset from a pair of BEATs; the next ADJ within ±20 ppm is not stated, and is free (log 10).
Before its release a standby takes its line time from the active's. -/
def State.rackServo (s : State) (h : RackHdr) (m : RackBeat) : State :=
  let fwd : Int := (s.lt.toNat : Int) - (h.lt : Int)
  let back : Int := (m.rxAt : Int) - (m.ltRx : Int)
  let paired := decide (m.ltRx ≠ 0)
  let delay16 := (fwd + back) * 8
  let l := if paired then last8 (s.rack.delays ++ [delay16]) else s.rack.delays
  let s1 := (s.setRack { s.rack with delays := l, ltRx := h.lt, rxAt := s.lt.toNat }).when paired (fun t =>
    t.fset fRACK_LINK_DELAY_DELAY (unsgn 32 (medianI l)))
  if !s.standby then s1
  else
    let s2 := s1.when paired (fun t => t.fset fRACK_LT_OFS_OFS (unsgn 32 ((fwd - back) / 2)))
    if s.fget fRST_START_PHASE = phStarting then
      let f := s2.freeC
      let d := if paired then ((fwd + back) / 2).toNat else f.1
      { (if paired then s2 else f.2) with lt := BitVec.ofNat 64 (h.lt + d), mgt := { s2.mgt with peerTime := true } }
    else
      let f := s2.freeW
      f.2.fset fEVT_LT_ADJ_ADJ (unsgn 32 (clampI (-85899) 85899 (sgn 32 f.1.toNat)))

/-- OACK of a BEAT (R426): the frames it acknowledges leave the buffer; a SWAP notice acknowledged fixes W as the second boundary
from now (R447). -/
def State.rackAck (s : State) (oack : Nat) : State :=
  let rest := s.rackUnacked.filter (fun m => newerN 32 m.seq oack)
  let s0 : State := if rest.length < s.rackUnacked.length then { s with rackUnacked := rest, rackProgress := s.cycle.toNat } else s
  let s1 := s0.fillPump s0.rack.fill
  match s1.rack.swapSeq with
  | some q =>
    if newerN 32 q oack then s1
    else
      let w := s1.cycle.toNat + 2
      (s1.setRack { s1.rack with swapSeq := none, swapW := some w }).fset fRACK_CMD_RESULT_W (w % 65536)
  | none => s1

/-- A takeover begins, or is refused for want of a complete copy (R440): the settle of R417. -/
def State.takeStart (s : State) (cause : Nat) : State :=
  if s.fget fRACK_STAT_SYNC = syInSync then
    (if s.rack.settle.isNone then s.setRack { s.rack with settle := some cause } else s)
  else s.fset fRACK_ERR_NOT_SYNCED 1

/-- The cause of a takeover after a YIELD (R440, R447). -/
def State.yieldCause (s : State) : Nat := if s.rack.swapNotice then 4 else 3

/-- A BEAT with YIELD (R440, R447). -/
def State.yieldSeen (s : State) : State :=
  let u := s.setRack { s.rack with yielded := true }
  match u.rack.settle with
  | some _ => u.setRack { u.rack with settle := some u.yieldCause }
  | none => if u.fbit fRACK_STAT_PEER_IN then u else u.takeStart u.yieldCause

/-- RACK_BEAT (R420, R426 … R428, R440, R447). -/
def execRackBeat (h : RackHdr) (m : RackBeat) (s : State) : Out :=
  s.onRack h (fun t =>
    let t1 := (t.rackServo h m).rackAck m.oack.toNat
    let t2 := t1.setRack { t1.rack with beat := some t1.cycle.toNat, missed := 0 }
    let t3 := (t2.fset fRACK_PEER_STAT_SYNC m.sync.val).fset fRACK_PEER_STAT_SLOT_ID (b2n m.slot)
    let t4 := t3.rackSync h.role.val m.sync.val
    if t4.standby && decide (h.role.val = roleActive) then
      let u := (t4.setGen h.gen).fset fCONV_EPOCH_CUR m.epoch.toNat
      let n := ext32 u.cycle.toNat h.cycle
      let u1 := { u with cycle := BitVec.ofNat 64 n }.setModule (if m.run then 0 else 1)
      (u1.setRack { u1.rack with swapW := if m.swapAt then some (ext32 n m.w.toNat) else none }).when m.yield (fun v => v.yieldSeen)
    else t4.when (t4.standby && m.yield) (fun v => v.yieldSeen))

/-- RACK_CODE (spec/13_graft.md R397 … R399, R412): a standby holds the version and confirms it once its CRC is right, takes C or C′, or
confirms a rollback notice. -/
def State.rackCode (s : State) (m : RackCode) : State :=
  match m with
  | .version n hdr code consts maps range lims =>
    let n := n.val
    let w (i : Nat) : Nat := hdr.getD i 0
    let kb := w 1 / 2 ^ 24
    let s0 := if s.grfState n = gsIdle then s else (s.freeOther n).setGrf n gsIdle
    let s1 := s0.grfTake n kb (bitsOf (w 1) 23 18) (bitsOf (w 1) 17 16)
    if s1.grfState n ≠ gsLoading then s1
    else
      let o := (s1.part n).other
      let s2 := s1.tblWr (0x1800000 + o.codeAt * 1024) (code.take (o.codeKb * 1024))
      let s3 := s2.tblWr (0x1000000 + o.constAt * 256) (consts.take (o.constGran * 256))
      let s4 := match o.mapAt with | some q => s3.tblWr (0x1000000 + q * 256) (maps.take 256) | none => s3
      let s5 := [rPART_GRF_CTRL n, rPART_GRF_ALLOC n, rPART_GRF_HDR_A n, rPART_GRF_HDR_NEWVAR n, rPART_GRF_HDR_OLDVAR n, rPART_GRF_HDR_CRC n].zipIdx.foldl
        (fun t e => t.setReg e.1 (BitVec.ofNat 32 (w e.2))) s4
      let b := 1 - s5.fget (fSTEP_PART_BANK_ACTIVE n)
      let s6 := if s5.fbit (fPART_GRF_CTRL_RECIPE n) then
          (s5.tblWr (s5.entryAddr b (s5.fget (fSTEP_PART_RANGE_BASE n))) (range.take (s5.fget (fSTEP_PART_RANGE_LEN n) * 32))).tblWr
            (s5.limAddr b (s5.fget (fSTEP_PART_LIM_BASE n))) (lims.take (s5.fget (fSTEP_PART_LIM_COUNT n) * 16))
        else s5
      if crc32 (s6.castBytes o (s6.fget (fPART_GRF_HDR_A_CONST_LEN n))) = s6.fget (fPART_GRF_HDR_CRC_VALUE n) then
        (s6.setGrf n gsRacking).rackOut rkCode none [n, 3]
      else (s6.freeOther n).setGrf n gsIdle
  | .commit n c =>
    let n := n.val
    let st := s.grfState n
    if st = gsRacking ∨ st = gsArmed then (s.setPart n { s.part n with commitAt := some c }).setGrf n gsArmed
    else if st = gsWindow ∨ st = gsRollback then
      (s.setPart n { s.part n with commitAt := some c, rollback := true }).setGrf n gsRollback
    else s.rackLost
  | .rollback n => if s.grfState n.val = gsWindow then (s.setGrf n.val gsRollback).rackOut rkCode none [n.val, 3] else s

/-- RACK_CODE. -/
def execRackCode (h : RackHdr) (m : RackCode) (s : State) : Out := s.onOrdered h (fun t => t.rackCode m)

/-- Whether cycle stamp `a` is newer than the one a channel or row holds. -/
def stampNewer (a b : Nat) : Bool := newerN 32 a b

/-- A channel's racked state (R432, R434, R445): its step state, and V and I of its input record, taken only where the stamp is newer than
the one held. -/
def State.rackChannel (s : State) (ch stamp : Nat) (step : List Byte) (v i : Int) : State :=
  let ok := match (s.ch ch).rack with | some (c, _, _) => stampNewer stamp c | none => true
  if ok then
    ((s.wrBytes (rowBase (ch / 256) + 0x3000 + 32 * (ch % 256)) (step.take 32)).wrBytes (rowBase (ch / 256) + 32 * (ch % 256))
      (leBytes 4 (unsgn 32 v) ++ leBytes 4 (unsgn 32 i))).setCh ch { s.ch ch with rack := some (stamp, v, i) }
  else s

/-- RACK_STEPEV (R432). -/
def execRackStepev (h : RackHdr) (l : List StepEv) (s : State) : Out :=
  s.onOrdered h (fun t => l.foldl (fun u e => u.rackChannel e.ch.val e.stamp e.step e.v e.i) t)

/-- RACK_COEF (R432). -/
def execRackCoef (h : RackHdr) (l : List (Fin 131072 × List Byte)) (s : State) : Out :=
  s.onOrdered h (fun t => l.foldl (fun u e => u.tblWr (u.coefAddr e.1.val) (e.2.take 32)) t)

/-- RACK_SWAP (R447): a standby takes the notice; its next BEAT acknowledges it. -/
def execRackSwap (h : RackHdr) (s : State) : Out :=
  s.onOrdered h (fun t => t.setRack { t.rack with swapNotice := true })

/-- The stamps a standby holds of a row. -/
def State.rackStamps (s : State) (r : Nat) : Option (Nat × Nat) := SMap.get (fun _ => none) s.rack.stamps r

/-- Whether a row record's stamps are newer than those held (R434; spec/00_scope.md R9): one of them newer, and neither other than newer or equal.
A row of which nothing is held takes its first record. -/
def stampsNewer (q : Option (Nat × Nat)) (c w : Nat) : Bool :=
  match q with
  | none => true
  | some (a, b) => (decide (a = c) || stampNewer c a) && (decide (b = w) || stampNewer w b) && decide ((a, b) ≠ (c, w))

/-- A row record whose stamps are newer (R433, R434): step states by channel, output records without what a newer observed pour
carried, channel variables and the shared area. -/
def State.rackRow (s : State) (r c w : Nat) (steps outs vi : List Byte) (vars : List (List Byte)) (shared : List Byte) : State :=
  let s1 := (List.range 256).foldl (fun t l =>
    t.rackChannel (r * 256 + l) c ((steps.drop (32 * l)).take 32) (sgn 32 (leAt vi (8 * l) 4)) (sgn 32 (leAt vi (8 * l + 4) 4))) (s.passTags inRack 112)
  let keep := match SMap.get (fun _ => none) s.rack.pours r with | some p => !stampNewer w p | none => false
  let s2 := (List.range 256).foldl (fun t l =>
    let a := rowBase r + 0x2000 + 16 * l
    let b := (outs.drop (16 * l)).take 16
    if keep then t.wrBytes (a + 8) (b.drop 8) else t.wrBytes a b) s1
  let s3 := vars.zipIdx.foldl (fun t e => t.wrBytes (rowBase r + 0x5000 + 64 * e.2) (e.1.take 64)) s2
  let s4 := s3.wrBytes (0x3600000 + 1024 * r) (shared.take 1024)
  s4.setRack { s4.rack with stamps := SMap.put (fun _ => none) r (some (c, w)) s4.rack.stamps }

/-- RACK_SWEEP (R434); the first of a fill's sweep begins its second phase (R437). -/
def execRackSweep (h : RackHdr) (m : SweepRec) (s : State) : Out :=
  s.onRack h (fun q =>
    if !q.standby then q
    else
      let t := q.when (decide (q.fget fRACK_STAT_SYNC = syFilling) && decide (q.fget fRACK_FILL_PHASE = 1)) (fun u => (u.fset fRACK_FILL_PHASE 2).fset fRACK_FILL_PERCENT 0)
      match m with
      | .row r c w steps outs vi vars shared =>
        if stampsNewer (t.rackStamps r.val) c w then t.rackRow r.val c w steps outs vi vars shared else t
      | .data a b => t.wrBytes a b)

/-- POUR_OBSERVED (R433): a standby takes bytes 0 … 7 of each output record from the newest accepted POUR of the row. -/
def execPourObserved (p : Fin 32) (h : TrHdr) (pay : List Byte) (s : State) : Out :=
  let ok := s.standby && (s.portEn p.val && (decide (h.gen = s.fget fTRL_GEN_GEN) && (decide (h.row < 512) && decide (pay.length = 2048))))
  let newer := match SMap.get (fun _ => none) s.rack.pours h.row with | some q => stampNewer h.cycle q | none => true
  .next (if ok && newer then
    let s1 := (List.range 256).foldl (fun t l => t.wrBytes (rowBase h.row + 0x2000 + 16 * l) ((pay.drop (8 * l)).take 8)) s
    s1.setRack { s1.rack with pours := SMap.put (fun _ => none) h.row (some h.cycle) s1.rack.pours }
  else s)

/-- RACK_RELAY (spec/10_trellis_link.md R338 … R342): the active takes a far row's harvest, and the medians that the standby measures; the standby
passes a frame on to its port, or drops it where the port is down, and takes the active's confirmation of a break and its medians. -/
def execRackRelay (h : RackHdr) (m : RelayMsg) (s : State) : Out :=
  s.onRack h (fun t =>
    match m with
    | .harvest p hd pay =>
      if t.active && (t.port p.val).far.isSome then
        (if hd.gen ≠ t.fget fTRL_GEN_GEN then (t.rxDrop p.val tcGen).fset fTRL_STAT_GEN 1
         else if hd.len ≠ 4096 then t.rxDrop p.val tcLen
         else t.harvestTake p.val hd pay true)
      else t
    | .frame p kind bytes =>
      if !t.standby || (t.port p.val).far.isNone then t
      else if t.portEn p.val ∧ t.fget (fTRL_PORT_STAT_LINK p.val) = lkUp then t.trPut p.val kind bytes
      else if kind = tkPour then t.fsat (fTRL_CNT_COUNT p.val tcPourDrop)
      else if kind = tkTrip then t.fsat (fTRL_CNT_COUNT p.val tcTripDrop)
      else t
    | .confirm p first c =>
      if t.standby then t.setPort p.val { t.port p.val with far := some (first.val, c), leaveAt := none, missed := 0 } else t
    | .median p k dn up down =>
      let f := (dn, up, down)
      if t.standby then
        (if k.val = 16 then t.setPort p.val { t.port p.val with lineRacked := some f }
         else t.setPosn p.val k.val { t.posn p.val k.val with racked := some f })
      else if t.active && t.isFar p.val k.val && decide (k.val < 16) then
        ((t.setPosn p.val k.val { t.posn p.val k.val with meas := [measOf f] }).posRegs p.val k.val).applyMin true
      else t)

/-- RACK_FRAME_REJECT (R425). -/
def execRackFrameReject (why : RackBad) (s : State) : Out :=
  .next (s.fsat (fRACK_CNT_COUNT (match why with
    | .mac => 0 | .ethertype => 1 | .hcrc => 2 | .rkind => 3 | .version => 4 | .reserved => 4 | .len => 4)))

/-- A racking lane's link state (R326) and the medium of its last training (R423). -/
def State.rackLane (s : State) (l : Nat) : Nat × Nat := SMap.get (fun _ => (lkDisabled, 0)) s.rack.lanes l

/-- RACK_LANE_UP (R326, R423, R426, R427): a lane comes up and is sent a HELLO, or goes down and trains again with the medium then set; the loss
of the lane in use is followed by a resend. -/
def execRackLaneUp (l : Fin 4) (up : Bool) (s : State) : Out :=
  let inUse := s.rackLanes.head? = some l.val
  let lane := if up then (lkUp, (s.rackLane l.val).2) else (lkRetrain, s.fget fRACK_CTRL_MEDIA)
  let s1 := (s.setRack { s.rack with lanes := SMap.put (fun _ => (lkDisabled, 0)) l.val lane s.rack.lanes }).fset
    ⟨rRACK_STAT, 16 + l.val, 16 + l.val⟩ (b2n up)
  .next (if up then s1.rackOn l.val rkHello none s1.helloData
    else if inUse then s1.setRack { s1.rack with laneLost := true } else s1)

/-- RACK_RESEND (R426): after the loss of the lane in use, or 4 cycles without an acknowledgement that advances. -/
def execRackResend (s : State) : Out :=
  .next (if !s.rackUnacked.isEmpty ∧ s.rackLanes ≠ [] ∧ (s.rack.laneLost ∨ s.rackProgress + 4 ≤ s.cycle.toNat) then
    let s1 := s.rackUnacked.foldl (fun t m => t.rackOut m.kind (some m.seq) m.data) s
    let s2 : State := { (s1.fset fRACK_ERR_RESEND 1).fsatN (fRACK_CNT_COUNT 6) s.rackUnacked.length with rackProgress := s.cycle.toNat }
    s2.setRack { s2.rack with laneLost := false }
  else s)

/-! ### The sweep -/

/-- Whether partition `n`'s rows and data go in this sweep (R435). -/
def State.sweeps (s : State) (n : Nat) : Bool :=
  decide (s.fget fRACK_STAT_SYNC = syFilling) || decide (s.rack.sweeps % 2 ^ bitsOf (s.rackPart n) 9 8 = 0)

/-- A row's record (R434). -/
def State.sweepRow (s : State) (r : Nat) : List Nat :=
  let b := rowBase r
  let v := s.row r
  let first := leBytes 2 r ++ leBytes 4 (v.passed.getD 0) ++ leBytes 4 (v.wrote.getD 0) ++ s.rdList (b + 0x3000) 0x2000 ++ s.rdList (b + 0x2000) 0x1000
    ++ (List.range 256).flatMap (fun l => s.rdList (b + 32 * l) 8)
  match s.owner r with
  | none => nats first
  | some n =>
    nats (first ++ (List.range 256).flatMap (fun l => s.rdList (b + 0x5000 + 64 * l) (s.sweepVars n))
      ++ (if bitOf (s.rackPart n) 4 then s.rdList (0x3600000 + 1024 * r) 1024 else []))

/-- SWEEP_END (R434, R435): a sweep of `us` µs has sent its rows and partition data; its period is recorded, and a long one flagged. -/
def execSweepEnd (us : Nat) (s : State) : Out :=
  .next (if !s.racks then s
    else
      let rows := (List.range 512).filter (fun r => match s.owner r with | none => true | some n => s.sweeps n)
      let parts := (List.range 256).filter (fun n => bitOf (s.rackPart n) 5 && (decide (s.fget (fPART_DATA_SIZE n) ≠ 0) && s.sweeps n))
      let s1 := rows.foldl (fun t r => (t.passTags inRack ((t.sweepRow r).length / 128)).rackOut rkSweep none (t.sweepRow r)) s
      let s2 := parts.foldl (fun t n =>
        let a := 0x3680000 + t.fget (fPART_DATA_BASE n) * 256
        (t.passTags inRack (t.fget (fPART_DATA_SIZE n) * 512)).rackOut rkSweep none (nats (leBytes 4 a ++ t.rdList a (t.fget (fPART_DATA_SIZE n) * 65536)))) s1
      let s3 := (s2.setRack { s2.rack with sweeps := s2.rack.sweeps + 1 }).fsat (fRACK_CNT_COUNT 7)
      let s4 := (s3.fset fRACK_SWEEP_LAST_US us).when (decide (s3.fget fRACK_SWEEP_WORST_US < us)) (fun t => t.fset fRACK_SWEEP_WORST_US us)
      let s5 := s4.when (decide (s4.fget fRACK_CFG_SWEEP_MAX < us)) (fun t => (t.fset fRACK_ERR_SWEEP_LONG 1).assertEv 695)
      s5.sweepStart)

/-- The marked channels from the rotating pointer on, in ascending order (R432). -/
def rotated (ptr : Nat) (l : List Nat) : List Nat := l.filter (fun c => decide (ptr ≤ c)) ++ l.filter (fun c => decide (c < ptr))

/-- A list in pieces of `per`. -/
def piecesOf (per : Nat) (l : List Nat) : List (List Nat) :=
  (List.range ((l.length + per - 1) / per)).map (fun i => (l.drop (per * i)).take per)

/-- Sends records of whole pieces as far as the racking buffer has room (R426, R429); answers what is left over. -/
def State.serve (s : State) (kind : Nat) (rec : Nat → List Nat) : List (List Nat) → List Nat × State
  | [] => ([], s)
  | c :: l =>
    let d := c.flatMap rec
    if s.rackHeld + 32 + d.length ≤ 262144 then State.serve (s.rackOne kind d) kind rec l else (c ++ l.flatten, s)

/-- Serves a map of changed channels (R432): its bits still set, the pointer, the channels served. -/
def State.serveMap (s : State) (kind per ptr : Nat) (rec : Nat → List Nat) (map : List Nat) : List Nat × Nat × List Nat × State :=
  let l := rotated ptr map
  let q := s.serve kind rec (piecesOf per l)
  let done := l.take (l.length - q.1.length)
  (q.1.filter (fun c => decide (c < ptr)) ++ q.1.filter (fun c => decide (ptr ≤ c)),
    q.1.headD (((done.getLast?).map (· + 1)).getD ptr), done, q.2)

/-- A step event (R432): channel, stamp, step state, V and I, 48 bytes. -/
def State.stepEvent (s : State) (ch : Nat) : List Nat :=
  nats (leBytes 4 ch ++ leBytes 4 (s.fget (fSTEP_ROW_PASS_CYCLE (ch / 256))) ++ s.rdList (rowBase (ch / 256) + 0x3000 + 32 * (ch % 256)) 32
    ++ s.rdList (rowBase (ch / 256) + 32 * (ch % 256)) 8)

/-- A coefficient entry as it is racked (R432): channel and entry, 36 bytes. -/
def State.coefEvent (s : State) (ch : Nat) : List Nat := nats (leBytes 4 ch ++ s.rdList (s.coefAddr ch) 32)

/-- The changed channels and coefficient entries at T(n) (R432): those that are served clear their bits. Without a peer nothing is kept. -/
def State.rackEvents (s : State) : State :=
  if !s.racks then { s with stepMap := [], coefMap := [] }
  else
    let a := s.serveMap rkStepev 191 s.rack.stepPtr s.stepEvent s.stepMap
    let b := a.2.2.2.serveMap rkCoef 255 s.rack.coefPtr s.coefEvent s.coefMap
    let s1 := b.2.2.1.foldl (fun t ch => t.tblSee (t.coefAddr ch) 32) b.2.2.2
    { s1.setRack { s1.rack with stepPtr := a.2.1, coefPtr := b.2.1 } with stepMap := a.1, coefMap := b.1 }

/-! ### Roles, heartbeat, takeover and swap -/

/-- ROLE_DECISION (R419): the start decides by the strap, the peer's HELLO and PEER_ACTIVE_IN. A module that is to become active goes
through the interlock, and is active from the gate opening (R417). -/
def execRoleDecision (slot : Bool) (s : State) : Out :=
  if s.fget fRST_START_PHASE ≠ phStarting ∨ s.fget fRACK_STAT_ROLE ≠ roleUndecided ∨ s.rack.settle.isSome = true then .next s
  else
    let s1 := s.fset fRACK_STAT_SLOT_ID (b2n slot)
    match s.rack.peer with
    | some (p, role) =>
      if p = slot then .next (s1.fset fRACK_ERR_SLOT_CLASH 1)
      else if s.fbit fRACK_STAT_PEER_IN || decide (role = roleActive) then .next (s1.fset fRACK_STAT_ROLE roleStandby)
      else .next (s1.setRack { s1.rack with settle := some 0 })
    | none =>
      if s.fbit fRACK_STAT_PEER_IN then .next (s1.fset fRACK_STAT_ROLE roleStandby)
      else .next (s1.setRack { s1.rack with settle := some 0 })

/-- DEMOTION (R421): an active module sees a claim of generation `gen`, newer than its own, or equal where its SLOT_ID is 1. -/
def execDemotion (gen : BitVec 16) (s : State) : Out :=
  let own := s.fget fTRL_GEN_GEN
  .next (if (s.active && (newerN 16 gen.toNat own || (decide (gen.toNat = own) && s.fbit fRACK_STAT_SLOT_ID))) = true then s.moduleReset 8 0
    else s)

/-- BEAT_MISSED (R436, R439, R440): no valid BEAT has arrived by T(n) + 2 µs; a cycle counts once. The lost heartbeat raises PEER_LOST
(spec/06_time_events.md R204), also where a takeover begins. -/
def execBeatMissed (s : State) : Out :=
  let n := some s.cycle.toNat
  if s.rack.beat = n ∨ s.rack.missAt = n ∨ s.lt.toNat < s.tn.toNat + 2000 ∨ ¬ (s.active ∨ s.standby) ∨ s.fget fRACK_STAT_SYNC = syNoPeer then .next s
  else
    let s1 := (s.setRack { s.rack with missed := s.rack.missed + 1, missAt := n }).when s.standby (fun t => t.fsat (fRACK_CNT_COUNT 5))
    if s1.rack.missed ≠ s1.fget fRACK_CFG_BEAT_LOSS then .next s1
    else if s.standby && !s.fbit fRACK_STAT_PEER_IN then
      .next ((if s.fget fRACK_STAT_SYNC = syInSync then s1.assertEv 694 else if s.fget fRACK_STAT_SYNC = syLost then s1 else s1.rackLost).takeStart 2)
    else if s.fget fRACK_STAT_SYNC = syLost then .next s1
    else .next s1.rackLost

/-- PEER_ACTIVE_FALL (R417, R440). -/
def execPeerActiveFall (s : State) : Out :=
  let was := s.fbit fRACK_STAT_PEER_IN
  let s1 := s.fset fRACK_STAT_PEER_IN 0
  .next (if was && s.standby && decide (s.fget fRST_START_PHASE = phOperating) then
    s1.takeStart (if s1.rack.yielded then s1.yieldCause else 1) else s1)

/-- PEER_ACTIVE_RISE (R417): with SLOT_ID 1 and its own output high a module withdraws, or is demoted where its gate is open; a
takeover not yet claimed is given up. -/
def execPeerActiveRise (s : State) : Out :=
  let s1 := s.fset fRACK_STAT_PEER_IN 1
  if s.fbit fRACK_STAT_ACTIVE_OUT then
    if s.fbit fRACK_STAT_SLOT_ID then
      if s.fbit fRACK_STAT_GATE then .next ((s1.activeOff).moduleReset 8 0)
      else .next ((s1.activeOff).setRack { s1.rack with settle := none })
    else .next s1
  else if s.standby then .next (s1.setRack { s1.rack with settle := none })
  else .next s1

/-- SETTLE_END (R416, R417): PEER_ACTIVE_IN has read low throughout; ACTIVE_OUT rises. The main die must be released. -/
def execSettleEnd (s : State) : Out :=
  .next (if s.rack.settle.isSome ∧ !s.fbit fRACK_STAT_PEER_IN ∧ s.fget fRST_START_PHASE = phOperating then s.fset fRACK_STAT_ACTIVE_OUT 1
    else s)

/-- Discards the grafts that were still being racked (spec/13_graft.md). -/
def State.dropRacking (s : State) : State :=
  (List.range 256).foldl (fun t n =>
    if t.grfState n = gsRacking then ((t.freeOther n).grfResult n grAborted).setGrf n gsIdle else t) s

/-- A standby's gate opens (R420, R442): the new generation, TAKEOVER, and t, the first cycle whose boundary lies at least 500 ns
later. -/
def State.takeover (s : State) (cause : Nat) : State :=
  let own := s.fget fTRL_GEN_GEN
  let peer := s.fget fRACK_PEER_STAT_GEN
  let g := if newerN 16 peer own then peer else own
  let n := s.cycle.toNat
  let t := if s.lt.toNat + 500 ≤ s.tOf (n + 1) then n + 1 else n + 2
  let s1 := ((s.fset fRACK_STAT_ROLE roleActive).fset fRACK_STAT_SYNC syHello).setGen (g + 1)
  let s2 := ((s1.assertEv 696).fset fRACK_TAKE_CAUSE cause).setReg rRACK_TAKE_CYCLE_LO (BitVec.ofNat 32 (t % 2 ^ 32))
  let s3 := (s2.setReg rRACK_TAKE_CYCLE_HI (BitVec.ofNat 32 (t / 2 ^ 32))).cellar 0x0018 cause (t % 2 ^ 32) 0
  let s4 := (s3.fsat (fRACK_CNT_COUNT 9)).when (decide (cause = 4)) (fun u => u.fsat (fRACK_CNT_COUNT 10))
  (s4.dropRacking.fset fRACK_LT_OFS_OFS 0).setRack { s4.rack with
    settle := none, takeAt := some t, swapNotice := false, swapW := none, yielded := false, missed := 0 }

/-- GATE_OPEN (R417, R420, R442): ACTIVE_OUT has stood for 1 µs with PEER_ACTIVE_IN low. -/
def execGateOpen (s : State) : Out :=
  .next (match s.rack.settle with
    | none => s
    | some c =>
      if (s.fbit fRACK_STAT_ACTIVE_OUT && !s.fbit fRACK_STAT_GATE && !s.fbit fRACK_STAT_PEER_IN) = true then
        let s1 := s.fset fRACK_STAT_GATE 1
        if c = 0 then
          ((s1.fset fRACK_STAT_ROLE roleActive).setRack { s1.rack with settle := none }).setGen (if s1.genSaved then s1.fget fTRL_GEN_GEN + 1 else 1)
        else s1.takeover c
      else s)

/-- What the ports of a new active hold at T(t) (R442): each position, counted from this end, MEASURED with the far-side delays computed from
the racked medians; its identity asked again and its result sent. -/
def State.takePorts (s : State) : State :=
  ((List.range 32).filter (fun p => s.portEn p)).foldl (fun t p =>
    let ks := List.range (min 16 (t.boards p))
    let t1 := ks.foldl (fun u k =>
      let g := u.figuresOr (s.farKnown p (s.boards p - 1 - k) false)
      (g.2.setPosn p k { meas := [measOf g.1], sent := some g.1.1 }).setPosState p k posMeasured) t
    t1.setPort p { t1.port p with
      helloNow := true, reqs := [], results := ks, delayNow := false, delayAt := t1.cycle.toNat + 1
      lineEnd := [], lineRacked := none, far := none, leaveAt := none, missed := 0, heard := 0 }) s

/-- A proof swap is requested (R447); the result goes to RACK_CMD_RESULT. -/
def State.swapReq (s : State) : State :=
  let res (v : Nat) : State := s.fset fRACK_CMD_RESULT_RESULT v
  if !s.active then res 5
  else if s.rack.swapSeq.isSome ∨ s.rack.swapW.isSome then res 3
  else if s.fget fRACK_STAT_SYNC ≠ syInSync then res 2
  else if s.fget fTRL_SPLIT_STAT_SPLIT ≠ 0 then res 4
  else
    let s1 := (res 1).rackOrdered rkSwap []
    s1.setRack { s1.rack with swapSeq := some s1.rackSeq }

/-- RESYNC (R438): on a standby a first fill starts; an active ignores it. -/
def State.resync (s : State) : State := if s.standby then s.fillWait else s

/-- When the pour window of the running cycle ends (R447; spec/10_trellis_link.md R323): the longest of the enabled ports. -/
def State.pourEnd (s : State) : Nat :=
  (List.range 32).foldl (fun a p => if s.portEn p then max a (s.tn.toNat + s.boards p * s.pourLen p) else a) s.tn.toNat

/-- SWAP_YIELD (R438, R447, R448): at the end of W's pour window the active drops ACTIVE_OUT, sends a BEAT with YIELD and stands by. -/
def execSwapYield (s : State) : Out :=
  if (s.active && (decide (s.rack.swapW = some s.cycle.toNat) && decide (s.pourEnd ≤ s.lt.toNat))) = true then
    let s1 := ((s.activeOff.sendBeat true).fset fRACK_STAT_ROLE roleStandby).lioCheck
    let s2 := s1.dropExecutions.wdtOff
    let s3 := (List.range 512).foldl (fun t r => if decide (t.fget (fSCHED_ROW_STAT_CLAIM r) = clNone) then t else (t.setRow r { t.row r with next := [] }).nextWork r) s2
    let s3b := (s3.parts.map (fun e => e.1)).foldl (fun t n => t.setPart n { t.part n with scalarWait := none, scalarOn := none }) s3
    let s4 := { s3b with scalarCmds := [] }.fsat (fRACK_CNT_COUNT 10)
    .next ((s4.setRack { s4.rack with swapW := none, swapSeq := none }).fillWait)
  else .next s

end Sys2Proof.Machine
end

