-- ==== Sys2Proof/Machine/Mgmt.lean ====
section
/-! DEFINITION. Management (spec/19_management.md): the end of a restart, the sensors, and requests of the module mode. -/

namespace Sys2Proof.Machine

/-- A write of SYS_MODULE_MODE.REQ (spec/03_partitions_fabric.md R79, R87; spec/20_reset_watchdog_cask.md R585, R592, R593): RUN and STOP
wait for the next boundary, or leave RECOVERY by a reset; RECOVERY restarts the module into it. -/
def State.moduleReq (s : State) (req : Nat) : State :=
  let s1 := s.fset fSYS_MODULE_MODE_REQ req
  if req = 2 then { s1 with recReq := true }.moduleReset 11 0
  else if s1.fget fSYS_MODULE_MODE_CUR = 2 then (s1.fset fRST_START_FAIL_COUNT 0).moduleReset 11 0
  else { s1.fset fSYS_MODULE_MODE_BUSY 1 with modeReqPend := true }

/-- MGT_RESTART_END (R555, R475): the always-on island marks the messages that waited for management, MGT_RESTART is raised and
recorded, PTP starts anew, and a clock alarm of the meantime is told. -/
def execMgtRestartEnd (s : State) : Out :=
  .next (if !s.mgt.down then s
    else
      let s0 : State := { s with mgt := { s.mgt with down := false } }
      let held := (List.range 128).any (fun ch => s0.fbit (fMBX_BIND_EN ch) && s0.fbit (fMBX_CH_STAT_GO ch)
        && (decide (s0.fget (fMBX_BIND_RECEIVER ch) = mMgt) || decide (s0.fget (fMBX_BIND_RECEIVER ch) = mEng)))
      let s1 := (s0.mbxMark [mMgt, mEng] 4).when held (fun t => t.fset fMBX_STAT_RESTART_MARK 1)
      ((s1.assertEv 711).cellar 0x0023 (s1.fget fMGT_LAST_RESTART_CAUSE) 0 0).ptpRestart.rtcTell)

/-! ### Sensors -/

/-- Whether the sensor reads a temperature. -/
def isTemp (i : Nat) : Bool := decide (i ≤ 4)

/-- The margin of R569 inside a limit: 2.00 °C, or 1 % of the limit. -/
def sensMargin (i : Nat) (limit : Int) : Int := if isTemp i then 200 else divUp limit 100

/-- A reading beyond a pair of limits. -/
def beyond (lo hi v : Int) : Bool := decide (v < lo) || decide (hi < v)

/-- A reading inside a pair of limits by the margin. -/
def within (i : Nat) (lo hi v : Int) : Bool := decide (lo + sensMargin i lo ≤ v) && decide (v ≤ hi - sensMargin i hi)

/-- The level after the counts of a reading (R569). -/
def sensLevel (old : Nat) (c : Sensor) : Nat :=
  if 4 ≤ c.bc then 2
  else if old = 2 then (if c.ic < 4 then 2 else if 4 ≤ c.iw then 0 else 1)
  else if 4 ≤ c.bw then 1
  else if old = 1 then (if 4 ≤ c.iw then 0 else 1)
  else 0

/-- What the firmware does when sensor 0 or 1 enters CRIT (R570). -/
def State.heatAction (s : State) : State :=
  if s.fget fMGT_CTRL_HEAT_ACTION = 1 then s.when s.peerInSync (fun t => t.swapReq)
  else if s.fget fMGT_CTRL_HEAT_ACTION = 2 then s.moduleReq 1
  else s

/-- A limit of a sensor as a signed number. -/
def State.sensLimit (s : State) (f : Fld) : Int := sgn 16 (s.fget f)

/-- SENSOR_READING (R568 … R570, R572). -/
def execSensorReading (i : Fin 12) (v : BitVec 16) (s : State) : Out :=
  let k := i.val
  let x := sgn 16 v.toNat
  .next (if !s.mgtRuns then s
    else
      let wl := s.sensLimit (fMGT_SENS_WARN_LO k)
      let wh := s.sensLimit (fMGT_SENS_WARN_HI k)
      let cl := s.sensLimit (fMGT_SENS_CRIT_LO k)
      let ch := s.sensLimit (fMGT_SENS_CRIT_HI k)
      let c0 := SMap.get sensor0 s.mgt.sens k
      let up (b : Bool) (n : Nat) : Nat := if b then min (n + 1) 4 else 0
      let c : Sensor := { bw := up (beyond wl wh x) c0.bw, bc := up (beyond cl ch x) c0.bc
                          iw := up (within k wl wh x) c0.iw, ic := up (within k cl ch x) c0.ic }
      let old := s.fget (fMGT_SENS_LEVEL_LEVEL k)
      let lvl := sensLevel old c
      let s1 : State := { s with mgt := { s.mgt with
        sens := SMap.put sensor0 k c s.mgt.sens
        lifeSum := if k = 0 then s.mgt.lifeSum + x else s.mgt.lifeSum, lifeN := if k = 0 then s.mgt.lifeN + 1 else s.mgt.lifeN } }
      let s2 := (s1.fset (fMGT_SENS_VAL_NOW k) v.toNat).fset (fMGT_SENS_VAL_MAX k)
        (unsgn 16 (max x (s.sensLimit (fMGT_SENS_VAL_MAX k))))
      let s3 := s2.fset (fMGT_SENS_LEVEL_LEVEL k) lvl
      if lvl ≤ old then s3
      else
        let s4 := (s3.assertEv (if isTemp k then 704 + lvl else 707)).cellar 0x0020 k v.toNat lvl
        s4.when (decide (k ≤ 1) && decide (lvl = 2)) (fun t => t.heatAction))

end Sys2Proof.Machine
end

