-- ==== Sys2Proof/Machine/Reflex.lean ====
section
/-! DEFINITION. The reflex table: triggers decoded into TRIP frames (spec/11_board_obligations_reflex.md R366 … R372). -/

namespace Sys2Proof.Machine

/-- BAR0 address of reflex entry `e`. -/
def State.rfxAt (s : State) (e : Nat) : Nat := 0x1000000 + s.fget fTRL_RFX_CTRL_TBL * 4096 + 16 * e

/-- Whether an entry's fields are valid (R367 … R369). -/
def rfxOk (b : List Byte) : Bool :=
  let kind := leAt b 0 1
  let scope := leAt b 2 1
  let m := leAt b 4 2
  decide (kind ≤ 3) && decide (1 ≤ leAt b 1 1 ∧ leAt b 1 1 ≤ 3) && decide (scope ≤ 3) && decide (leAt b 3 1 < 2)
    && decide (leAt b 6 2 = 0) && decide (leAt b 12 4 = 0)
    && (if kind = 1 then decide (m / 64 % 4 = 0) else if kind = 2 then decide (m < 1024) && decide (2 ≤ scope)
        else if kind = 3 then decide (m < 512) else true)

/-- Whether an entry's MATCH fits a trigger of its kind (R367). -/
def rfxHit (b : List Byte) (t : Trigger) : Bool :=
  let m := leAt b 4 2
  if t.kind = 3 then bitOf m 8 || decide (m % 256 = t.arg) else decide (m = t.arg)

/-- An entry is met valid, or with EN = 0: should it become invalid, that is met anew (R369). -/
def State.rfxGood (s : State) (e : Nat) : State := { s with rfxMet := SMap.put (fun _ => []) e [] s.rfxMet }

/-- An invalid entry is met: the first decode that meets it sets BAD_ENTRY (R369); an entry written anew counts anew. -/
def State.rfxBad (s : State) (e : Nat) (b : List Byte) : State :=
  if SMap.get (fun _ => []) s.rfxMet e = b then s
  else { s.fset fTRL_RFX_STAT_BAD_ENTRY 1 with rfxMet := SMap.put (fun _ => []) e b s.rfxMet }

/-- The frame in progress on a port, other than a TRIP frame, is aborted and sent again in full after the TRIP frame that `f` sends
(R332, R333). -/
def State.insertTrip (s : State) (p : Nat) (f : State → State) : State :=
  match s.abortTx p with
  | (some m, t) => (f (t.fsat (fTRL_CNT_COUNT p tcTxAbort))).emit m
  | (none, t) => f t

/-- One TRIP frame on a port (R316, R333, R335, R370, R371): on a port with another frame in progress (`cut`) it cuts that frame short. -/
def State.sendTrip (s : State) (p e action row : Nat) (lanes : BitVec 256) (cut : BitVec 32) : State :=
  let v := s.port p
  let q := (v.tseq + 1) % 65536
  let pay := leBytes 1 action ++ leBytes 1 e ++ leBytes 2 q ++ leBytes 4 0 ++ leBytes 32 lanes.toNat
  let s1 := (s.setPort p { v with tseq := q }).relayTrip p s.lt.toNat row 0 pay
  if s1.portSends p then
    let send (t : State) : State :=
      (t.fsat (fTRL_CNT_COUNT p tcTripSent)).trSend p tkTrip (s.cycle.toNat % 2 ^ 32) s.lt.toNat row srcActive 0 pay
    let s3 := if cut.getLsbD p then s1.insertTrip p send else send s1
    let n := s.fget fTRL_CTRL_TRIP_REPEAT
    if n = 0 then s3
    else s3.setPort p { s3.port p with
      trips := (s3.port p).trips ++ [({ left := n, due := s.cycle.toNat + 1, row := row, lt := s.lt.toNat, payload := pay } : Trip)] }
  else (s1.fsat (fTRL_CNT_COUNT p tcTripDrop)).fset fTRL_RFX_STAT_DROP 1

/-- Ports that an entry's TRIP frames go to, with their ROW and LANES (R368). -/
def State.rfxPorts (s : State) (b : List Byte) (t : Trigger) : List (Nat × Nat × BitVec 256) :=
  let scope := leAt b 2 1
  if scope ≤ 1 then
    match s.posOf t.row with
    | some (p, _) => [(p, t.row, if scope = 0 then t.lanes else BitVec.allOnes 256)]
    | none => []
  else ((List.range 32).filter (fun p => decide (scope = 3) || bitOf (leAt b 8 4) p)).map (fun p => (p, 0xFFFF, BitVec.allOnes 256))

/-- An entry fires (R368, R370). -/
def State.rfxFire (s : State) (e : Nat) (b : List Byte) (t : Trigger) (cut : BitVec 32) : State :=
  let scope := leAt b 2 1
  let s1 := (s.rfxPorts b t).foldl (fun u q => u.sendTrip q.1 e (leAt b 1 1) q.2.1 q.2.2 cut) s
  let s2 := (((s1.fsat (fTRL_RFX_CNT_COUNT e)).fset fTRL_RFX_LAST_ENTRY e).fset fTRL_RFX_LAST_KIND t.kind).fset
    fTRL_RFX_LAST_SCOPE scope
  let s3 := ((s2.fset fTRL_RFX_LAST_ROW t.row).fset fTRL_RFX_LAST_LT_LO_LT (s.lt.toNat % 2 ^ 32)).fset
    fTRL_RFX_LAST_LT_HI_LT (s.lt.toNat / 2 ^ 32)
  s3.assertEv 699

/-- One entry against a trigger: the whole entry is read (R366); an uncorrectable store error makes it invalid (R369). A decode
meets the enabled entries of the trigger's kind and those of a reserved kind. The frames of an entry follow those of the entries before
it: ports that an earlier one used have no other frame in progress left (R372). -/
def State.rfxEntry (s : State) (e : Nat) (t : Trigger) (cut : BitVec 32) : State × BitVec 32 :=
  let a := s.rfxAt e
  match s.tblRd a 16 with
  | (none, s1) => (s1.rfxBad e (s1.rdList a 16), cut)
  | (some b, s1) =>
    let kind := leAt b 0 1
    if bitOf (leAt b 3 1) 0 = false ∨ (kind ≠ t.kind ∧ kind ≤ 3) then (if rfxOk b then s1.rfxGood e else s1, cut)
    else if !rfxOk b then (s1.rfxBad e b, cut)
    else if rfxHit b t then
      ((s1.rfxGood e).rfxFire e b t cut, (s1.rfxPorts b t).foldl (fun c q => if s1.portSends q.1 then c &&& ~~~(BitVec.twoPow 32 q.1) else c) cut)
    else (s1.rfxGood e, cut)

/-- REFLEX_DECODE (R372): the oldest trigger is matched against the table; `cut` names the ports on which a frame other than a
TRIP frame is being sent (R333). -/
def execReflexDecode (cut : BitVec 32) (s : State) : Out :=
  .next (match (if s.mainRuns then s.triggers else []) with
    | [] => s
    | t :: ts => ((List.range 256).foldl (fun (u : State × BitVec 32) e => u.1.rfxEntry e t u.2) ({ s with triggers := ts }, cut)).1)

end Sys2Proof.Machine
end

