-- ==== Sys2Proof/Machine/HostOp.lean ====
section
/-! DEFINITION. The ladle: result queues and snapshots, and the resets of PCIe functions (spec/15_host_mailboxes.md R450 … R469). -/

namespace Sys2Proof.Machine

/-- Result queue `q`. -/
def State.rq (s : State) (q : Nat) : Hq := SMap.get hq0 s.hq q

/-- Sets result queue `q`. -/
def State.setRq (s : State) (q : Nat) (v : Hq) : State := { s with hq := SMap.put hq0 q v s.hq }

/-- Slots of a queue's ring (R459). -/
def State.rqSize (s : State) (q : Nat) : Nat := 2 ^ s.fget (fHOST_RQ_CFG_LOG2SIZE q)

/-- Indices written and not yet consumed. -/
def State.rqUsed (s : State) (q : Nat) : Nat := ((s.reg (rHOST_RQ_WIDX q)).toNat + 2 ^ 32 - (s.reg (rHOST_RQ_RIDX q)).toNat) % 2 ^ 32

/-- HOST_RQ_STAT[q] as the queue stands. -/
def State.rqStat (s : State) (q : Nat) : State :=
  let mine := s.staged.filter (fun e => decide (e.queue = q))
  let waits := mine.any (fun e => e.loss.isSome) || s.losses.any (fun l =>
    decide ((if s.fget (fHOST_RQ_ROUTE_ROUTE l.part) = 1 then l.part + 1 else 0) = q))
  ((s.fset (fHOST_RQ_STAT_FULL q) (b2n (decide (s.rqSize q ≤ s.rqUsed q)))).fset (fHOST_RQ_STAT_STAGED q) mine.length).fset
    (fHOST_RQ_STAT_LOSS_PEND q) (b2n waits)

/-- A posted write of the ladle into host memory, from function `f` (R450). -/
def State.dma (s : State) (f addr : Nat) (bytes : List Byte) : State :=
  s.emit { medium := .hostDma, dst := f, kind := 0, data := addr :: bytes.map (fun b => b.toNat) }

/-- A 64-bit address held in two registers, the low word's bits below `lo` taken as 0. -/
def State.addr64 (s : State) (lowReg highReg lo : Nat) : Nat :=
  (s.reg highReg).toNat * 2 ^ 32 + (s.reg lowReg).toNat / 2 ^ lo * 2 ^ lo

/-- A LOSS record (R461), without SEQ. -/
def lossRecord (l : Loss) : List Byte :=
  leBytes 3 0 ++ leBytes 1 2 ++ leBytes 4 (l.part * 2 ^ 24) ++ leBytes 8 l.lt ++ leBytes 5 l.wallSec ++ leBytes 1 l.wallEpoch ++ leBytes 2 0
    ++ leBytes 8 l.ltLast ++ leBytes 4 l.count ++ leBytes 24 0 ++ leBytes 4 0

/-- A record as it is placed at index `i` (R459, R464): SEQ in HEAD and TAIL, VALID set. -/
def withSeq (i : Nat) (l : List Byte) : List Byte :=
  leBytes 2 i ++ leBytes 1 1 ++ (l.drop 3).take 57 ++ leBytes 2 i ++ leBytes 2 0

/-- A message for the records written and not yet signalled (R463). -/
def State.rqSignal (s : State) (q : Nat) : State := (s.msixSend q (s.fget (fHOST_RQ_IRQ_VECTOR q))).setRq q {}

/-- The ladle writes a record to queue `q`: the record, then WIDX, then the message where one is due (R459, R460, R463). -/
def State.rqWrite (s : State) (q : Nat) (data : List Byte) (loss : Bool) : State :=
  let i := (s.reg (rHOST_RQ_WIDX q)).toNat
  let base := s.addr64 (rHOST_RQ_BASE_LO q) (rHOST_RQ_BASE_HI q) 6
  let s1 := (s.dma q (base + i % s.rqSize q * 64) (withSeq i data)).setReg (rHOST_RQ_WIDX q) (BitVec.ofNat 32 ((i + 1) % 2 ^ 32))
  let s2 := s1.when (s1.fbit (fHOST_RQ_WB_LO_WB_EN q)) (fun t =>
    t.dma q (t.addr64 (rHOST_RQ_WB_LO q) (rHOST_RQ_WB_HI q) 3) (leBytes 8 ((i + 1) % 2 ^ 32)))
  let h := s2.rq q
  let n := h.unsig + 1
  let s3 := s2.setRq q { unsig := n, since := if h.unsig = 0 then s2.lt.toNat else h.since }
  (s3.when (s3.fbit (fHOST_RQ_IRQ_EN q) && (loss || decide (s3.fget (fHOST_RQ_IRQ_THRESH q) ≤ n))) (fun t => t.rqSignal q)).rqStat q

/-- Whether the ladle can write to queue `q` now. -/
def State.rqOpen (s : State) (q : Nat) : Bool :=
  s.fbit (fHOST_RQ_CFG_EN q) && s.fnExists q && decide (s.rqUsed q < s.rqSize q)

/-- LADLE_RESULT_WRITE (R459 … R461): the first staged record whose queue has room leaves, its LOSS record before it. -/
def execLadleResultWrite (s : State) : Out :=
  .next (match (if s.mainRuns then s.staged.find? (fun e => s.rqOpen e.queue) else none) with
    | none => s
    | some e =>
      match e.loss with
      | some l => { s with staged := s.staged.map (fun (x : Staged) => if x.slot = e.slot then { x with loss := none } else x) }.rqWrite
          e.queue (lossRecord l) true
      | none => ({ s.tblSee (s.stageSlot e.slot) 64 with staged := s.staged.filter (fun x => decide (x.slot ≠ e.slot)) }.stageUse).rqWrite e.queue e.data false)

/-- RQ_TIMER (R463): TIMER µs after the first record not yet signalled was written. -/
def execRqTimer (qq : Fin 257) (s : State) : Out :=
  let q := qq.val
  let h := s.rq q
  let t := s.fget (fHOST_RQ_IRQ_TIMER q)
  .next (if (s.mainRuns && s.fbit (fHOST_RQ_IRQ_EN q) && (decide (t ≠ 0) && (decide (h.unsig ≠ 0) && decide (h.since + t * 1000 ≤ s.lt.toNat)))) = true
    then s.rqSignal q else s)

/-- Staged records of queue `q` are discarded and count as lost (R454, R461). -/
def State.rqDiscard (s : State) (q : Nat) : State :=
  let mine := s.staged.filter (fun e => decide (e.queue = q))
  let s1 := { s with staged := s.staged.filter (fun e => decide (e.queue ≠ q)) }.stageUse
  (mine.foldl (fun t e =>
    let t1 := match e.loss with | some l => t.addLoss l | none => t
    t1.loseResult (leAt e.data 7 1) q (leAt e.data 8 8)) s1).rqStat q

/-- Snapshot set `k`. -/
def State.snapSet (s : State) (k : Nat) : SnapSt := SMap.get snapSt0 s.snaps k

/-- Sets snapshot set `k`. -/
def State.setSnap (s : State) (k : Nat) (v : SnapSt) : State := { s with snaps := SMap.put snapSt0 k v s.snaps }

/-- Bytes of a row block: the tag and the chosen sections (R466). -/
def State.snapBlock (s : State) (k : Nat) : Nat :=
  let c := s.fget (fHOST_SNAP_CFG_SECTIONS k)
  16 + (if bitOf c 0 then 8192 else 0) + (if bitOf c 1 then 4096 else 0) + (if bitOf c 2 then 8192 else 0)
    + (if bitOf c 3 then 16384 else 0) + (if bitOf c 4 then 4096 else 0) + (if bitOf c 5 then 1024 else 0)

/-- Bytes of a buffer (R466). -/
def State.snapBytes (s : State) (k : Nat) : Nat := 128 + s.fget (fHOST_SNAP_ROWS_COUNT k) * s.snapBlock k

/-- The buffer size rounded up to 4 KB (R466). -/
def State.snapStride (s : State) (k : Nat) : Nat := (s.snapBytes k + 4095) / 4096 * 4096

/-- Address of the buffer that the snapshot in progress, or the next, goes into (R466, R467). -/
def State.snapBuf (s : State) (k : Nat) : Nat :=
  s.addr64 (rHOST_SNAP_BASE_LO k) (rHOST_SNAP_BASE_HI k) 12
    + (s.reg (rHOST_SNAP_WIDX k)).toNat % (s.fget (fHOST_SNAP_CTRL_NBUF k) + 1) * s.snapStride k

/-- The header of a snapshot (R466). -/
def State.snapHeader (s : State) (k : Nat) (valid : Bool) : List Byte :=
  let v := s.snapSet k
  let lt := if valid then s.tOf v.first else 0
  leBytes 2 (s.reg (rHOST_SNAP_WIDX k)).toNat ++ leBytes 1 (b2n valid) ++ leBytes 1 0x10 ++ leBytes 1 k ++ leBytes 1 (s.fget (fHOST_SNAP_CFG_SECTIONS k))
    ++ leBytes 2 (s.fget (fHOST_SNAP_ROWS_ROW_FIRST k)) ++ leBytes 2 (s.fget (fHOST_SNAP_ROWS_COUNT k)) ++ leBytes 2 0 ++ leBytes 4 (s.snapBytes k)
    ++ leBytes 8 v.first ++ leBytes 8 v.last ++ leBytes 8 lt
    ++ leBytes 5 (if valid then s.wallSecAt lt else 0) ++ leBytes 1 (if valid then s.wall.epoch else 0) ++ leBytes 18 0

/-- A start of set `k` at the boundary T(n) (R467): skipped while the set is busy or no buffer is free. -/
def State.snapStart (s : State) (n k : Nat) : State :=
  let v := s.snapSet k
  let per := s.fget (fHOST_SNAP_CFG_PERIOD k)
  let s1 := s.setSnap k { v with go := false }
  let trig := s.fbit (fHOST_SNAP_CTRL_EN k) && s.fnExists (s.fget (fHOST_SNAP_CFG_FUNC k)) && (v.go || (decide (per ≠ 0) && decide (n % per = 0)))
  if !trig then s1
  else
    let used := ((s.reg (rHOST_SNAP_WIDX k)).toNat + 2 ^ 32 - (s.reg (rHOST_SNAP_RIDX k)).toNat) % 2 ^ 32
    if (s.fbit (fHOST_SNAP_STAT_BUSY k) || decide (s.fget (fHOST_SNAP_CTRL_NBUF k) + 1 ≤ used)) = true then
      (s1.fsat (fHOST_SNAP_STAT_SKIP k)).fset fHOST_STAT_SNAP_SKIP 1
    else
      let s2 := (s1.fset (fHOST_SNAP_STAT_BUSY k) 1).setSnap k { since := n }
      s2.dma (s2.fget (fHOST_SNAP_CFG_FUNC k)) (s2.snapBuf k) (s2.snapHeader k false)

/-- The sections of a row as set `k` copies them (R466, R468): IN and STEP as the row's first frame load of the cycle reads them. -/
def State.snapSections (s : State) (k r c : Nat) (loaded : Bool) : List Byte :=
  let sel := s.fget (fHOST_SNAP_CFG_SECTIONS k)
  let b := rowBase r
  let part (i : Nat) (l : List Byte) : List Byte := if bitOf sel i then l else []
  let held (lo n : Nat) : List Byte :=
    match (if loaded then (s.row r).old c else none) with
    | some m => m.rdList lo n
    | none => s.rdList (b + lo) n
  part 0 (held 0 8192) ++ part 1 (s.rdList (b + 0x2000) 4096) ++ part 2 (held 0x3000 8192) ++ part 3 (s.rdList (b + 0x5000) 16384)
    ++ part 4 (s.rdList (0x3200000 + c % 2 * 0x200000 + r * 0x1000) 4096) ++ part 5 (s.rdList (0x3600000 + r * 0x400) 1024)

/-- Whether the frame load of a row for its cycle `c` is under way or has just ended, and whether there has been one (R468). -/
def State.inLoad (s : State) (r c : Nat) : Bool :=
  decide ((s.row r).job = some c) && (decide (s.fget (fSCHED_ROW_STAT_CLAIM r) = clLoading) || decide (s.fget (fSCHED_ROW_STAT_CLAIM r) = clLoaded))
def State.hadLoad (s : State) (r c : Nat) : Bool := decide ((s.row r).job = some c) || decide ((s.row r).wrote = some c)

/-- SNAPSHOT_ROW_CAPTURE (R465, R468): the next row of the set, once it has had a step pass in a cycle at or after the start, is
written from its frame load, or, where it has none in that cycle, from a fabric read; a read overtaken by a write-back or a command is retried. -/
def execSnapshotRowCapture (kk : Fin 16) (loaded valid : Bool) (s : State) : Out :=
  let k := kk.val
  let v := s.snapSet k
  let r := s.fget (fHOST_SNAP_ROWS_ROW_FIRST k) + v.next
  .next (match (s.row r).passed with
    | none => s
    | some c =>
      if (!s.mainRuns || !s.fbit (fHOST_SNAP_STAT_BUSY k) || decide (s.fget (fHOST_SNAP_ROWS_COUNT k) ≤ v.next) || decide (c < v.since)
          || (if loaded then !s.inLoad r c else s.hadLoad r c)) = true then s
      else if (!loaded && !valid) = true then (s.fsat fHOST_CNT_RETRY_COUNT).fset fHOST_STAT_RETRY 1
      else
        let f := s.fget (fHOST_SNAP_CFG_FUNC k)
        let own := decide (f = 0) || decide (s.owner r = some (f - 1))
        let flags := b2n (!own) + 2 * b2n loaded + 4 * b2n (!s.arrBit (rPART_GRF_ROWMIG 0) r)
        let tag := leBytes 2 r ++ leBytes 1 flags ++ leBytes 1 0 ++ leBytes 4 (c % 2 ^ 32) ++ leBytes 8 (s.tOf c)
        let body := s.snapSections k r c loaded
        let s := s.when (!loaded) (fun t => t.passTags inLadle (body.length / 128))
        let s1 := s.dma f (s.snapBuf k + 64 + v.next * s.snapBlock k) (tag ++ (if own then body else List.replicate body.length 0))
        s1.setSnap k { v with
          next := v.next + 1, first := if v.next = 0 then c else min v.first c, last := if v.next = 0 then c else max v.last c })

/-- SNAPSHOT_COMPLETE (R469): trailer, header with VALID = 1, message, and SNAPSHOT_DONE. -/
def execSnapshotComplete (kk : Fin 16) (s : State) : Out :=
  let k := kk.val
  let f := s.fget (fHOST_SNAP_CFG_FUNC k)
  let w := (s.reg (rHOST_SNAP_WIDX k)).toNat
  .next (if (s.fbit (fHOST_SNAP_STAT_BUSY k) && decide (s.fget (fHOST_SNAP_ROWS_COUNT k) ≤ (s.snapSet k).next)) = true then
    let s1 := s.dma f (s.snapBuf k + s.snapBytes k - 64) (leBytes 2 w ++ leBytes 62 0)
    let s2 := s1.dma f (s1.snapBuf k) (s1.snapHeader k true)
    let s3 := s2.when (s2.fbit (fHOST_SNAP_CTRL_IRQ_EN k)) (fun t => t.msixSend f (t.fget (fHOST_SNAP_CTRL_VECTOR k)))
    (((s3.setReg (rHOST_SNAP_WIDX k) (BitVec.ofNat 32 ((w + 1) % 2 ^ 32))).fset (fHOST_SNAP_STAT_BUSY k) 0).setSnap k
      { s3.snapSet k with next := 0 }).assertEv 700
  else s)

/-- A snapshot set stops: what it has in progress is discarded. -/
def State.snapStop (s : State) (k : Nat) : State :=
  ((s.fset (fHOST_SNAP_CTRL_EN k) 0).fset (fHOST_SNAP_STAT_BUSY k) 0).setSnap k {}

/-- A function's level reset (R454): its MSI-X state, its queue and its snapshot sets. -/
def State.fnReset (s : State) (f : Nat) : State :=
  let s1 := { s with
    msix := s.msix.filter (fun e => decide (e.1 / 1024 ≠ f)), msixEn := s.msixEn.filter (fun g => decide (g ≠ f))
    msixFmask := s.msixFmask.filter (fun g => decide (g ≠ f)) }
  let s2 := ((s1.fset (fHOST_RQ_CFG_EN f) 0).setRq f {}).rqDiscard f
  ((List.range 16).filter (fun k => decide (s2.fget (fHOST_SNAP_CFG_FUNC k) = f))).foldl (fun t k => t.snapStop k) s2

/-- VF_FLR (R454). -/
def execVfFlr (v : Fin 256) (s : State) : Out := .next (if s.fnExists (v.val + 1) then s.fnReset (v.val + 1) else s)

/-- A reset of the PF, or a link down (R454): every function's PCIe state, and VF Enable becomes 0. -/
def State.pcieDown (s : State) : State := { (List.range 257).foldl (fun t f => t.fnReset f) s with vfs := 0 }

/-- PF_FLR (R454): a PF FLR, a hot reset or a link down. -/
def execPfFlr (s : State) : Out := .next s.pcieDown

/-- PERST_N (R620): asserted, it acts as a link down. -/
def execPerstN (high : Bool) (s : State) : Out :=
  let s1 := { s with pins := { s.pins with perstN := high } }
  .next (if (!high && s.pins.perstN) = true then s1.pcieDown else s1)

/-- POISONED_TLP (R450): dropped and reported under AER; a write is entered in the posted-write error log. -/
def execPoisonedTlp (m : Nat) (write : Option Nat) (s : State) : Out :=
  let s1 := s.emit { medium := .aer, dst := m, kind := 1, data := [] }
  .next (match write with | some off => s1.pweLog off m 11 | none => s1)

end Sys2Proof.Machine
end

