-- ==== Sys2Proof/Machine/RegChk.lean ====
section
/-! DEFINITION. What a register write must pass beyond its fields' encodings: visibility, locks, and the checks of each block (spec/00_scope.md R12 … R16, R638; the register tables of each chapter). -/

namespace Sys2Proof.Machine

/-- What a check of a write answers: accepted, rejected under R12, or dropped with a reason of R456. -/
inductive Chk where
  | ok
  | reject
  | drop (reason : Nat)
  deriving DecidableEq, Repr

/-- Reasons of the posted-write error log (spec/15_host_mailboxes.md R456). -/
abbrev pwSize : Nat := 1
abbrev pwLocked : Nat := 2
abbrev pwStopped : Nat := 3
abbrev pwPassword : Nat := 4
abbrev pwNotVisible : Nat := 5
abbrev pwInUse : Nat := 6
abbrev pwState : Nat := 7
abbrev pwStandby : Nat := 8
abbrev pwNotEndpoint : Nat := 9
abbrev pwFabric : Nat := 10

/-- Rejects unless the condition holds. -/
def chkNeed (b : Bool) : Chk := if b then .ok else .reject

/-- Drops with a reason unless the condition holds. -/
def chkFree (r : Nat) (b : Bool) : Chk := if b then .ok else .drop r

/-- The first check that is not passed. -/
def chkAll : List Chk → Chk
  | [] => .ok
  | .ok :: l => chkAll l
  | c :: _ => c

/-- Index of the element that offset `off` is of an array of `n` registers from `base`, `stride` apart. -/
def arrAt (base stride n off : Nat) : Option Nat :=
  if base ≤ off ∧ (off - base) % stride = 0 ∧ (off - base) / stride < n then some ((off - base) / stride) else none

/-- Whether an offset is an element of an array of registers. -/
def inArr (base stride n off : Nat) : Bool := (arrAt base stride n off).isSome

/-- Whether a master is a VF. -/
def isVf (m : Nat) : Bool := decide (0x100 ≤ m) && decide (m < 0x200)

/-- Masters that access registers (spec/06_time_events.md R195): the PF, an existing VF, management, the standby peer and the engineering
service. -/
def State.busMaster (s : State) (m : Nat) : Bool :=
  if isVf m then s.fnExists (m - 0xFF) else decide (m = mPf) || decide (m = mMgt) || decide (m = mPeer) || decide (m = mEng)

/-! ### Registers as a writer finds them -/

/-- Registers of which each function has its own copy (spec/07_step_sequencer.md, spec/09_bus_ledger.md). -/
def fnCopy (off : Nat) : Bool :=
  decide (off = rSTEP_HOST_CH) || decide (off = rSTEP_HOST_ARG) || decide (off = rSTEP_HOST_CMD) || decide (off = rLEDG_CH_SEL)

/-- What a word nothing has written reads as. -/
def word0 : Nat → Word := fun _ => 0

/-- Key of master `m`'s copy or latch of a register. -/
def fnKey (m off : Nat) : Nat := m * 2 ^ 26 + off

/-- What a copy that no write has touched reads as. -/
def copy0 : Nat → Word := fun k => regReset (k % 2 ^ 26)

/-- A window descriptor's register: partition and window. -/
def winAt (off : Nat) : Option (Nat × Nat) :=
  if 0x40000 ≤ off ∧ off < 0x50000 ∧ 0x60 ≤ off % 0x100 ∧ off % 0x100 < 0x80 ∧ off % 4 = 0 then
    some ((off - 0x40000) / 0x100, (off % 0x100 - 0x60) / 8)
  else none

/-- A window register as it reads (spec/03_partitions_fabric.md R106): a held write's value with DONE at 0. -/
def State.winReg (s : State) (off : Nat) (n w : Nat) : Word :=
  let v := s.reg off
  let v1 := match (s.heldGrants.filter (fun h => decide (h.off = off))).getLast? with
    | none => v.toNat
    | some h =>
      if off = rPART_WIN_BASE n w then setBits v.toNat 25 12 (bitsOf h.value.toNat 25 12)
      else setBits (setBits v.toNat 12 8 (bitsOf h.value.toNat 12 8)) 2 0 (bitsOf h.value.toNat 2 0)
  let mine := s.heldGrants.any (fun h => decide (h.off = rPART_WIN_BASE n w) || decide (h.off = rPART_WIN_CTRL n w))
  BitVec.ofNat 32 (if off = rPART_WIN_CTRL n w ∧ mine = true then setBits v1 31 31 0 else v1)

/-- A register as master `m` finds it when it writes: its own copy, a held window write, and the module's mode in PART_CTRL[0].REQ (R77). -/
def State.held (s : State) (m off : Nat) : Word :=
  if isVf m && fnCopy off then SMap.get copy0 s.fnRegs (fnKey m off)
  else if off = rPART_CTRL 0 then
    BitVec.ofNat 32 (setBits (s.reg off).toNat 1 0 (if s.fget fSYS_MODULE_MODE_CUR = 0 then 0 else 1))
  else match winAt off with
    | some (n, w) => s.winReg off n w
    | none => s.reg off

/-- Stores a register's word where master `m` finds it. -/
def State.store (s : State) (m off : Nat) (v : Word) : State :=
  if isVf m && fnCopy off then { s with fnRegs := SMap.put copy0 (fnKey m off) v s.fnRegs } else s.setReg off v

/-! ### Locks -/

/-- LOCK bit of the block that an offset with RWL fields lies in. -/
def lockOf (off : Nat) : Fld :=
  if off < 0x030000 then fEVT_CTRL_LOCK
  else if off < 0x040000 then fSCHED_CTRL_LOCK
  else if off < 0x060000 then fPART_GRF_CFG_LOCK
  else if off < 0x160000 then fFAB_CTRL_LOCK
  else if off < 0x180000 then fSTEP_CTRL_LOCK
  else if off < 0x1A0000 then fCONV_CTRL_LOCK
  else if off < 0x1F0000 then fLEDG_CTRL_LOCK
  else if off = rTRL_RFX_CTRL then fTRL_RFX_CTRL_LOCK
  else if off < 0x280000 then fTRL_CTRL_LOCK
  else if off < 0x2A0000 then fRACK_CTRL_LOCK
  else if off < 0x2C0000 then fHOST_CTRL_LOCK
  else if off < 0x300000 then fMBX_CTRL_LOCK
  else if off < 0x320000 then fMGT_CTRL_LOCK
  else if off < 0x340000 then fTIME_CTRL_LOCK
  else if off < 0x350000 then fLIO_CTRL_LOCK
  else fPANEL_CTRL_LOCK

/-- Whether PART_CTRL[n].LOCK forbids the register: every writable field of the entry but PART_FAULT_PC.VALID (R92). -/
def State.entryLocked (s : State) (off : Nat) : Bool :=
  decide (0x40000 ≤ off) && decide (off < 0x50000) && decide (off % 0x100 ≠ 0xC0) && s.fbit (fPART_CTRL_LOCK ((off - 0x40000) / 0x100))

/-- A field that a lock keeps from a write of the register. -/
def State.fieldLocked (s : State) (off : Nat) (f : RegField) : Bool :=
  decide (f.acc ≠ .ro) && (s.entryLocked off || (decide (f.acc = .rwl) && s.fbit (lockOf off)))

/-- REQ of PART_CTRL[0], which a write leaves unchanged (R77), reads as the other read-only fields. -/
def fieldRo (off : Nat) (f : RegField) : Bool := decide (f.acc = .ro) || (decide (off = 0x40000) && decide (f.lo = 0))

/-- Whether a locked field would change (R638). -/
def lockedChange (a : Acc) (old x : Nat) : Bool :=
  match a with
  | .w1c => decide ((BitVec.ofNat 32 x &&& BitVec.ofNat 32 old) ≠ 0)
  | .w1s => decide ((BitVec.ofNat 32 x &&& ~~~ BitVec.ofNat 32 old) ≠ 0)
  | _ => decide (x ≠ old)

/-- A field's value after a write of `x` (R10). -/
def fieldNext (a : Acc) (old x : Nat) : Nat :=
  match a with
  | .rw => x
  | .rwl => x
  | .w1c => (BitVec.ofNat 32 old &&& ~~~ BitVec.ofNat 32 x).toNat
  | .w1s => (BitVec.ofNat 32 old ||| BitVec.ofNat 32 x).toNat
  | .ro => old
  | .wo => 0

/-- Whether a field takes the value (R12): W1C and W1S bits have no reserved values. -/
def RegField.takes (f : RegField) (x : Nat) : Bool :=
  f.legal.isEmpty || f.legal.any (fun r => decide (r.1 ≤ x) && decide (x ≤ r.2))

/-- A write's outcome field by field (R10, R12, R638): the merged word; whether every field takes its value; whether a locked field would
change; whether an unlocked field is there to write. -/
structure Merge where
  word : Nat
  legal : Bool
  changed : Bool
  open' : Bool
  deriving DecidableEq, Repr

/-- One field of a write of `raw` over `old`. -/
def State.mergeField (s : State) (off raw old : Nat) (a : Merge) (f : RegField) : Merge :=
  let x := bitsOf raw f.hi f.lo
  let o := bitsOf old f.hi f.lo
  if fieldRo off f then a
  else if s.fieldLocked off f then { a with changed := a.changed || lockedChange f.acc o x }
  else { a with word := setBits a.word f.hi f.lo (fieldNext f.acc o x), legal := a.legal && f.takes x, open' := true }

/-- All fields of a write. -/
def State.mergeWrite (s : State) (off raw old : Nat) (row : RegRow) : Merge :=
  row.fields.foldl (s.mergeField off raw old) { word := old, legal := true, changed := false, open' := false }

/-! ### What a VF reaches (R452 and each chapter's words on VFs) -/

/-- Whether a VF of partition `n` owns the row. -/
def State.ownsRow (s : State) (n r : Nat) : Bool := decide (s.owner r = some n)

/-- Whether an offset is a register of the host block that VF `f` sees. -/
def State.vfHost (s : State) (f off : Nat) : Bool :=
  (decide (rHOST_RQ_BASE_LO f ≤ off) && decide (off < rHOST_RQ_BASE_LO f + 0x40)) || decide (off = rHOST_RQ_LOST (f - 1))
    || (decide (0x2A6000 ≤ off) && decide (off < 0x2A6400) && decide (s.fget (fHOST_SNAP_CFG_FUNC ((off - 0x2A6000) / 0x40)) = f))

/-- Whether an offset is a register of a mailbox channel that VF `f` is an endpoint of, MBX_BIND aside. -/
def State.vfChan (s : State) (f off : Nat) : Bool :=
  let c := (off - 0x2E0000) / 0x80
  decide (0x2E0000 ≤ off) && decide (c < 128)
    && (decide (s.fget (fMBX_BIND_SENDER c) = f + 0xFF) || decide (s.fget (fMBX_BIND_RECEIVER c) = f + 0xFF))

/-- Whether VF `f` sees a register. -/
def State.vfReads (s : State) (f off : Nat) : Bool :=
  let n := f - 1
  if off < 0x10000 then off = rSYS_IDENT || off = rSYS_SERIAL_LO || off = rSYS_SERIAL_HI || off = rSYS_MODULE_MODE
  else if off < 0x20000 then false
  else if off < 0x30000 then off = rEVT_LT_LO || off = rEVT_LT_HI || off = rEVT_PEND n
  else if off < 0x40000 then
    decide (off ≤ 0x3006C) || (decide (rSCHED_P_SERVED n ≤ off) && decide (off < rSCHED_P_SERVED n + 0x20))
      || (match arrAt 0x34000 4 512 off with | some r => s.ownsRow n r | none => false)
  else if off < 0x50000 then decide (0x40000 + n * 0x100 ≤ off) && decide (off < 0x40100 + n * 0x100)
  else if off < 0x60000 then
    off = rPART_RULE || inArr 0x51000 4 512 off || off = rPART_GRF_STAT n || off = rPART_GRF_VAR n || off = rPART_GRF_COMMIT n
      || off = rPART_GRF_WIN n
  else if off < 0x160000 then false
  else if off < 0x180000 then
    off = rSTEP_HOST_CH || off = rSTEP_HOST_ARG || off = rSTEP_HOST_CMD
      || (decide (rSTEP_PART_RANGE n ≤ off) && decide (off < rSTEP_PART_RANGE n + 0x10))
      || (match arrAt 0x163000 4 512 off with | some r => s.ownsRow n r | none => false)
  else if off < 0x1A0000 then off = rCONV_EPOCH || off = rCONV_PART n
  else if off < 0x1F0000 then off = rLEDG_CH_SEL || off = rLEDG_CH_STAT || off = rLEDG_CH_REQ || off = rLEDG_CH_AGE
  else if off < 0x2A0000 then false
  else if off < 0x2C0000 then s.vfHost f off
  else if off < 0x300000 then
    s.vfChan f off || (match arrAt 0x2C1000 4 128 off with
      | some c => s.fget (fMBX_BIND_SENDER c) = f + 0xFF || s.fget (fMBX_BIND_RECEIVER c) = f + 0xFF
      | none => false)
  else off = rTIME_WALL_SEC_LO || off = rTIME_WALL_SEC_HI || off = rTIME_WALL_NS || off = rTIME_WALL_EPOCH || off = rTIME_UTC

/-- Whether VF `f` may write `raw` to a register. -/
def State.vfWrites (s : State) (f off raw : Nat) : Bool :=
  let n := f - 1
  if off = rPART_CTRL n then !bitOf raw 31
  else if off = rEVT_SW_RAISE then decide (bitsOf raw 9 0 = 128 + n)
  else if off = rSTEP_HOST_CMD then s.ownsRow n (bitsOf (s.held (f + 0xFF) rSTEP_HOST_CH).toNat 16 0 / 256)
  else if off = rSCHED_P_CLR n || off = rPART_FAULT_PC n || off = rSTEP_HOST_CH || off = rSTEP_HOST_ARG || off = rLEDG_CH_SEL then true
  else if 0x2A0000 ≤ off ∧ off < 0x2C0000 then
    s.vfHost f off && decide (off ≠ rHOST_RQ_LOST n)
      && (decide (off < 0x2A6000) || decide (off % 0x40 = 0x10) || decide (off % 0x40 = 0x18))
  else s.vfChan f off

/-! ### Checks of each block -/

/-- Targets of a grant window and whether it may write there (R101). -/
def winTargets : List (Nat × Nat × Bool) :=
  [(0x2000000, 0x3200000, false), (0x3200000, 0x3600000, false), (0x3600000, 0x3680000, true), (0x3680000, 0x3A00000, true),
    (0x1000000, 0x1800000, false)]

/-- Whether an enabled window lies wholly inside one target with only its rights (R101). -/
def winOk (base len : Nat) (wr : Bool) : Bool :=
  winTargets.any (fun t => decide (t.1 ≤ base) && decide (base + len ≤ t.2.1) && (!wr || t.2.2))

/-- Whether `a` granules from `b` overlap `c` granules from `d`. -/
def overlaps (b a d c : Nat) : Bool := decide (0 < a) && decide (0 < c) && decide (b < d + c) && decide (d < b + a)

/-- Partition table (R77, R83, R86, R93, R101, R102). -/
def State.chkPart (s : State) (m off v : Nat) : Chk :=
  let n := (off - 0x40000) / 0x100
  let q := off % 0x100
  let stop := decide (s.partMode n = 1)
  if q = 0x00 then chkNeed (n = 0 || !stop || bitsOf v 1 0 ≠ 2)
  else if q = 0x08 then chkNeed (stop && (n ≠ 0 || (bitsOf v 1 0 = 0 && bitOf v 20)))
  else if q = 0x0C then chkNeed (stop && decide (bitsOf v 27 16 < bitsOf v 12 0))
  else if q = 0x1C then
    let base := bitsOf v 13 0
    let size := bitsOf v 22 16
    chkNeed (stop && decide (base + size ≤ 14336) && (List.range 256).all (fun k =>
      k = n || !overlaps base size (s.fget (fPART_DATA_BASE k)) (s.fget (fPART_DATA_SIZE k))))
  else if q = 0x20 then
    chkNeed (stop && decide (0x1000 ≤ bitsOf v 15 0) && decide (bitsOf v 15 0 ≤ bitsOf v 31 16)
      && decide (bitsOf v 31 16 ≤ 0x1000 + s.fget (fPART_DATA_SIZE n) * 256))
  else if q = 0x10 || q = 0x24 || (0x30 ≤ q && q < 0x48) then chkNeed stop
  else if 0x60 ≤ q ∧ q < 0x80 then
    let w := (q - 0x60) / 8
    if q % 8 = 0 then chkNeed (!bitOf (s.held m (rPART_WIN_CTRL n w)).toNat 0)
    else chkNeed (!bitOf v 0 || winOk (bitsOf (s.held m (rPART_WIN_BASE n w)).toNat 25 12 * 4096) (bitsOf v 12 8 * 256) (bitOf v 2))
  else if 0x80 ≤ q ∧ q < 0xC0 then
    chkNeed (stop && (n ≠ 0 || v = 0) && (List.range 32).all (fun b =>
      !bitOf v b || (match s.owner ((q - 0x80) / 4 * 32 + b) with | some k => k = n | none => true)))
  else .ok

/-- Graft registers (spec/13_graft.md R395, R398, R414). -/
def State.chkGraft (s : State) (off raw v : Nat) : Chk :=
  let pool (f z : Fld) : Chk :=
    let lo := s.fget f * 16
    let hi := lo + s.fget z * 16
    chkNeed (decide (bitsOf v 10 0 + bitsOf v 26 16 ≤ 2048) && s.tblRuns.all (fun r => decide (r.1 + r.2 ≤ lo) || decide (hi ≤ r.1)))
  if off = rPART_GRF_CPOOL then pool fPART_GRF_CPOOL_BASE fPART_GRF_CPOOL_SIZE
  else if off = rPART_GRF_MPOOL then pool fPART_GRF_MPOOL_BASE fPART_GRF_MPOOL_SIZE
  else if off = rPART_GRF_GROUP then
    chkNeed (!bitOf raw 0 || (List.range 256).all (fun n =>
      !s.fbit (fPART_GRF_CTRL_GROUP n) || (s.grfState n ≠ gsChecking && s.grfState n ≠ gsRacking)))
  else if 0x52000 ≤ off ∧ off < 0x56000 then
    let n := (off - 0x52000) / 0x40
    let q := off % 0x40
    let loading := decide (s.grfState n = gsLoading)
    if q = 0 then
      chkAll [chkNeed (decide (((List.range 4).filter (fun i => bitOf raw (28 + i))).length ≤ 1)),
        chkFree pwState (loading || decide (v = (s.reg off).toNat))]
    else if q = 8 then chkNeed (bitsOf v 31 24 ≠ 0 || bitsOf v 23 16 = 0)
    else if 0x14 ≤ q ∧ q ≤ 0x20 then chkFree pwState loading
    else .ok
  else .ok

/-- Scheduler registers (spec/02_control_cycle.md R55, spec/10_trellis_link.md R324). -/
def State.chkSched (s : State) (off v : Nat) : Chk :=
  if off = rSCHED_BC then chkNeed ((List.range 32).all (fun p => schedTimingOk (s.tblNow p) (bitsOf v 9 0)))
  else if off = rSCHED_APPLY_OFS then
    chkNeed (decide (s.fget fSCHED_APPLY_MIN_MIN ≤ bitsOf v 19 0) && decide (bitsOf v 19 0 ≤ s.bc * 1000))
  else if off = rSCHED_SPARE then
    chkNeed (bitsOf v 13 8 ≠ bitsOf v 5 0 && decide (bitsOf v 13 8 ≤ 33) && decide (bitsOf v 5 0 ≤ 33))
  else .ok

/-- Event registers (spec/06_time_events.md R212, R218, R220). -/
def State.chkEvt (s : State) (off v : Nat) : Chk :=
  if inArr 0x21000 4 768 off then chkNeed (bitsOf v 24 16 = 0 || decide (bitsOf v 9 0 ≤ 7))
  else if 0x23000 ≤ off ∧ off < 0x23800 then
    let a := (off - 0x23000) / 0x20
    let q := off % 0x20
    let en := s.fbit (fEVT_ALM_CTRL_EN a)
    if q = 0 then
      let mode := bitsOf v 27 24
      let same := decide (mode = s.fget (fEVT_ALM_CTRL_MODE a)) && decide (bitsOf v 23 21 = bitsOf (s.reg off).toNat 23 21)
      let w := 2 ^ bitsOf v 23 22
      chkNeed ((!en || same)
        && (!bitOf v 31 || ((mode ≠ 1 || decide (1000 ≤ s.fget (fEVT_ALM_HYST_VALUE a)))
          && (decide (mode < 2) || decide (s.fget (fEVT_ALM_ADDR_ADDR a) % w = 0)))))
    else if q = 4 then chkNeed (!en)
    else if q = 0x10 then chkNeed (!en || s.fget (fEVT_ALM_CTRL_MODE a) ≠ 1 || decide (1000 ≤ v))
    else .ok
  else .ok

/-- A table of `kb` KB at a base in units of 4 KB must not pass the 8 MB of the table store. -/
def tblFits (base kb : Nat) : Bool := decide (base * 4 + kb ≤ 8192)

/-- Step sequencer registers (spec/07_step_sequencer.md, spec/13_graft.md R411). -/
def State.chkStep (s : State) (off v : Nat) : Chk :=
  match arrAt 0x161000 0x10 256 off with
  | some n =>
    let base := bitsOf v 14 0
    let len := bitsOf v 30 16
    chkNeed (decide (s.partMode n = 1) && decide (s.grfState n = gsIdle) && decide (base + len ≤ 32767) && (List.range 256).all (fun k =>
      k = n || !overlaps base len (s.fget (fSTEP_PART_RANGE_BASE k)) (s.fget (fSTEP_PART_RANGE_LEN k))))
  | none =>
    match arrAt 0x161004 0x10 256 off with
    | some n => chkNeed (decide (s.partMode n = 1) && decide (s.grfState n = gsIdle) && decide (bitsOf v 9 0 + bitsOf v 26 16 ≤ 1024))
    | none => .ok

/-- Whether a row's owner lets its configuration change: no partition in RUN or HOLD owns it. -/
def State.rowQuiet (s : State) (r : Nat) : Bool :=
  match s.owner r with
  | some n => decide (s.partMode n = 1)
  | none => true

/-- Conversion registers (spec/08_conversion_calibration.md). -/
def State.chkConv (s : State) (off v : Nat) : Chk :=
  if off = rCONV_TBL_CURVE then chkNeed (tblFits (bitsOf v 10 0) 2)
  else if off = rCONV_STAGE_CNT then chkNeed (!s.fbit fCONV_EPOCH_BUSY)
  else if 0x184000 ≤ off ∧ off < 0x18C000 ∧ off % 0x40 ≤ 0x10 then chkNeed (s.rowQuiet ((off - 0x184000) / 0x40))
  else .ok

/-- Ledger registers (spec/09_bus_ledger.md R282, R295). -/
def State.chkLedg (s : State) (off v : Nat) : Chk :=
  if off = rLEDG_TBL_CH then chkNeed (decide (s.fget fSYS_MODULE_MODE_CUR = 1))
  else match arrAt 0x1A3000 4 512 off with
    | some r => chkNeed (s.rowQuiet r)
    | none =>
      if 0x1A1000 ≤ off ∧ off < 0x1A2000 then
        let b := (off - 0x1A1000) / 0x40
        let q := off % 0x40
        if q = 0x08 then chkNeed (decide (v ≤ s.fget (fLEDG_BUS_IMP_SHED_MW b)))
        else if q = 0x0C then chkNeed (decide (v ≤ s.fget (fLEDG_BUS_EXP_SHED_MW b)))
        else if q = 0x10 then chkNeed (decide (s.fget (fLEDG_BUS_IMP_BUDGET_MW b) ≤ v))
        else if q = 0x14 then chkNeed (decide (s.fget (fLEDG_BUS_EXP_BUDGET_MW b) ≤ v))
        else .ok
      else .ok

/-- Whether a port's table in force would pass the checks of R324 as a table committed alone (R325). -/
def State.portTableOk (s : State) (p : Nat) : Bool :=
  let t := s.tblNow p
  let others := ((List.range 32).filter (fun q => q ≠ p)).flatMap (fun q => tblRows (s.tblNow q))
  schedFieldOk t && schedTimingOk t s.bc && (tblRows t).all (fun r => decide (countNat (tblRows t) r = 1) && !others.contains r)

/-- Field link registers (spec/10_trellis_link.md R319, R325, spec/14_racking_standby.md R441). -/
def State.chkTrl (s : State) (off raw v : Nat) : Chk :=
  if off = rTRL_CTRL then chkNeed (decide (s.fget fRACK_CFG_BEAT_LOSS + 3 ≤ bitsOf v 14 8))
  else if off = rTRL_TBL_SCHED then chkNeed ((List.range 32).all (fun p => !s.portEn p))
  else match arrAt 0x200000 0x4000 32 off with
    | some p =>
      chkNeed ((!s.portEn p || decide (bitsOf v 9 8 = s.fget (fTRL_PORT_CTRL_MEDIA p)))
        && (!bitOf v 0 || s.portEn p || s.portTableOk p))
    | none =>
      match arrAt 0x200200 0x4000 32 off with
      | some p => chkFree pwState (!bitOf raw 30 || !s.fbit (fTRL_MGMT_TX_BUSY p))
      | none => .ok

/-- TWIN_CMD of press pair `k` (spec/12_twin_presses.md R382, R390). -/
def State.chkTwin (s : State) (k raw : Nat) : Chk :=
  let st := s.fget (fPAIR_STAT_STATE (pressPage k))
  chkNeed (decide (bitsOf raw 13 8 = k) && !(bitOf raw 0 && bitOf raw 1) && (!bitOf raw 0 || st = stSpare) && (!bitOf raw 1 || st ≠ stFenced))

/-- Racking registers (spec/14_racking_standby.md R422, R441). -/
def State.chkRack (s : State) (off raw v : Nat) : Chk :=
  if off = rRACK_CFG then chkNeed (decide (bitsOf v 3 0 + 3 ≤ s.fget fTRL_CTRL_LOSS_CYCLES))
  else if off = rRACK_CMD then chkNeed (!(bitOf raw 0 && bitOf raw 1))
  else if off = rRACK_GEN_SEED then
    chkFree pwState (s.active && decide (s.fget fSYS_MODULE_MODE_CUR = 1) && decide (s.fget fRACK_STAT_SYNC ≠ syInSync))
  else .ok

/-- Host registers (spec/15_host_mailboxes.md R459 … R467). -/
def State.chkHost (s : State) (off raw v : Nat) : Chk :=
  if off = rHOST_TBL_STAGE then chkNeed (decide (s.fget fSYS_MODULE_MODE_CUR = 1))
  else if 0x2A1000 ≤ off ∧ off < 0x2A1000 + 257 * 0x40 then
    let q := (off - 0x2A1000) / 0x40
    let o := off % 0x40
    let en := s.fbit (fHOST_RQ_CFG_EN q)
    if o = 0x00 || o = 0x04 || o = 0x18 || o = 0x1C then chkNeed (!en)
    else if o = 0x08 then chkNeed (!en || bitsOf v 3 0 = s.fget (fHOST_RQ_CFG_LOG2SIZE q))
    else if o = 0x0C then chkNeed (q = 0 || decide (bitsOf v 25 16 ≤ 7))
    else if o = 0x14 then chkNeed (decide ((v + 2 ^ 32 - (s.reg (rHOST_RQ_RIDX q)).toNat) % 2 ^ 32 ≤ s.rqUsed q))
    else .ok
  else if 0x2A6000 ≤ off ∧ off < 0x2A6400 then
    let k := (off - 0x2A6000) / 0x40
    let o := off % 0x40
    let en := s.fbit (fHOST_SNAP_CTRL_EN k)
    if o = 0x00 || o = 0x04 || o = 0x0C then chkNeed (!en)
    else if o = 0x08 then chkNeed (!en && decide (bitsOf v 8 0 + bitsOf v 25 16 ≤ 512))
    else if o = 0x10 then
      chkAll [chkNeed (!en || bitsOf v 28 16 = bitsOf (s.reg off).toNat 28 16), chkFree pwState (!bitOf raw 30 || en)]
    else if o = 0x18 then
      let w := (s.reg (rHOST_SNAP_WIDX k)).toNat
      let r := (s.reg off).toNat
      chkNeed (decide ((v + 2 ^ 32 - r) % 2 ^ 32 ≤ (w + 2 ^ 32 - r) % 2 ^ 32))
    else .ok
  else .ok

/-- Endpoints that a binding may name (R470). -/
def mbxParty (x : Nat) : Bool := decide (x ≤ 0x201) || decide (x = 0x203)

/-- The state and endpoint that a mailbox command needs (R471). -/
def State.chkMbxCmd (s : State) (m c raw : Nat) : Chk :=
  let go := s.fbit (fMBX_CH_STAT_GO c)
  if decide (1 < ((List.range 4).filter (fun i => bitOf raw i)).length) then .reject
  else if bitOf raw 0 then chkAll [chkFree pwNotEndpoint (s.mbxSends c m), chkFree pwState (!go)]
  else if bitOf raw 1 then chkAll [chkFree pwNotEndpoint (s.mbxSends c m), chkFree pwState go]
  else if bitOf raw 2 || bitOf raw 3 then chkAll [chkFree pwNotEndpoint (s.mbxReceives c m), chkFree pwState go]
  else .ok

/-- Mailbox registers (R470 … R472). -/
def State.chkMbx (s : State) (m off raw v : Nat) : Chk :=
  match arrAt 0x2C1000 4 128 off with
  | some c =>
    chkNeed (!s.fbit (fMBX_CH_STAT_GO c) && mbxParty (bitsOf v 9 0) && mbxParty (bitsOf v 25 16) && bitsOf v 9 0 ≠ bitsOf v 25 16)
  | none =>
    if 0x2E0000 ≤ off ∧ off < 0x2E4000 then
      let c := (off - 0x2E0000) / 0x80
      let q := off % 0x80
      if q < 0x40 then
        if s.mbxWords c ≤ q / 4 then .ok
        else chkAll [chkFree pwNotEndpoint (s.mbxSends c m), chkFree pwState (!s.fbit (fMBX_CH_STAT_GO c))]
      else if q = 0x40 then s.chkMbxCmd m c raw
      else .ok
    else .ok

/-- Management registers (spec/19_management.md R560, R568). -/
def State.chkMgt (s : State) (off raw v : Nat) : Chk :=
  if off = rMGT_FW_CMD then
    chkAll [chkNeed (!(bitOf raw 31 && decide (bitsOf v 30 28 = 0)) || (decide (4 ≤ bitsOf v 10 0) && decide (bitsOf v 10 0 ≤ 1024))),
      chkFree pwState (!bitOf raw 31 || !s.fbit fMGT_FW_STAT_BUSY)]
  else if 0x3000C0 ≤ off ∧ off < 0x300180 then
    let i := (off - 0x3000C0) / 0x10
    let sg (x : Nat) : Int := sgn 16 x
    if off % 16 = 4 then
      chkNeed (decide (s.sensLimit (fMGT_SENS_CRIT_LO i) ≤ sg (bitsOf v 15 0)) && decide (sg (bitsOf v 31 16) ≤ s.sensLimit (fMGT_SENS_CRIT_HI i)))
    else if off % 16 = 8 then
      chkNeed (decide (sg (bitsOf v 15 0) ≤ s.sensLimit (fMGT_SENS_WARN_LO i)) && decide (s.sensLimit (fMGT_SENS_WARN_HI i) ≤ sg (bitsOf v 31 16)))
    else .ok
  else .ok

/-- RST and cask registers (spec/20_reset_watchdog_cask.md). -/
def State.chkRst (s : State) (off raw : Nat) : Chk :=
  if off = rRST_CTRL then chkNeed (!bitOf raw 0 || bitsOf raw 15 8 = 0xA5)
  else if off = rCASK_CTRL then chkNeed (!(bitOf raw 0 && bitOf raw 1))
  else if off = rCASK_OPT_CMD then
    chkAll [chkNeed (!(bitOf raw 0 && bitOf raw 1)), chkFree pwState (!s.fbit fCASK_OPT_STAT_BUSY)]
  else .ok

/-- Whether an IPv4 address is the module's to take: not 0, not multicast, not broadcast (spec/16_engineering_time.md). -/
def ipOk (a : Nat) : Bool := a ≠ 0 && decide (a / 2 ^ 28 ≠ 14) && decide (a ≠ 0xFFFFFFFF)

/-- Time registers (spec/16_engineering_time.md R494, R496). -/
def State.chkTime (s : State) (off raw v : Nat) : Chk :=
  if off = rTIME_SET_CMD then
    chkAll [chkNeed (!(bitOf raw 0 && bitOf raw 2)),
      chkFree pwState (!bitOf raw 0 || decide (s.fget fTIME_PTP_STAT_PORT_STATE ≠ psSlave)),
      chkFree pwState (!bitOf raw 2 || s.wall.hold.isSome)]
  else if off = rTIME_ENG_IP then chkNeed (ipOk v)
  else .ok

/-- CAN registers of controller `c` (spec/17_service_bus.md R515 … R523). -/
def State.chkCan (s : State) (c q raw v : Nat) : Chk :=
  let mode := s.fget (fCAN_CTRL_MODE c)
  let reg (i : Nat) : Nat := (s.reg (0x330000 + c * 0x1000 + i)).toNat
  if q = 0x00 then
    chkNeed (bitsOf v 2 0 ≠ cmRate || mode = cmRate
      || (List.range (s.fget (fCAN_RATE_CFG_COUNT c))).all (fun i => canTimingOk (reg (0x20 + 8 * i)) (reg (0x24 + 8 * i))))
  else if q = 0x08 then chkNeed (mode = cmOff && canTimingOk v (reg 0x0C))
  else if q = 0x0C then chkNeed (mode = cmOff && canTimingOk (reg 0x08) v)
  else if 0x20 ≤ q ∧ q < 0x60 then chkNeed (mode ≠ cmRate)
  else if q = 0x70 then
    let req := (List.range 3).filter (fun b => bitOf raw b)
    chkAll [chkNeed (req.all (fun b => !bitOf raw (8 + b) && (s.canPend c b || s.canReqOk c b))),
      chkFree pwState (req.isEmpty || decide (bitsOf raw 10 8 ≠ 0) || req.any (fun b => !s.canPend c b))]
  else if 0x100 ≤ q ∧ q < 0x1F0 then chkFree pwState (!s.canPend c ((q - 0x100) / 0x50))
  else .ok

/-- Local IO and panel registers (spec/18_local_io_panel.md R539, R551). -/
def State.chkIo (s : State) (off raw v : Nat) : Chk :=
  if off = rLIO_CTRL then chkFree pwState (!bitOf raw 8 || (s.fbit fLIO_STAT_LINK && s.fbit fLIO_STAT_SHUTDOWN))
  else if off = rLIO_MAP_IN then chkNeed (decide (bitsOf v 25 0 % 16 = 0))
  else if off = rLIO_MAP_OUT then chkNeed (decide (bitsOf v 25 0 % 4 = 0))
  else if off = rPANEL_CTRL then chkNeed (decide (1 ≤ bitsOf v 15 8) && decide (bitsOf v 15 8 ≤ bitsOf v 7 0))
  else if off = rPANEL_SWAP || decide (0x358000 ≤ off) then chkFree pwState (!s.fbit fPANEL_STAT_SWAP_PEND)
  else .ok

/-- The check of a write of `raw` that leaves the word `v`, beyond its fields' encodings. -/
def State.chkReg (s : State) (m off raw v : Nat) : Chk :=
  if off < 0x010000 then .ok
  else if off < 0x020000 then s.chkRst off raw
  else if off < 0x030000 then s.chkEvt off v
  else if off < 0x040000 then s.chkSched off v
  else if off < 0x050000 then s.chkPart m off v
  else if off < 0x060000 then s.chkGraft off raw v
  else if off < 0x140000 then
    (match (List.range 34).find? (fun k => decide (off = pressPage k + 0x840)) with
      | some k => s.chkTwin k raw
      | none => .ok)
  else if off < 0x160000 then .ok
  else if off < 0x180000 then s.chkStep off v
  else if off < 0x1A0000 then s.chkConv off v
  else if off < 0x1F0000 then s.chkLedg off v
  else if off < 0x280000 then s.chkTrl off raw v
  else if off < 0x2A0000 then s.chkRack off raw v
  else if off < 0x2C0000 then s.chkHost off raw v
  else if off < 0x300000 then s.chkMbx m off raw v
  else if off < 0x310000 then s.chkMgt off raw v
  else if off < 0x320000 then s.chkRst off raw
  else if off < 0x330000 then s.chkTime off raw v
  else if off < 0x340000 then s.chkCan ((off - 0x330000) / 0x1000) (off % 0x1000) raw v
  else s.chkIo off raw v

end Sys2Proof.Machine
end

