-- ==== Sys2Proof/Machine/RegEff.lean ====
section
/-! DEFINITION. What an accepted register write does beyond setting its fields: commands, clears and what other registers show of it (the register tables of each chapter). -/

namespace Sys2Proof.Machine

/-- Sets `n` registers from `base`, `stride` apart, to 0. -/
def State.zeros (s : State) (base stride n : Nat) : State :=
  (List.range n).foldl (fun t i => t.setReg (base + i * stride) 0) s

/-- SYS and RST (spec/01_architecture.md SYS_ERR_STAT, spec/20_reset_watchdog_cask.md R585, R593). -/
def State.effSys (s0 s : State) (off raw : Nat) : State :=
  if off = rSYS_MODULE_MODE then s.moduleReq (bitsOf raw 5 4)
  else if off = rSYS_ERR_STAT then
    s.when (bitOf raw 0 && s0.fbit fSYS_ERR_STAT_CFG_REJECT) (fun t => (t.setReg rSYS_CFG_REJECT 0).setReg rSYS_CFG_REJECT_SRC 0)
  else if off = rRST_CTRL then
    (s.when (bitOf raw 1) (fun t => t.fset fRST_START_FAIL_COUNT 0)).when (bitOf raw 0) (fun t => t.moduleReset 11 0)
  else s

/-- Events (spec/06_time_events.md R211, R220): enabling a value comparator clears ACTIVE. -/
def State.effEvt (s0 s : State) (off raw : Nat) : State :=
  if off = rEVT_SW_RAISE then s.assertEv (bitsOf raw 9 0)
  else if off = rEVT_CNT_CLR then
    s.when (bitOf raw 0) (fun t => ((t.setReg rEVT_CNT_MERGE 0).zeros (rEVT_SRC_CNT 0) 4 768).zeros (rEVT_ALM_CNT 0) 0x20 64)
  else match arrAt 0x23000 0x20 64 off with
    | some a =>
      let s1 := s.when (bitOf raw 31 && !s0.fbit (fEVT_ALM_CTRL_EN a)) (fun t =>
        { t.fset (fEVT_ALM_CTRL_ACTIVE a) 0 with almSeen := SMap.put (fun _ => false) a false t.almSeen })
      s1.when (decide (s1.fget (fEVT_ALM_CTRL_MODE a) ≤ 1)) (fun t => t.fset (fEVT_ALM_VALUE_V a) 0)
    | none => s

/-- Scheduler counters (spec/02_control_cycle.md R74). -/
def State.effSched (s : State) (off raw : Nat) : State :=
  if off = rSCHED_CNT_CLR then s.when (bitOf raw 0) (fun t => t.zeros rSCHED_CNT_STRETCH 4 5)
  else match arrAt 0x3101C 0x20 256 off with
    | some n => s.when (bitOf raw 0) (fun t => (t.zeros (rSCHED_P_SERVED n) 4 4).fset (fSCHED_P_SLACK_MIN_NS n) 0x7FFFFFFF)
    | none => s

/-- PART_ROW_OWNER of the rows of a word of PART_ROWMAP[n] that changed (R81). -/
def State.effRowmap (s0 s : State) (n k : Nat) : State :=
  let old := (s0.reg (rPART_ROWMAP n k)).toNat
  let new := (s.reg (rPART_ROWMAP n k)).toNat
  let s1 := (List.range 32).foldl (fun t b =>
    if bitOf new b = bitOf old b then t
    else (t.setReg (rPART_ROW_OWNER (32 * k + b)) (BitVec.ofNat 32 (if bitOf new b then 0x100 + n else 0))).when (!bitOf new b)
      (fun u => (u.setMig (32 * k + b) true).setRow (32 * k + b) { u.row (32 * k + b) with exOwner := some n })) s
  s1.fset (fPART_GRF_STAT_ROWS_OLD n) ((s1.rowsOfPart n).filter (fun r => !s1.arrBit (rPART_GRF_ROWMIG 0) r)).length

/-- Partition table (spec/03_partitions_fabric.md R81, R85); a W1C of PART_FAULT_PC.VALID clears the fault shadows (R98). -/
def State.effPart (s0 s : State) (off raw : Nat) : State :=
  let n := (off - 0x40000) / 0x100
  let q := off % 0x100
  if q = 0 ∧ n ≠ 0 then (s.fset (fPART_STAT_BUSY n) 1).setPart n { s.part n with pendReq := true }
  else if 0x80 ≤ q ∧ q < 0xC0 then s0.effRowmap s n ((q - 0x80) / 4)
  else if q = 0xC0 then s.when (bitOf raw 31) (fun t => t.zeros (rPART_FAULT_PC n) 4 7)
  else s

/-- Graft commands (spec/13_graft.md R394 … R414); on a standby they are ignored with RESULT STANDBY. -/
def State.effGraft (s : State) (m off raw : Nat) : State :=
  if off = rPART_GRF_GROUP then s.when (bitOf raw 0 && !s.standby) (fun t => t.grfGo m)
  else if 0x52000 ≤ off ∧ off < 0x56000 then
    let n := (off - 0x52000) / 0x40
    if off % 0x40 = 0 then
      if bitsOf raw 31 28 = 0 then s
      else if s.standby then s.grfResult n grStandby
      else if bitOf raw 31 then s.grfArm n m
      else if bitOf raw 30 then s.grfAbort n
      else if bitOf raw 29 then s.grfRollback n m
      else s.grfReleaseReq n
    else if off % 0x40 = 8 then s.grfAlloc n (bitsOf raw 31 24) (bitsOf raw 23 18) (bitsOf raw 17 16)
    else s
  else s

/-- A pair's counters cleared (R197). -/
def State.pairClear (s : State) (pg : Nat) : State := s.zeros (rPAIR_CNT_EXEC pg) 4 4

/-- Press, scalar and fabric blocks (spec/04_judin_model.md R159, spec/12_twin_presses.md R382, R390). -/
def State.effPress (s : State) (off raw : Nat) : State :=
  if off = rPRESS_CMN_CLR then s.when (bitOf raw 0) (fun t => t.zeros (rPRESS_CMN_EXC 0) 4 16)
  else if off = rSCALAR_CMN_CLR then s.when (bitOf raw 0) (fun t => t.zeros (rSCALAR_CMN_EXC 0) 4 16)
  else if off = rFAB_CNT_CLR then s.when (bitOf raw 0) (fun t => (t.zeros rFAB_CNT_DENIED 4 6).fset fFAB_TAGS_HWM 0)
  else if off % 0x1000 = 0x2C then s.when (bitOf raw 0) (fun t => t.pairClear (off - 0x2C))
  else match (List.finRange 34).find? (fun k => decide (off = pressPage k.val + 0x840)) with
    | some k => if bitOf raw 0 then s.startProof k.val else if bitOf raw 1 then s.fencePair k twForced {} else s
    | none => s

/-- Step sequencer (spec/07_step_sequencer.md R248): the command of the function that wrote it. -/
def State.effStep (s : State) (m off raw : Nat) : State :=
  if off = rSTEP_HOST_CMD then
    let arg := (s.held m rSTEP_HOST_ARG).toNat
    s.stepCmd (bitsOf (s.held m rSTEP_HOST_CH).toNat 16 0) ecHost (bitsOf raw 7 0) (bitsOf raw 15 8) (bitsOf arg 14 0) (bitsOf arg 31 16)
  else if off = rSTEP_CNT_CLR then s.when (bitOf raw 0) (fun t => t.zeros rSTEP_CNT_FAULT 4 5)
  else s

/-- Conversion (spec/08_conversion_calibration.md R259, R269, R280): a row's descriptor words serve the running cycle as they stood. -/
def State.effConv (s0 s : State) (off raw : Nat) : State :=
  if off = rCONV_EPOCH then s.when (bitOf raw 31) (fun t => t.fset fCONV_EPOCH_BUSY 1)
  else if off = rCONV_PERSIST then s.when (bitOf raw 31) (fun t => (t.fset fCONV_PERSIST_SAVE 0).calSaveStart)
  else if off = rCONV_CNT_CLR then s.when (bitOf raw 0) (fun t => t.zeros rCONV_CNT_TASTE 4 11)
  else if 0x184000 ≤ off ∧ off < 0x18C000 ∧ off % 0x40 ≤ 0x10 then
    let r := (off - 0x184000) / 0x40
    { s with descOld := (s0.keepDesc r).descOld }
  else s

/-- Ledger counters, and a row's bus (spec/09_bus_ledger.md R282, R283). -/
def State.effLedg (s0 s : State) (off raw : Nat) : State :=
  if off = rLEDG_CNT_CLR then
    s.when (bitOf raw 0) (fun t =>
      ((t.zeros rLEDG_CNT_ADMIT 4 7).zeros (rLEDG_BUS_CNT_SHED 0) 0x40 64).fset fLEDG_QUEUE_HWM 0)
  else if inArr (rLEDG_ROW_BUS 0) 4 512 off then s0.moveRow s ((off - rLEDG_ROW_BUS 0) / 4)
  else s

/-- What the registers show of a port's table in force (R325). -/
def State.showTable (s : State) (p : Nat) : State :=
  let b := s.boards p
  let s1 := (s.fset (fTRL_PORT_SCHED_BOARDS p) b).fset (fCONV_PORT_LEN_CYCLES p) (256 * b)
  ((List.range 16).foldl (fun t k => t.fset (fTRL_POS_STAT_ROW p k) (t.rowAt p k % 512)) s1).applyMin false

/-- TRL_PORT_CTRL commands (spec/10_trellis_link.md R326, R328, R329, R342). The rows of a port that is enabled become mapped: they start with
NOHARV_RUN at 0 (spec/02_control_cycle.md R644). -/
def State.effPort (s0 s : State) (p raw : Nat) : State :=
  let en := bitOf raw 0
  let s1 := if !en then s.setLink p lkDisabled else if !s0.portEn p then (s.mapRows (tblRows (s.tblNow p))).setLink p lkTraining else s
  let s2 := s1.when (en && bitOf raw 2) (fun t => t.setLink p lkRetrain)
  let s3 := s2.when (en && bitOf raw 1) (fun t => t.setLink p lkReset)
  s3.setPort p { s3.port p with helloNow := (s3.port p).helloNow || bitOf raw 4, delayNow := (s3.port p).delayNow || bitOf raw 3 }

/-- Field link (spec/10_trellis_link.md R319, spec/11_board_obligations_reflex.md). -/
def State.effTrl (s0 s : State) (off raw : Nat) : State :=
  if off = rTRL_RFX_CLR then s.when (bitOf raw 0) (fun t => t.zeros (rTRL_RFX_CNT 0) 4 256)
  else if off = rTRL_TBL_SCHED then (List.range 32).foldl (fun t p => t.showTable p) s
  else match arrAt 0x200000 0x4000 32 off with
    | some p => s0.effPort s p raw
    | none =>
      match arrAt 0x200180 0x4000 32 off with
      | some p => s.when (bitOf raw 0) (fun t => t.zeros (rTRL_CNT p 0) 4 24)
      | none =>
        match arrAt 0x200200 0x4000 32 off with
        | some p => s.when (bitOf raw 30) (fun t => t.fset (fTRL_MGMT_TX_BUSY p) 1)
        | none => s

/-- Racking (spec/14_racking_standby.md R422, R438, R447). -/
def State.effRack (s : State) (off raw : Nat) : State :=
  if off = rRACK_CMD then (s.when (bitOf raw 0) (fun t => t.swapReq)).when (bitOf raw 1) (fun t => t.resync)
  else if off = rRACK_GEN_SEED then s.putGen (bitsOf raw 15 0)
  else if off = rRACK_CNT_CLR then s.when (bitOf raw 0) (fun t => (t.zeros (rRACK_CNT 0) 4 12).setReg rRACK_SWEEP_WORST 0)
  else s

/-- Host block (spec/15_host_mailboxes.md R456, R459, R464, R467). -/
def State.effHost (s0 s : State) (off raw : Nat) : State :=
  if off = rHOST_PWE_CLR then
    s.when (bitOf raw 0) (fun t => ((List.range 16).foldl (fun u i => u.fset (fHOST_PWE_INFO_VALID i) 0) t).setReg rHOST_PWE_STAT 0)
  else if off = rHOST_CNT_CLR then
    s.when (bitOf raw 0) (fun t =>
      let t1 := ((t.zeros (rHOST_RQ_LOST 0) 4 256).setReg rHOST_CNT_RETRY 0).fset fHOST_STAGE_USE_HWM 0
      (List.range 16).foldl (fun u k => u.fset (fHOST_SNAP_STAT_SKIP k) 0) t1)
  else match arrAt 0x2A0400 4 256 off with
    | some n => (s.rqStat 0).rqStat (n + 1)
    | none =>
      if 0x2A1000 ≤ off ∧ off < 0x2A1000 + 257 * 0x40 then
        let q := (off - 0x2A1000) / 0x40
        let s1 := s.when (decide (off % 0x40 = 8) && bitOf raw 31 && !s0.fbit (fHOST_RQ_CFG_EN q)) (fun t =>
          (t.setReg (rHOST_RQ_RIDX q) (t.reg (rHOST_RQ_WIDX q))).setRq q {})
        s1.rqStat q
      else if 0x2A6000 ≤ off ∧ off < 0x2A6400 then
        let k := (off - 0x2A6000) / 0x40
        let o := off % 0x40
        if o = 0x08 || o = 0x0C then s.setReg (rHOST_SNAP_STRIDE k) (BitVec.ofNat 32 (s.snapStride k))
        else if o = 0x10 then
          if !s.fbit (fHOST_SNAP_CTRL_EN k) then s.snapStop k
          else s.when (bitOf raw 30) (fun t => t.setSnap k { t.snapSet k with go := true })
        else s
      else s

/-- PART_MBX_MASK of both endpoints of channel `c` as its binding stands (R97, R470). -/
def State.maskChan (s : State) (c : Nat) : State :=
  let ends := [s.fget (fMBX_BIND_SENDER c), s.fget (fMBX_BIND_RECEIVER c)].filter (fun n => decide (n < 256))
  ends.foldl (fun t n => t.setArrBit (rPART_MBX_MASK n 0) c (t.fbit (fMBX_BIND_EN c))) s

/-- The binding of channel `c` is written over `s0` (R470): the masks of the endpoints it had and of those it has. -/
def State.effBind (s0 s : State) (c : Nat) : State :=
  let old := [s0.fget (fMBX_BIND_SENDER c), s0.fget (fMBX_BIND_RECEIVER c)].filter (fun n => decide (n < 256))
  (old.foldl (fun t n => t.setArrBit (rPART_MBX_MASK n 0) c false) s).maskChan c

/-- A mailbox command in the state it needs (R471). -/
def State.effMbxCmd (s : State) (c raw : Nat) : State :=
  if bitOf raw 0 then s.mbxPost c
  else if bitOf raw 1 then s.mbxWithdraw c
  else if bitOf raw 2 then s.mbxTake c
  else if bitOf raw 3 then s.mbxComplete c (bitsOf raw 15 8)
  else s

/-- Mailbox block (R470 … R472). -/
def State.effMbx (s0 s : State) (off raw : Nat) : State :=
  match arrAt 0x2C1000 4 128 off with
  | some c => s0.effBind s c
  | none =>
    match arrAt 0x2E0040 0x80 128 off with
    | some c => s.effMbxCmd c raw
    | none => s

/-- MGT_FW_CMD.GO (spec/19_management.md R560, R561). -/
def State.fwGo (s : State) (op bytes : Nat) : State :=
  let ofs := s.fget fMGT_FW_OFS_OFFSET
  if op = 0 then
    s.fwStart ofs (((List.range 256).flatMap (fun j => leBytes 4 (s.reg (rMGT_FW_BUF j)).toNat)).take bytes)
  else if op = 1 then s.fwTrialOp ofs
  else if op = 2 then s.fwConfirmOp
  else s.fwCancelOp

/-- Management (spec/19_management.md R555, R560, R566, R578 … R581). -/
def State.effMgt (s0 s : State) (off raw : Nat) : State :=
  if off = rMGT_CTRL then s.when (bitOf raw 0) (fun t => t.mgtRestart 2)
  else if off = rMGT_CB_CTRL then
    let s1 := s.when (bitOf raw 0) (fun t => t.cbFfClear)
    if bitOf raw 31 && !s0.fbit fMGT_CB_CTRL_FREEZE then s1.cbFreeze
    else if !bitOf raw 31 && s0.fbit fMGT_CB_CTRL_FREEZE then s1.cbUnfreeze
    else s1
  else if off = rMGT_CB_IDX then s.cbSelect raw
  else if off = rMGT_FW_CMD then s.when (bitOf raw 31) (fun t => t.fwGo (bitsOf raw 30 28) (bitsOf raw 10 0))
  else if off = rMGT_SET_SAVE then ([3, 4, 5, 6].filter (fun i => bitOf raw i)).foldl (fun t i => t.setSave i) s
  else s

/-- Cask (spec/20_reset_watchdog_cask.md R599, R606, R610). -/
def State.effCask (s : State) (m off raw : Nat) : State :=
  if off = rCASK_CTRL then (s.when (bitOf raw 0) (fun t => t.caskStart)).when (bitOf raw 1) (fun t => t.caskDiscard)
  else if off = rCASK_PW_LO then { s with heldLo := SMap.put word0 rCASK_PW_LO (BitVec.ofNat 32 raw) s.heldLo }
  else if off = rCASK_PW_HI then
    let lo := (SMap.get word0 s.heldLo rCASK_PW_LO).toNat
    { s with heldLo := SMap.put word0 rCASK_PW_LO 0 s.heldLo }.caskUnlock m (s.fget fCASK_PW_SEL_REGION) (s.fbit fCASK_PW_SEL_KIND)
      (raw * 2 ^ 32 + lo)
  else if off = rCASK_LOCK then s.caskLock m raw
  else if off = rCASK_OPT_CMD then
    (s.when (bitOf raw 0) (fun t => t.optCommit m)).when (bitOf raw 1) (fun t => t.optReload)
  else s

/-- The time set in TIME_SET_*, in 2^−16 ns. -/
def State.setValue (s : State) : Int :=
  (((s.fget fTIME_SET_SEC_LO_SEC + 2 ^ 32 * s.fget fTIME_SET_SEC_HI_SEC) * 1000000000 + s.fget fTIME_SET_NS_NS) * 65536 : Nat)

/-- TIME_SET_CMD (spec/16_engineering_time.md R494, R496). -/
def State.timeCmd (s : State) (raw : Nat) : State :=
  if bitOf raw 0 then s.wallSet (s.setValue - s.wallTarget) (bitOf raw 1)
  else s.when (bitOf raw 2) (fun t => { t with wall := { t.wall with acceptBack := true } })

/-- Time (spec/16_engineering_time.md R494 … R499). -/
def State.effTime (s0 s : State) (off raw : Nat) : State :=
  if off = rTIME_SET_CMD then s.timeCmd raw
  else if off = rTIME_CNT_CLR then s.when (bitOf raw 0) (fun t => t.zeros (rTIME_CNT 0) 4 14)
  else if off = rTIME_PTP_CTRL then
    s.when (decide (bitsOf raw 31 28 ≠ bitsOf (s0.reg off).toNat 31 28)) (fun t => t.ptpRestart)
  else s

/-- CAN controller `c` (spec/17_service_bus.md R517 … R528): RECOVER, or AUTO_RECOVER set in bus off, starts recovery; a REQ of a buffer already
pending is dropped and logged while the rest of its write acts (R520). -/
def State.effCan (s : State) (m c q raw : Nat) : State :=
  if q = 0 then (s.canSearching c).when (bitOf raw 8 || bitOf raw 7) (fun t => t.canRecover c)
  else if q = 0x70 then
    let req := (List.range 3).filter (fun b => bitOf raw b)
    let s0 := s.when (req.any (fun b => s.canPend c b)) (fun t => t.pweLog (rCAN_TX_CMD c) m pwState)
    let s1 := req.foldl (fun t b => t.fset ⟨rCAN_TX_STAT c, b, b⟩ 1) s0
    ((List.range 3).filter (fun b => bitOf raw (8 + b))).foldl (fun t b => t.canAbort c b) s1
  else if q = 0xD8 then s.when (bitOf raw 0) (fun t => t.zeros (rCAN_CNT c 0) 4 6)
  else s

/-- Local IO and panel (spec/18_local_io_panel.md R539 … R553): OUT bits that the image drives keep their value. -/
def State.effIo (s0 s : State) (off raw : Nat) : State :=
  if off = rLIO_CTRL then s.when (bitOf raw 8) (fun t => t.lioArm)
  else if off = rLIO_OUT then
    s.setReg rLIO_OUT ((s0.reg rLIO_OUT &&& s0.reg rLIO_OUT_SRC) ||| (s.reg rLIO_OUT &&& ~~~ s0.reg rLIO_OUT_SRC))
  else if off = rLIO_OUT_SRC || off = rLIO_OUT_SAFE || off = rLIO_MAP_OUT then s.lioCheck
  else if off = rLIO_CNT_CLR then s.when (bitOf raw 0) (fun t => t.zeros (rLIO_CNT 0) 4 4)
  else if off = rPANEL_CTRL then s.when (decide (bitOf raw 16 ≠ s0.fbit fPANEL_CTRL_EN)) (fun t => t.pnEn)
  else if off = rPANEL_SWAP then s.pnRequest raw
  else s

/-- What a write of `raw` to an accepted register does once its fields have their values; `s0` is the state before it. -/
def State.effReg (s0 s : State) (m off raw : Nat) : State :=
  if off < 0x020000 then s0.effSys s off raw
  else if off < 0x030000 then s0.effEvt s off raw
  else if off < 0x040000 then s.effSched off raw
  else if off < 0x050000 then s0.effPart s off raw
  else if off < 0x060000 then s.effGraft m off raw
  else if off < 0x160000 then s.effPress off raw
  else if off < 0x180000 then s.effStep m off raw
  else if off < 0x1A0000 then s0.effConv s off raw
  else if off < 0x1F0000 then s0.effLedg s off raw
  else if off < 0x280000 then s0.effTrl s off raw
  else if off < 0x2A0000 then s.effRack off raw
  else if off < 0x2C0000 then s0.effHost s off raw
  else if off < 0x300000 then s0.effMbx s off raw
  else if off < 0x310000 then s0.effMgt s off raw
  else if off < 0x320000 then s.effCask m off raw
  else if off < 0x330000 then s0.effTime s off raw
  else if off < 0x340000 then s.effCan m ((off - 0x330000) / 0x1000) (off % 0x1000) raw
  else s0.effIo s off raw

end Sys2Proof.Machine
end

