-- ==== Sys2Proof/Machine/Events.lean ====
section
/-! DEFINITION. The event router, wakes, MSI-X and the alarm comparators (spec/06_time_events.md R206 … R220). -/

namespace Sys2Proof.Machine

/-- Whether partition `n` can await source `e` (R208). -/
def State.awaits (s : State) (n e : Nat) : Bool :=
  decide (e = 128 + n) || (List.range 4).any (fun j =>
    decide (s.fget (fPART_WAIT_BIND_SRC0 n j) = e) || decide (s.fget (fPART_WAIT_BIND_SRC1 n j) = e))

/-- Whether the context waits in WFE or WUNTIL on source `e` and no raise has ended its wait yet. -/
def Ctx.waitsOn (x : Ctx) (e : Nat) : Bool :=
  match x.stall with
  | some (.event q _ none) => x.running && decide (q = e)
  | _ => false

/-- Marks the wait as ended by source `e`; the context goes on at its wake. -/
def Ctx.wake (x : Ctx) (e : Nat) : Ctx :=
  match x.stall with
  | some (.event q d none) => { x with stall := some (.event q d (some e)) }
  | _ => x

/-- A raise of `e` at partition `n` (R208): every waiting context wakes and the pending bit stays clear; with none waiting
the bit is set, or the raise merges into it. -/
def State.raiseAt (s : State) (n e : Nat) : State :=
  let cs := allCx.filter (fun c => decide ((s.cx c).part = n) && (s.cx c).waitsOn e)
  if cs.isEmpty then
    let p := s.part n
    if p.pend.contains e then (s.fwrap fEVT_CNT_MERGE_COUNT).fset fEVT_STAT_MERGED 1
    else s.setPart n { p with pend := p.pend ++ [e] }
  else cs.foldl (fun t c => t.setCx c ((t.cx c).wake e)) s

/-- Partitions that a raise of `e` reaches: those in RUN or HOLD that can await it. -/
def State.reached (s : State) (e : Nat) : List Nat :=
  (List.range 256).filter (fun n => decide (s.partMode n ≠ 1) && s.awaits n e)

/-- Serves the raise of source `e` (R207): count, status bit, partitions, and the routes to host, management and cellar book
(R212, R213). A raise also triggers the reflex table's decoder. -/
def State.serveRaise (s : State) (e : Nat) : State :=
  let s0 := { s with evLatch := SMap.put (fun _ => false) e false s.evLatch, triggers := s.triggers ++ [({ kind := 2, arg := e, row := 0x3FF, lanes := 0 } : Trigger)] }
  let s1 := (s0.fwrap (fEVT_SRC_CNT_COUNT e)).setArrBit (rEVT_SRC_STAT 0) e true
  let s2 := (s1.reached e).foldl (fun t n => t.raiseAt n e) s1
  let s3 := s2.when (s2.fbit (fEVT_ROUTE_HOST_EN e)) (fun t => t.msixSend (t.fget (fEVT_ROUTE_FUNC e)) (t.fget (fEVT_ROUTE_VECTOR e)))
  let s4 := s3.when (s3.fbit (fEVT_ROUTE_MGT e)) (fun t =>
    if t.mgt.down || t.noticePend.contains e then t else { t with noticePend := t.noticePend ++ [e] })
  s4.when (s4.fbit (fEVT_ROUTE_LOG e)) (fun t => t.cellar 0x0010 e (t.fget (fEVT_SRC_CNT_COUNT e)) 0)

/-- Whether the router serves a source next: it is latched, and no lower one is (R206), and the main die runs. -/
def State.nextServed (s : State) (e : Nat) : Bool :=
  s.mainRuns && SMap.get (fun _ => false) s.evLatch e && s.evLatch.all (fun q => !q.2 || decide (e ≤ q.1))

/-- EVENT_RAISE: the router serves the latched assertion of a source, in ascending source number; with no assertion latched, or a lower source's
before it, nothing happens (R206). -/
def execEventRaise (src : Fin 768) (s : State) : Out := .next (if s.nextServed src.val then s.serveRaise src.val else s)

/-- A waiting context goes on with the instruction after its wait, with WAKE_SRC set (R209, R158). -/
def State.resumeWait (s : State) (c : Cx) (src : Nat) : State :=
  let x := s.cx c
  let f := s.freeC
  ((f.2.setCx c { x with stall := none, wakeSrc := src }).fset (fPAIR_STAT_STATE (cxPage c)) stExec).advance c 1 (1 + f.1) f.1

/-- CONTEXT_WAKE: a wait that a raise has ended resumes (R214). -/
def execContextWake (c : Cx) (s : State) : Out :=
  .next (if !s.mainRuns then s else match (s.cx c).stall with
    | some (.event _ _ (some e)) => s.resumeWait c e
    | _ => s)

/-- WUNTIL_DEADLINE: a wait whose deadline the line time has reached, and that no raise has ended, ends with 0x3FF (R209). -/
def execWuntilDeadline (c : Cx) (s : State) : Out :=
  .next (if !s.mainRuns then s else match (s.cx c).stall with
    | some (.event _ (some d) none) => if d ≤ s.lt.toNat then s.resumeWait c 0x3FF else s
    | _ => s)

/-- The line-time target of a comparator (R217). -/
def State.almTarget (s : State) (a : Nat) : Nat := s.fget (fEVT_ALM_A_VALUE a) + 2 ^ 32 * s.fget (fEVT_ALM_B_VALUE a)

/-- Sets the target. -/
def State.setAlmTarget (s : State) (a t : Nat) : State :=
  (s.fset (fEVT_ALM_A_VALUE a) (t % 2 ^ 32)).fset (fEVT_ALM_B_VALUE a) (t / 2 ^ 32)

/-- A comparator raises its source and counts it. -/
def State.almRaise (s : State) (a : Nat) : State := (s.fwrap (fEVT_ALM_CNT_COUNT a)).assertEv (608 + a)

/-- ALARM_LT_MATCH (R217, R218): LT_ONCE raises and clears EN; LT_PERIODIC raises once and its target passes the line time. -/
def execAlarmLtMatch (a : Fin 64) (s : State) : Out :=
  let t := s.almTarget a.val
  let m := s.fget (fEVT_ALM_CTRL_MODE a.val)
  if (s.mainRuns && s.fbit (fEVT_ALM_CTRL_EN a.val) && decide (m ≤ 1) && decide (t ≤ s.lt.toNat)) = true then
    if m = 0 then .next ((s.almRaise a.val).fset (fEVT_ALM_CTRL_EN a.val) 0)
    else
      let h := s.fget (fEVT_ALM_HYST_VALUE a.val)
      .next ((s.almRaise a.val).setAlmTarget a.val (t + h * ((s.lt.toNat - t) / h + 1)))
  else .next s

/-- The low `w` bits of a threshold register, signed or not. -/
def State.almVal (s : State) (off w : Nat) (signed : Bool) : Int :=
  let v := (s.reg off).toNat % 2 ^ w
  if signed then sgn w v else v

/-- Active and inactive conditions of the value modes on sample `v` (R217). -/
def almActive (mode : Nat) (v a b h : Int) : Bool × Bool :=
  if mode = 2 then (decide (a < v), decide (v ≤ a - h))
  else if mode = 3 then (decide (v < b), decide (b + h ≤ v))
  else if mode = 4 then (decide (a < v) || decide (v < b), decide (b + h ≤ v) && decide (v ≤ a - h))
  else (decide (b ≤ v) && decide (v ≤ a), decide (a + h < v) || decide (v < b - h))

/-- Evaluates a sample `v` (R217, R219, R220): the first after enabling sets ACTIVE and the reference without raising. -/
def State.almEval (s : State) (a : Nat) (w : Nat) (signed : Bool) (v : Int) : State :=
  let mode := s.fget (fEVT_ALM_CTRL_MODE a)
  let seen := SMap.get (fun _ => false) s.almSeen a
  let s1 := { s.fset (fEVT_ALM_VALUE_V a) (unsgn 32 v) with almSeen := SMap.put (fun _ => false) a true s.almSeen }
  if mode = 6 then
    s1.when (seen && decide (s.fget (fEVT_ALM_VALUE_V a) ≠ unsgn 32 v)) (fun t => t.almRaise a)
  else
    let on := almActive mode v (s.almVal (rEVT_ALM_A a) w signed) (s.almVal (rEVT_ALM_B a) w signed) (s.almVal (rEVT_ALM_HYST a) w signed)
    let cur := s.fbit (fEVT_ALM_CTRL_ACTIVE a)
    let new := if cur then !on.2 else on.1
    if !seen then s1.fset (fEVT_ALM_CTRL_ACTIVE a) (b2n on.1)
    else
      let edge := s.fget (fEVT_ALM_CTRL_EDGE a)
      let hit := decide (new ≠ cur) && (decide (edge = 2) || (decide (edge = 0) && new) || (decide (edge = 1) && !new))
      (s1.fset (fEVT_ALM_CTRL_ACTIVE a) (b2n new)).when hit (fun t => t.almRaise a)

/-- An alarm read that failed (R219): nothing is evaluated, ALM_ERR is set and raised. -/
def State.almError (s : State) : State := (s.fset fEVT_STAT_ALM_ERR 1).assertEv 713

/-- ALARM_SAMPLE_DONE (R219): the read issued at T(n) completes. -/
def execAlarmSampleDone (a : Fin 64) (r : Resp) (s0 : State) : Out :=
  let n := a.val
  let s := { s0 with almIssued := s0.almIssued.filter (fun q => decide (q ≠ n)) }
  let mode := s.fget (fEVT_ALM_CTRL_MODE n)
  if !s0.mainRuns then .next s0
  else if (!s0.almIssued.contains n || !s.fbit (fEVT_ALM_CTRL_EN n) || decide (mode < 2)) = true then .next s
  else
    let w := 8 * 2 ^ s.fget (fEVT_ALM_CTRL_WIDTH n)
    let addr := s.fget (fEVT_ALM_ADDR_ADDR n)
    let signed := s.fbit (fEVT_ALM_CTRL_SIGNED n)
    let val (t : State) : Int := let v := t.rdLE addr (w / 8); if signed then sgn w v else v
    let bad (resp : Nat) : State := (s.fabErr addr resp mMgt (s.fget fPART_RULE_EPOCH) false).almError
    match r with
    | .ok =>
      if addr < 0x1800000 then
        match s.tblRd addr (w / 8) with
        | (some _, t) => .next (t.almEval n w signed (val t))
        | (none, t) => .next t.almError
      else .next ({ s with linesAcc := s.linesAcc + 1 }.almEval n w signed (val s))
    | .void => .next s
    | .islandReset => .next (bad 2)
    | .denied => .next (bad 3)
    | .decerr => .next (bad 4)
    | .parity => .next ((bad 5).integCrit 3 0)

/-- MSIX_VECTOR_UNMASK (R212; log 18): a write of the MSI-X state; a vector that it leaves unmasked and enabled with its
pending bit set sends its message. -/
def execMsixVectorUnmask (f : Fin 257) (w : MsixWr) (s : State) : Out :=
  let fn := f.val
  let release (t : State) (v : Nat) : State :=
    let k := fn * 1024 + v
    let e := SMap.get msix0 t.msix k
    if (t.msixEn.contains fn && !t.msixFmask.contains fn && !e.masked && e.pending) = true then
      { t with msix := SMap.put msix0 k { e with pending := false } t.msix }.msixSend fn v
    else t
  let vecs := if fn = 0 then 1024 else 8
  match w with
  | .entry v addr data masked =>
    if vecs ≤ v then .next s
    else
      let k := fn * 1024 + v
      let e := SMap.get msix0 s.msix k
      if !s.fnExists fn then .next s else
      .next (release { s with msix := SMap.put msix0 k { e with addr := addr, data := data, masked := masked } s.msix } v)
  | .control enable fmask =>
    if !s.fnExists fn then .next s else
    let upd (l : List Nat) (b : Bool) := if b then (if l.contains fn then l else l ++ [fn]) else l.filter (fun q => decide (q ≠ fn))
    let s1 := { s with msixEn := upd s.msixEn enable, msixFmask := upd s.msixFmask fmask }
    .next (((s1.msix.filter (fun e => decide (e.1 / 1024 = fn))).map (fun e => e.1 % 1024)).foldl release s1)
  | .sriov n =>
    if fn ≠ 0 then .next s
    else
      let v := min n 256
      .next { s with
        vfs := v, msix := s.msix.filter (fun e => decide (e.1 / 1024 ≤ v)), msixEn := s.msixEn.filter (fun f => decide (f ≤ v))
        msixFmask := s.msixFmask.filter (fun f => decide (f ≤ v)) }

end Sys2Proof.Machine
end

