-- ==== Sys2Proof/Machine/Windows.lean ====
section
/-! DEFINITION. The windows on the table store, the program store and the image store: reach, locks, writes and reads (spec/00_scope.md R15, spec/01_architecture.md R640, R641, spec/15_host_mailboxes.md R452, R453). -/

namespace Sys2Proof.Machine

/-- How a write ends: accepted, rejected under R12, or dropped with a reason of R456. -/
inductive Wr where
  | ok
  | rejected
  | dropped (reason : Nat)
  deriving DecidableEq, Repr

/-- How a read ends: data, Unsupported Request (R14), or Completer Abort (R640). -/
inductive Ans where
  | data (l : List Byte)
  | ur
  | ca
  deriving DecidableEq, Repr

/-- Place of table store address `a` in a table of `size` bytes from byte offset `base`. -/
def inTbl (base size a : Nat) : Option Nat :=
  let d := (a - 0x1000000 + 0x800000 - base % 0x800000) % 0x800000
  if d < size then some d else none

/-- Whether a table store address lies in a table. -/
def isIn (base size a : Nat) : Bool := (inTbl base size a).isSome

/-- Whether address `a` lies in the step range or the limit sets of partition `n` in bank `b` (R223). -/
def State.inRange (s : State) (n b a : Nat) : Bool :=
  isIn (s.fget (fSTEP_TBL_STEP_BASE b) * 0x10000 + s.fget (fSTEP_PART_RANGE_BASE n) * 32) (s.fget (fSTEP_PART_RANGE_LEN n) * 32) a
    || isIn (s.fget (fSTEP_TBL_LIM_BASE b) * 4096 + s.fget (fSTEP_PART_LIM_BASE n) * 16) (s.fget (fSTEP_PART_LIM_COUNT n) * 16) a

/-- The channel whose coefficient entry holds address `a`. -/
def State.coefOf (s : State) (a : Nat) : Option Nat := (inTbl (s.fget fCONV_TBL_COEF_BASE * 0x10000) 0x400000 a).map (· / 32)

/-- The channel whose ledger record holds address `a`. -/
def State.ledgOf (s : State) (a : Nat) : Option Nat := (inTbl (s.fget fLEDG_TBL_CH_BASE * 4096) 0x80000 a).map (· / 4)

/-- Whether partition `n` owns a channel's row. -/
def State.ownsCh (s : State) (n : Nat) (c : Option Nat) : Bool := match c with | some ch => s.ownsRow n (ch / 256) | none => false

/-- What VF `f` reaches of the stores, to read or to write (R452). -/
def State.vfReach (s : State) (f a : Nat) (wr : Bool) : Bool :=
  let n := f - 1
  if isTable a then
    s.inRange n 0 a || s.inRange n 1 a || s.ownsCh n (s.coefOf a)
      || (!wr && (s.ownsCh n (s.ledgOf a) || isIn ((s.part n).run.constAt * 256) ((s.part n).run.constGran * 256) a))
  else if isProgram a then
    let v := (s.part n).run
    !wr && decide (0x1800000 + v.codeAt * 1024 ≤ a) && decide (a < 0x1800000 + (v.codeAt + v.codeKb) * 1024)
  else if a < 0x3200000 then
    let o := (a - 0x2000000) % 0x9000
    s.ownsRow n ((a - 0x2000000) / 0x9000) && (!wr || (decide (0x2000 ≤ o) && (decide (o < 0x3000) || decide (0x5000 ≤ o))))
  else if a < 0x3600000 then !wr && s.ownsRow n ((a - 0x3200000) % 0x200000 / 0x1000)
  else if a < 0x3680000 then s.ownsRow n ((a - 0x3600000) / 0x400)
  else
    let b := 0x3680000 + s.fget (fPART_DATA_BASE n) * 256
    decide (b ≤ a) && decide (a < b + s.fget (fPART_DATA_SIZE n) * 256)

/-- Whether address `a` lies in a pending run of a partition that is LOADING (R395). -/
def State.inPending (s : State) (a : Nat) : Bool :=
  s.parts.any (fun e =>
    let v := e.2.other
    decide (s.grfState e.1 = gsLoading)
      && (if isProgram a then decide (0x1800000 + v.codeAt * 1024 ≤ a) && decide (a < 0x1800000 + (v.codeAt + v.codeKb) * 1024)
          else isIn (v.constAt * 256) (v.constGran * 256) a || (match v.mapAt with | some q => isIn (q * 256) 256 a | none => false)))

/-- Whether a partition's graft keeps its other bank from being written (R411). -/
def State.bankHeld (s : State) (n : Nat) : Bool :=
  decide (s.oldBank n ≠ 0) || (s.fbit (fPART_GRF_CTRL_RECIPE n)
    && [gsChecking, gsRacking, gsArmed, gsWindow, gsRollback].contains (s.grfState n))

/-- Whether a step range or limit set keeps address `a` from being written (R224, R411). -/
def State.stepHeld (s : State) (a : Nat) : Bool :=
  (List.range 256).any (fun n =>
    (decide (s.fget (fSTEP_PART_RANGE_LEN n) ≠ 0) || decide (s.fget (fSTEP_PART_LIM_COUNT n) ≠ 0)) &&
    (let act := s.fget (fSTEP_PART_BANK_ACTIVE n)
     (decide (s.partMode n ≠ 1) && s.inRange n act a) || (s.inRange n (1 - act) a && s.bankHeld n)))

/-- The port of whose schedule table in force address `a` is a byte. -/
def State.schedAt (s : State) (a : Nat) : Option Nat :=
  match inTbl (s.fget fTRL_TBL_SCHED_BASE * 4096) 0x4000 a with
  | some d => if d / 256 % 2 = s.fget (fTRL_PORT_SCHED_COPY (d / 512)) then some (d / 512) else none
  | none => none

/-- Whether a byte of the table store is in use by the running plant, for R456's IN_USE (R224, R263, R269, R293, R325, R395, R411). -/
def State.tableHeld (s : State) (a : Nat) : Bool :=
  let stop := decide (s.fget fSYS_MODULE_MODE_CUR = 1)
  (!stop && (s.ledgOf a).isSome)
    || ((isIn (s.fget fPART_GRF_CPOOL_BASE * 4096) (s.fget fPART_GRF_CPOOL_SIZE * 4096) a
        || isIn (s.fget fPART_GRF_MPOOL_BASE * 4096) (s.fget fPART_GRF_MPOOL_SIZE * 4096) a) && !s.inPending a)
    || (match s.schedAt a with | some p => s.portEn p | none => false)
    || (match s.coefOf a with | some ch => !s.rowQuiet (ch / 256) | none => false)
    || s.stepHeld a
    || (match inTbl (s.fget fCONV_TBL_CURVE_BASE * 4096) 2048 a with
        | some d => decide (s.fget fSYS_MODULE_MODE_CUR = 0) && bitOf (s.rdB (tblAt (s.fget fCONV_TBL_CURVE_BASE * 4096 + d / 8 * 8 + 6))).toNat 0
        | none => false)

/-- Why a write of one byte of a window by master `m` is dropped, if it is. -/
def State.winDrop (s : State) (m a : Nat) : Option Nat :=
  if isImage a then
    if isVf m then
      (if !s.vfReach (m - 0xFF) a true then some pwNotVisible
       else if s.partMode (m - 0x100) = 1 then some pwStopped else none)
    else none
  else if isTable a || isProgram a then
    if isVf m && !s.vfReach (m - 0xFF) a true then some pwNotVisible
    else if s.standby then some pwStandby
    else if isProgram a then (if s.inPending a then none else some pwInUse)
    else if s.tableHeld a then some pwInUse
    else none
  else none

/-- Ports whose table in force a write of `n` bytes at `a` changed. -/
def State.schedPorts (s : State) (a n : Nat) : List Nat :=
  (List.range 32).filter (fun p => decide (s.tblInForce p < a + n) && decide (a < s.tblInForce p + 256))

/-- A racked write held while the ordered queue holds more than 192 KB (R431), counted; then racked (R430). -/
def State.rackWrite (s : State) (m a : Nat) (bytes : List Byte) : State :=
  if s.racks then
    (s.when (decide (196608 < s.rackHeld)) (fun t => (t.fset fRACK_ERR_WR_HOLD 1).fsat (fRACK_CNT_COUNT 8))).rackCfg m a bytes
  else s

/-- The initiator of a master's accesses from outside: the management path for the engineering service and management, else the PCIe
controller (spec/03_partitions_fabric.md R109). -/
def inMaster (m : Nat) : Nat := if m = mEng ∨ m = mMgt then inMgmt else inPcie

/-- The 128-byte lines of `n` bytes at `a`. -/
def linesOf (a n : Nat) : Nat := if n = 0 then 0 else (a + n - 1) / 128 - a / 128 + 1

/-- A write through a window, accepted (R15, R641): bytes, check bits, the record of R575 unless a command of the engineering service has its
own, racking. Reserved addresses ignore it (R11). -/
def State.winPut (s : State) (m a : Nat) (bytes : List Byte) (rec : Bool) : State :=
  let put := fun (t : State) (i : Nat) =>
    if isTable (a + i) || isProgram (a + i) || isImage (a + i) then t.wrB (a + i) (bytes.getD i 0) else t
  if isTable a || isProgram a then
    let s1 := s.when rec (fun t => t.cellarAs 0x0005 m a bytes.length (leAt bytes 0 4) 0)
    let s2 := (List.range bytes.length).foldl put (s1.wrEcc a bytes.length)
    let s3 := ((s2.schedPorts a bytes.length).filter (fun _ => isTable a)).foldl (fun t p => t.showTable p) s2
    s3.when (isTable a) (fun t => t.rackWrite m a bytes)
  else (List.range bytes.length).foldl put (s.passTags (inMaster m) (linesOf a bytes.length))

/-- A write by master `m` through a window: dropped whole where one of its bytes is. -/
def State.winWrite (s : State) (m a : Nat) (bytes : List Byte) (rec : Bool) : Wr × State :=
  match (List.range bytes.length).findSome? (fun i => s.winDrop m (a + i)) with
  | some r => (.dropped r, s.pweLog a m r)
  | none => (.ok, s.winPut m a bytes rec)

/-- A read by master `m` through a window: what lies outside a VF's reach, and reserved addresses, read as 0 (R11, R452). -/
def State.winRead (s : State) (m a n : Nat) : Ans × State :=
  let sees (x : Nat) : Bool := (isTable x || isProgram x || isImage x) && (!isVf m || s.vfReach (m - 0xFF) x false)
  let xs := (List.range n).map (a + ·)
  let s := s.when (isImage a) (fun t => t.passTags (inMaster m) (linesOf a n))
  let q := s.rdEcc ((wordsOf a n).filter (fun w => xs.any (fun x => decide (x / 8 = w) && sees x)))
  if q.1 then (.data (xs.map (fun x => if sees x then s.rdB x else 0)), q.2) else (.ca, q.2)

end Sys2Proof.Machine
end

