-- ==== Sys2Proof/Machine/View.lean ====
section
/-! DEFINITION. What registers read as (spec/00_scope.md R10, R11, R14, R18; spec/06_time_events.md R195): the ones that show live state, each reader's own, and the latches of 64-bit pairs. -/

namespace Sys2Proof.Machine

/-- Time, ns, that position `k` of port `p` leaves for an execution, and 0 where it leaves none: from the end of its harvest window and the
longest latencies of R49 and R53 to its pour cut-off (R61). -/
def posTime (bc ofs len pour boards k : Nat) : Nat :=
  bc * 1000 + (boards - 1 - k) * pour - 250 - (ofs + (k + 1) * len + 137 + 421)

/-- Press clocks of the least favoured of a list of times. -/
def leastClocks (l : List Nat) : Option Nat := (l.map (fun t => t * 5 / 4)).min?

/-- SCHED_ROW_MAX (R61): over the positions of enabled ports that carry a row; by the default table where there is none. -/
def State.rowMax (s : State) : Nat :=
  let l := (List.range 32).flatMap (fun p =>
    if s.portEn p then
      let t := s.tblNow p
      ((List.range (min 16 (leAt t 0 1))).filter (fun k => decide (leAt t (0x20 + 4 * k) 2 ≠ 0xFFFF))).map (fun k =>
        posTime s.bc (leAt t 4 4) (leAt t 2 2) (leAt t 8 2) (leAt t 0 1) k)
    else [])
  match leastClocks l with
  | some v => v
  | none => posTime s.bc 800 350 175 16 15 * 5 / 4

/-- PRESS_EXEC_PC or SCALAR_EXEC_PC of a pair (spec/04_judin_model.md). -/
def State.execPc (s : State) (c : Cx) : Nat :=
  let v := s.fget (fPAIR_STAT_STATE (cxPage c))
  let x := s.cx c
  if v = stExec ∨ v = stWait then x.part * 2 ^ 24 + 2 ^ 23 + b2n x.inHandler * 2 ^ 22 + x.pc.toNat else 0

/-- SCALAR_BIND[j] (spec/04_judin_model.md R159): whether a context runs on scalar pair `j`, and the channel bound in it. -/
def State.bindShow (s : State) (j : Nat) : Nat :=
  let x := s.cx (.scalar ⟨j % 16, Nat.mod_lt _ (by decide)⟩)
  if x.running then 2 ^ 31 + x.bind % 2 ^ 17 else 0

/-- EVT_PEND[n] (spec/06_time_events.md). -/
def State.evtPend (s : State) (n : Nat) : Nat :=
  let pend := (s.part n).pend
  let src (k : Nat) : Nat := if k % 2 = 0 then s.fget (fPART_WAIT_BIND_SRC0 n (k / 2)) else s.fget (fPART_WAIT_BIND_SRC1 n (k / 2))
  let wait := allCx.any (fun c => decide ((s.cx c).part = n) && (s.cx c).running
    && (match (s.cx c).stall with | some (.event _ _ none) => true | _ => false))
  b2n wait * 65536 + (List.range 8).foldl (fun a k => a + b2n (pend.contains (src k)) * 2 ^ (k + 1)) 0 + b2n (pend.contains (128 + n))

/-- LEDG_CH_STAT, LEDG_CH_REQ and LEDG_CH_AGE (`w` 0 … 2) for the channel that master `m` has selected; 0 for a VF's foreign channel. -/
def State.ledgShow (s : State) (m w : Nat) : Nat :=
  let ch := bitsOf (s.held m rLEDG_CH_SEL).toNat 16 0
  if isVf m && !s.ownsRow (m - 0x100) (ch / 256) then 0
  else if w = 0 then s.rdLE (s.ledgRec ch) 4
  else match s.ledgQ.find? (fun e => decide (e.ch = ch) && !e.cancelled) with
    | none => 0
    | some e => if w = 1 then 2 ^ 31 + e.cls % 4 * 2 ^ 29 + unsgn 24 e.amount else e.date % 2 ^ 32

/-- PART_GRF_WIN[n] (spec/13_graft.md). -/
def State.grfWin (s : State) (n : Nat) : Nat :=
  let left := match (s.part n).windowEnd with
    | some e => if s.grfState n = gsWindow then (e - s.lt.toNat + 999999999) / 1000000000 else 0
    | none => 0
  min left 4095 * 2 ^ 20 + s.oldBank n

/-- WDT_STAT with the time since the period began. -/
def State.wdtShow (s : State) : Nat :=
  let st := s.fget fWDT_STAT_STATE
  st * 2 ^ 28 + (if st = 0 then 0 else (s.lt.toNat - s.wdtStart) / 1000 % 2 ^ 20)

/-- Registers that show live state: their words, for the blocks below 0x160000. -/
def State.viewLow (s : State) (m off : Nat) : Option Nat :=
  if off = rSYS_IDENT then some (0x9100 * 65536 + s.fuses.window % 16 * 4096 + s.fuses.grade % 16 * 256 + s.fuses.stepping % 256)
  else if off = rSYS_SERIAL_LO then some (s.fuses.serial.toNat % 2 ^ 32)
  else if off = rSYS_SERIAL_HI then some (s.fuses.serial.toNat / 2 ^ 32)
  else if off = rWDT_CFG then some (s.wdtQuarters % 16 * 2 ^ 28 + s.fget fWDT_CFG_PERIOD)
  else if off = rWDT_STAT then some s.wdtShow
  else if off = rEVT_LT_LO then some (s.lt.toNat % 2 ^ 32)
  else if off = rEVT_LT_HI then some (s.lt.toNat / 2 ^ 32)
  else if off = rFAB_TAGS then some (s.releaseAll.reg rFAB_TAGS).toNat
  else if off = rSCHED_ROW_MAX then some s.rowMax
  else if off = rSCHED_CYCLE_LO then some (s.cycle.toNat % 2 ^ 32)
  else if off = rSCHED_CYCLE_HI then some (s.cycle.toNat / 2 ^ 32)
  else match arrAt 0x20800 4 256 off with
    | some n => some (s.evtPend n)
    | none =>
      match arrAt 0x5202C 0x40 256 off with
      | some n => some (s.grfWin n)
      | none =>
        match allCx.find? (fun c => decide (off = rPAIR_EXEC_PC (cxPage c))) with
        | some c => some (s.execPc c)
        | none =>
          match arrAt 0x120004 0x1000 16 off with
          | some j => some (s.bindShow j)
          | none => if off < 0x60000 then some (s.held m off).toNat else none

/-- Registers that show live state: their words, for the blocks from 0x160000. -/
def State.viewHigh (s : State) (m off : Nat) : Option Nat :=
  if off = rLEDG_CH_STAT then some (s.ledgShow m 0)
  else if off = rLEDG_CH_REQ then some (s.ledgShow m 1)
  else if off = rLEDG_CH_AGE then some (s.ledgShow m 2)
  else if off = rTRL_MAC_LO then some (s.fuses.serial.toNat % 2 ^ 24 * 256)
  else if off = rTRL_MAC_HI then some (0x0200 + s.fuses.serial.toNat / 2 ^ 24 % 256)
  else if off = rCASK_UNLOCKED then some (s.caskUnlocked m)
  else if off = rCASK_WEAR_VAL then some (s.wear (s.fget fCASK_WEAR_SEL_BLOCK))
  else if off = rTIME_WALL_SEC_LO then some (s.wallSec % 2 ^ 32)
  else if off = rTIME_WALL_SEC_HI then some (s.wallSec / 2 ^ 32)
  else if off = rTIME_WALL_NS then some s.wallSubNs
  else if 0x300200 ≤ off ∧ off < 0x300250 then
    let d := (off - 0x300200) / 16
    if d = 3 ∧ s.fbit fLIO_STAT_LINK = false then some 0 else some (s.fuses.dies.getD (3 * d + off % 16 / 4) 0)
  else none

/-- A register's word as master `m` finds it, WO fields and reserved bits 0 (R10, R11). -/
def State.view (s : State) (m off : Nat) : Word :=
  let v := match (if off < 0x160000 then s.viewLow m off else s.viewHigh m off) with
    | some v => v
    | none => (s.held m off).toNat
  match regRow? off with
  | none => 0
  | some r => BitVec.ofNat 32 (r.fields.foldl (fun a f => if f.acc = .wo then a else a + bitsOf v f.hi f.lo * 2 ^ f.lo) 0)

/-! ### Latches of 64-bit pairs -/

/-- The low words of 64-bit pairs that are read as pairs (R195), their number and stride, and the registers each latches: their distances
from the low word. -/
def latchTable : List (Nat × Nat × Nat × List Nat) :=
  [(rSYS_SERIAL_LO, 4, 1, [4]), (rRST_RETAIN_CYCLE_LO, 4, 1, [4]), (rRST_WDT_CAP_LT_LO, 4, 1, [4]), (rWDT_LAST_SVC_LO, 4, 1, [4]),
    (rEVT_LT_LO, 4, 1, [4]), (rSCHED_CYCLE_LO, 4, 1, [4]), (rPART_FAULT_LT_LO 0, 0x100, 256, [4]),
    (rTRL_RFX_LAST_LT_LO, 4, 1, [4]), (rRACK_TAKE_CYCLE_LO, 4, 1, [4]), (rRACK_PEER_SERIAL_LO, 4, 1, [4]),
    (rHOST_PWE_LT_LO 0, 0x10, 16, [4]), (rHOST_RQ_BASE_LO 0, 0x40, 257, [4]), (rHOST_RQ_WB_LO 0, 0x40, 257, [4]),
    (rHOST_SNAP_BASE_LO 0, 0x40, 16, [4]), (rTIME_WALL_SEC_LO, 4, 1, [4, 8, 12]), (rTIME_PTP_GM_LO, 4, 1, [4]),
    (rTIME_RTC_SEC_LO, 4, 1, [4, 8]), (rTIME_RTC_ALARM_LO, 4, 1, [4]), (0x100000 + 0x810, 0x1000, 48, [4]), (0x13E000 + 0x810, 0x1000, 2, [4])]

/-- Whether `off` is the low word of a line-time comparator's 64-bit target (spec/06_time_events.md R217, R218). -/
def State.almLow (s : State) (off : Nat) : Bool :=
  match arrAt (rEVT_ALM_A 0) 0x20 64 off with | some a => decide (s.fget (fEVT_ALM_CTRL_MODE a) ≤ 1) | none => false

/-- What a read of low word `off` latches. -/
def State.latches (s : State) (off : Nat) : List Nat :=
  if s.almLow off then [off + 4]
  else match latchTable.find? (fun e => inArr e.1 e.2.1 e.2.2.1 off) with
  | some e => e.2.2.2.map (off + ·)
  | none => []

/-- Whether a read of `off` returns the reader's latch. -/
def State.isLatched (s : State) (off : Nat) : Bool :=
  (decide (4 ≤ off) && s.almLow (off - 4)) || latchTable.any (fun e => e.2.2.2.any (fun d => decide (d ≤ off) && inArr e.1 e.2.1 e.2.2.1 (off - d)))

/-- A read of the register at `off` by master `m` (R195): a high word reads as the master's latch, and a low word's read sets it. -/
def State.regRead (s : State) (m off : Nat) : Word × State :=
  let s := s.when (decide (off = rTIME_RTC_SEC_LO)) (fun t => t.rtcCount)
  if s.isLatched off then (SMap.get word0 s.latHi (fnKey m off), s)
  else
    (s.view m off, (s.latches off).foldl (fun t h => { t with latHi := SMap.put word0 (fnKey m h) (s.view m h) t.latHi }) s)

end Sys2Proof.Machine
end

