-- ==== Sys2Proof/Machine/Boundary.lean ====
section
/-! DEFINITION. The cycle boundary (spec/02_control_cycle.md R44, R45, R57 … R62; spec/03_partitions_fabric.md R78, R79, R84 … R87). -/

namespace Sys2Proof.Machine

/-! ### Step 2: modes and admissions -/

/-- A partition starts (R66, R74): counters at 0, SLACK_MIN as after reset, EST at BUDGET; a request of its own is met (R85). -/
def State.startPart (s : State) (n : Nat) : State :=
  let s1 := (s.setPart n { s.part n with est := [], admitted := true, pendReq := false }).fset (fPART_STAT_BUSY n) 0
  let s2 := (s1.zeros (rSCHED_P_SERVED n) 4 4).fset (fSCHED_P_EST_CLOCKS n) (s.fget (fPART_BUDGET_BUDGET n))
  (s2.fset (fSCHED_P_SLACK_LAST_NS n) 0).fset (fSCHED_P_SLACK_MIN_NS n) 0x7FFFFFFF

/-- SCHED_ADMIT results. -/
abbrev adAdmitted : Nat := 1
abbrev adCapacity : Nat := 2
abbrev adRowMax : Nat := 3
abbrev adOvercommit : Nat := 4

/-- PART_STAT.CAUSE values (R91). -/
abbrev pcRequested : Nat := 1
abbrev pcRefused : Nat := 2
abbrev pcModuleStop : Nat := 3

/-- The admission test of partition `n` (R60, R62, R79, R95), the first failure in the order of R642. -/
def State.admitTest (s : State) (n : Nat) : Nat :=
  let rows := !(s.rowsOfPart n).isEmpty
  let d := s.fget fSCHED_DEMAND_CLOCKS
  let c := s.fget fSCHED_CAPACITY_CLOCKS
  let noCode := decide (s.fget (fPART_CODE_SIZE n) = 0) && (rows || s.fbit (fPART_CFG_SCALAR_EN n))
  if noCode || (rows && decide (s.rowMax < s.fget (fPART_BUDGET_BUDGET n))) then adRowMax
  else if c < d then adOvercommit
  else if rows && decide (s.fget (fPART_CFG_CLASS n) ≤ 1) && decide (c < d + s.peak n) then adCapacity
  else adAdmitted

/-- SCHED_ADMIT and the ADMIT record (R60, spec/19_management.md R577). -/
def State.admitNote (s : State) (n result : Nat) : State :=
  ((s.fset fSCHED_ADMIT_RESULT result).fset fSCHED_ADMIT_PARTITION n).cellar 0x0012 n result 0

/-- A start of partition `n` in mode `cur` is tested: it is admitted, or refused (R60, R86). -/
def State.admitPart (s : State) (n cur : Nat) : State :=
  let r := s.admitTest n
  let s1 := s.admitNote n r
  if r = adAdmitted then ((s1.startPart n).setCur n cur).demand
  else (s1.fset (fPART_CTRL_REQ n) 1).fset (fPART_STAT_CAUSE n) pcRefused

/-- A partition enters STOP at the boundary T(c) (R58, R86, R87). -/
def State.stopPart (s : State) (n c cause : Nat) : State :=
  let s1 := (s.fset (fPART_STAT_CAUSE n) cause).setCur n 1
  let s2 := s1.setPart n { s1.part n with admitted := false, scalarWait := none }
  (s2.rowsOfPart n).foldl (fun t r => t.cancelRow r c false) s2

/-- The module enters RUN (R78, R79, R87): partition 0, then the partitions whose REQ is RUN or HOLD, in ascending number; refused
while partition 0 has no code. Whether partition 0's own start is an admission the spec does not say: the model tells of it in neither
SCHED_ADMIT nor an ADMIT record, since it takes no test (DESIGN CHOICE, log 76). -/
def State.enterRun (s : State) : State :=
  let s0 := s.fset fSYS_MODULE_MODE_BUSY 0
  if s0.fget (fPART_CODE_SIZE 0) = 0 then
    (((s0.fset fSYS_MODULE_MODE_REQ 1).admitNote 0 adRowMax).fset (fPART_STAT_CAUSE 0) pcRefused)
  else
    let s1 := (((s0.setModule 0).startPart 0).setCur 0 0).wdtFirst
    ((List.range 256).filter (fun n => decide (n ≠ 0) && decide (s1.fget (fPART_CTRL_REQ n) ≠ 1))).foldl
      (fun t n => t.admitPart n (t.fget (fPART_CTRL_REQ n))) s1

/-- The module enters STOP at T(c) (R78, R87): every partition stops with cause MODULE_STOP, the watchdog goes OFF (spec/20_reset_watchdog_cask.md
R600) and image outputs take their safe values (spec/18_local_io_panel.md R548). -/
def State.enterStop (s : State) (c : Nat) : State :=
  let s1 := (s.fset fSYS_MODULE_MODE_BUSY 0).setModule 1
  (((List.range 256).foldl (fun t n => t.stopPart n c pcModuleStop) s1).demand.wdtOff).lioCheck

/-- Whether a request for RUN can be acted on: the calibration, a warm image and the start set have been restored
(spec/08_conversion_calibration.md R281, spec/20_reset_watchdog_cask.md R615, spec/19_management.md). -/
def State.mayRun (s : State) : Bool :=
  s.fbit fCONV_PERSIST_RESTORED && (!s.fbit fRST_RETAIN_BUSY && s.mgt.startSet.isNone)

/-- The module's request at T(c). -/
def State.moduleModes (s : State) (c : Nat) : State :=
  if !s.modeReqPend then s
  else
    let cur := s.fget fSYS_MODULE_MODE_CUR
    let done : State := { s with modeReqPend := false }
    if s.fget fSYS_MODULE_MODE_REQ = 0 then
      (if cur = 0 then done.fset fSYS_MODULE_MODE_BUSY 0 else if s.mayRun then done.enterRun else s)
    else if cur = 1 then done.fset fSYS_MODULE_MODE_BUSY 0
    else done.enterStop c

/-- A partition's request at T(c) (R85, R86). -/
def State.partRequest (s : State) (c n : Nat) : State :=
  let s1 := (s.fset (fPART_STAT_BUSY n) 0).setPart n { s.part n with pendReq := false }
  let cur := s.partMode n
  let req := s.fget (fPART_CTRL_REQ n)
  if s.fget fSYS_MODULE_MODE_CUR ≠ 0 ∨ req = cur then s1
  else if cur = 1 then (if req = 0 then s1.admitPart n 0 else s1)
  else if req = 1 then (s1.stopPart n c pcRequested).demand
  else if req = 2 then (s1.setCur n 2).setPart n { s1.part n with scalarWait := none }
  else s1.setCur n req

/-- Step 2 of T(c): the module's request, then the partitions' in ascending number. -/
def State.modeChanges (s : State) (c : Nat) : State :=
  let s1 := s.moduleModes c
  ((s1.parts.filter (fun e => e.2.pendReq)).map (fun e => e.1)).foldl (fun t n => t.partRequest c n) s1

/-! ### Takeover -/

/-- At T(t) (spec/14_racking_standby.md R444): the module takes the racked REQ; each partition takes its racked CUR without a test; the
watchdog starts; the ledger rebuilds from nothing (spec/09_bus_ledger.md). -/
def State.takeOn (s : State) (c : Nat) : State :=
  let led := 0x1000000 + s.fget fLEDG_TBL_CH_BASE * 4096
  let s0 : State := (List.range 64).foldl (fun t b => (t.setSums b {}).setQ b [])
    { s.takePorts with mem := SMap.clearRange led (led + 0x80000) s.takePorts.mem }
  let s1 := s0.setRack { s0.rack with takeAt := none }
  if s1.fget fSYS_MODULE_MODE_REQ ≠ 0 then s1.enterStop c
  else
    let s2 := (s1.fset fSYS_MODULE_MODE_BUSY 0).setModule 0
    (((List.range 256).filter (fun n => decide (s2.partMode n ≠ 1))).foldl (fun t n => t.startPart n) s2).demand.wdtFirst

/-! ### Step 5: the ledger -/

/-- Step 5 of T(n) on one bus (R297). -/
def State.ledgerBus (s : State) (b n : Nat) : State := (((s.latchBus b).closeMeas b).overloadTest b n).walkBus b n

/-- Step 5 of T(n). -/
def State.ledgerBoundary (s : State) (n : Nat) : State := (List.range 64).foldl (fun t b => t.ledgerBus b n) s

/-! ### Step 6, step 7 and what follows -/

/-- Step 6 (R45, R55): a new apply offset comes into force, and a new base cycle where the module was not in RUN before this boundary. -/
def State.newTiming (s : State) (wasRun : Bool) : State :=
  let s1 : State := { s with applyOfs := s.fget fSCHED_APPLY_OFS_OFS }
  if (wasRun || decide (s1.fget fSCHED_BC_BC = s1.bc)) = true then s1
  else (s1.fset fSCHED_BC_BC_ACTIVE (s1.fget fSCHED_BC_BC)).pairsChanged

/-- Step 7 (R74): the counters are latched into the scan records. -/
def State.latchCounters (s : State) : State :=
  (s.parts.map (fun e => e.1)).foldl (fun t n =>
    t.setPart n { t.part n with latched := (List.range 4).map (fun i => (t.reg (rSCHED_P_SERVED n + 4 * i)).toNat) }) s

/-- A partition's scalar context at its due T(n) (R645). -/
def State.queueScalar (s : State) (n m : Nat) : State :=
  let v := s.part n
  let lapse (t : State) : State :=
    if (t.rowsOfPart n).isEmpty then t.fwrap (fSCHED_P_SKIPPED_COUNT n) else t.fset fSCHED_STAT_SCALAR_OVR 1
  if v.scalarOn.isSome then lapse s
  else
    let s1 := s.setPart n { v with scalarWait := some m }
    if v.scalarWait.isSome then lapse s1 else s1

/-- The scalar contexts due in cycle `m` (R645). -/
def State.queueScalars (s : State) (m : Nat) : State :=
  ((List.range 256).filter (fun n => s.fbit (fPART_CFG_SCALAR_EN n) && (decide (s.partMode n = 0) && s.dueAt n m 0))).foldl
    (fun t n => t.queueScalar n m) s

/-- The value comparators issue their reads at T(n) (spec/06_time_events.md R219). -/
def State.almIssue (s : State) : State :=
  { s with almIssued := (List.range 64).filter (fun a => s.fbit (fEVT_ALM_CTRL_EN a) && decide (2 ≤ s.fget (fEVT_ALM_CTRL_MODE a))) }

/-- What ran in the cycle that ends (SCHED_BUSY, FAB_UTIL). -/
def State.useRegs (s : State) : State :=
  { (s.fset fSCHED_BUSY_CLOCKS s.busyAcc).fset fFAB_UTIL_LINES s.linesAcc with busyAcc := 0, linesAcc := 0 }

/-- T of the next cycle (R44). -/
def State.nextT (s : State) : Nat := if s.started then s.tn.toNat + s.bc * 1000 else s.mgt.t0

/-- Step 1 (R44): the cycle number and its T(n). -/
def State.nextCycle (s : State) : State :=
  let n := if s.started then s.cycle.toNat + 1 else if s.rack.beat.isSome then s.cycle.toNat + 1 else 0
  { s with started := true, cycle := BitVec.ofNat 64 n, tn := BitVec.ofNat 64 s.nextT }

/-- What every module does at T(n) after its own steps: events, alarm reads, snapshots, the racking port, ACCEPT_BACK. -/
def State.boundaryTail (s : State) (n : Nat) : State :=
  let s1 := ((s.assertEv 672).almIssue.useRegs)
  ((List.range 16).foldl (fun t k => t.snapStart n k) s1).rackBoundary.wallAccept

/-- T(n) on a module that executes. -/
def State.boundaryActive (s : State) (n : Nat) (wasRun : Bool) : State :=
  let s1 := if s.rack.takeAt.isSome then s.takeOn n else s.modeChanges n
  let s2 := ((s1.graftBoundary n).epochSwitch n).ledgerBoundary n
  let s3 := ((((s2.newTiming wasRun).schedBoundary).splitLeaves n).splitBoundary n).latchCounters
  let s3a := (List.range 32).foldl (fun t p => t.planPort p) (s3.queueScalars n)
  let s4 := { s3a with descPrev := s3a.descOld, descOld := [], restored := s3a.restored.filter (fun e => decide (n ≤ e.2 + 1)) }
  (((s4.calWalk n).rackEvents).boundaryTail n).lioMapIn n

/-- T(n) on a standby, or on a new active before T(t) (spec/14_racking_standby.md R433): the cycle goes on, racked tables and versions come
into force, nothing is executed. -/
def State.boundaryQuiet (s : State) (n : Nat) : State :=
  let s1 := if s.commitBits.isEmpty then s else s.checkCommits s.commitBits
  ((((s1.graftBoundary n).newTiming (decide (s.fget fSYS_MODULE_MODE_CUR = 0))).schedBoundary).splitLeaves n).boundaryTail n

/-- CYCLE_BOUNDARY (R57): the boundary falls once line time reaches T(n) (spec/06_time_events.md R194), from T(0) on, while the main die is
released and its ports are not yet silent. -/
def execCycleBoundary (s : State) : Out :=
  let ph := s.fget fRST_START_PHASE
  .next (if s.nextT ≤ s.lt.toNat ∧ (ph = phOperating ∨ (ph = phFlush ∧ s.flush.main = true ∧ s.flush.quiet = false)) then
      let wasRun := decide (s.fget fSYS_MODULE_MODE_CUR = 0)
      let runs (n : Nat) : Bool := s.active && (match s.rack.takeAt with | none => true | some t => decide (t ≤ n))
      let sw := s.rows.foldl (fun (t : State) e => t.convertWaiting e.1) s
      let s0 := (if s.started && s.active && s.rack.takeAt.isNone then sw.closeCycle s.cycle.toNat else sw).stageResume
      let s1 := s0.nextCycle
      let n := s1.cycle.toNat
      if runs n then s1.boundaryActive n wasRun else s1.boundaryQuiet n
    else s)

end Sys2Proof.Machine
end

