-- ==== Sys2Proof/Machine/JBranch.lean ====
section
/-! DEFINITION. Judin branches, jumps, calls and returns, and the scalar data stack (spec/05_judin_reference.md R178 … R181, spec/04_judin_model.md R129 … R131, R145 … R149). -/

namespace Sys2Proof.Machine

/-- The enabled lanes of a context with their numbers. -/
def Ctx.live (x : Ctx) : List (Nat × Lane) :=
  (x.lanes.zipIdx.map (fun e => (e.2, e.1))).filter (fun e => x.enabled e.1)

/-- Goes on past a branch of `len` words: to the target with one more clock where taken. -/
def State.branchTo (s : State) (c : Cx) (len : Nat) (taken : Bool) (t : BitVec 16) : State :=
  let x := s.cx c
  if taken then (s.setCx c { x with pc := t }).clocks c 2 0 else s.advance c len 1 0

/-- A relative target (R178). -/
def relTarget (pc : BitVec 16) (len : Nat) (d : BitVec 16) : BitVec 16 := pc + BitVec.ofNat 16 len + d

/-- A conditional branch (R130): taken where the condition holds in every enabled lane, not taken where in none, else ILLEGAL
with the lanes where it is true. -/
def State.condBranch (s0 : State) (c : Cx) (cc : CC) (len : Nat) (t : BitVec 16) : State :=
  let x := s0.cx c
  if s0.issues c then
    let s := s0.fetched c
    let yes := x.live.filter (fun e => ccHolds cc e.2.f)
    if yes.isEmpty then s.branchTo c len false t
    else if yes.length = x.live.length then s.branchTo c len true t
    else s.excHere c { cause := cIllegal, lanes := laneSet (yes.map (fun e => e.1)), addr := 0, bar := 0 }
  else s0

/-- Kinds of reduction branch (R131). -/
inductive Reduction where
  | any | all | none
  deriving DecidableEq, Repr

/-- Whether a reduction branch is taken (R131). -/
def Ctx.reduced (x : Ctx) (k : Reduction) : Bool :=
  match k with
  | .any => x.live.any (fun e => fL e.2.f)
  | .all => !x.live.isEmpty && x.live.all (fun e => fL e.2.f)
  | .none => !(x.live.any (fun e => fL e.2.f))

/-- A reduction branch. -/
def State.redBranch (s : State) (c : Cx) (k : Reduction) (len : Nat) (t : BitVec 16) : State :=
  let x := s.cx c
  if s.issues c then (s.fetched c).branchTo c len (x.reduced k) t else s

/-- An unconditional jump. -/
def State.jumpTo (s : State) (c : Cx) (t : BitVec 16) : State :=
  if s.issues c then (s.fetched c).branchTo c 1 true t else s

/-- The enabled lanes whose register differs from the lead lane's (R180). -/
def Ctx.differ (x : Ctx) (r : R16) : List Nat :=
  (x.live.filter (fun e => decide (e.2.r16 r ≠ x.lead.r16 r))).map (fun e => e.1)

/-- ILLEGAL of JMPX and CALLX where the enabled lanes disagree (R180). -/
def State.diverged (s : State) (c : Cx) (r : R16) : State :=
  s.excHere c { cause := cIllegal, lanes := laneSet ((s.cx c).differ r), addr := 0, bar := 0 }

/-- RSTACK: RSP = 63 or RS_FULL at a call, or an empty stack at a return (R146). -/
def State.rstack (s : State) (c : Cx) : State :=
  s.excHere c { cause := cRstack, lanes := (s.cx c).enabledSet, addr := 0, bar := 0 }

/-- JMPX (R180). -/
def State.jmpx (s : State) (c : Cx) (r : R16) : State :=
  let x := s.cx c
  if s.issues c then
    if (x.differ r).isEmpty then (s.fetched c).branchTo c 1 true (x.lead.r16 r) else (s.fetched c).diverged c r
  else s

/-- Pushes the return entry of a call of `len` words and jumps (R146). RSP parity is checked before the stack's room. -/
def State.callTo (s : State) (c : Cx) (len : Nat) (t : BitVec 16) : State :=
  let x := s.cx c
  if !x.rspGood then s.rspFault c
  else if (x.rsFull || decide (x.rsp = 63)) = true then s.rstack c
  else
    match x.push (x.entry (x.pc + BitVec.ofNat 16 len) false) with
    | none => s.rstack c
    | some y => (s.setCx c y).branchTo c len true t

/-- CALLX (R180). -/
def State.callx (s : State) (c : Cx) (r : R16) : State :=
  let x := s.cx c
  if s.issues c then
    if !x.rspGood then (s.fetched c).rspFault c
    else if (x.differ r).isEmpty then (s.fetched c).callTo c 1 (x.lead.r16 r)
    else (s.fetched c).diverged c r
  else s

/-- RET and RTE: pop an entry; RTE also restores F in every lane and LM (R146, R179). -/
def State.retFrom (s : State) (c : Cx) (rte : Bool) : State :=
  let x := s.cx c
  if s.issues c then
    if !x.rspGood then (s.fetched c).rspFault c
    else
      match x.pop with
      | none => (s.fetched c).rstack c
      | some (e, y) =>
        let z := { y with pc := e.pc }
        let w := if rte then
            { z with lm := e.lm, lanes := z.lanes.mapIdx (fun i l => { l with f := e.fs.getD i l.f }) }
          else z
        ((s.fetched c).setCx c w).clocks c 3 0
  else s

/-- STACK_BOUNDS at lane address `a` (R149). -/
def State.stackBounds (s : State) (c : Cx) (a : Nat) : State :=
  s.excHere c { cause := cStackBounds, lanes := (s.cx c).enabledSet, addr := a, bar := 0 }

/-- Whether bytes a … a + n − 1 lie in the data stack (R149). -/
def State.inStack (s : State) (n a len : Nat) : Bool :=
  decide (s.fget (fPART_STACK_LO n) ≤ a) && decide (a + len ≤ s.fget (fPART_STACK_HI n))

/-- Sets DP where a data-stack instruction of context `x` took effect: it neither stalls, nor waits to be issued, nor has it taken an
exception, for then PC stands at the instruction or the return stack has moved. -/
def State.moveDp (t : State) (c : Cx) (x : Ctx) (dp : BitVec 16) : State :=
  let y := t.cx c
  if y.running && y.stall.isNone && decide (y.pc = x.pc + 1) && decide (y.rsp = x.rsp) && decide (y.rsFull = x.rsFull) then t.setCx c { y with dp := dp }
  else t

/-- PUSH and POP address check: whether the access at `a` raises an exception of its own. -/
def State.stackTrap (s : State) (c : Cx) (a n : Nat) (wr : Bool) : Bool :=
  (s.accTrap (s.cx c) 0 ⟨a, n, wr⟩).isSome

end Sys2Proof.Machine
end

