-- ==== Sys2Proof/Machine/JSys.lean ====
section
/-! DEFINITION. Judin system, event and mailbox instructions, and the exceptions that arise outside an instruction (spec/05_judin_reference.md R186 … R188, spec/04_judin_model.md R129, R154, R158). -/

namespace Sys2Proof.Machine

/-- A uniform instruction of one word that changes the context alone. -/
def State.uniform (s : State) (c : Cx) (f : Ctx → Ctx) : State :=
  let x := s.cx c
  if s.issues c then ((s.fetched c).setCx c (f x)).advance c 1 1 0 else s

/-- Runs an instruction's effect where the context issues. -/
def State.onIssue (s : State) (c : Cx) (f : State → State) : State := if s.issues c then f (s.fetched c) else s

/-- PERM with no access (R96, R187). -/
def State.permHere (s : State) (c : Cx) : State :=
  s.excHere c { cause := cPerm, lanes := (s.cx c).enabledSet, addr := 0, bar := 0 }

/-- LM with each existing lane's bit given by its old bit and L; L is read in disabled lanes too (R129). -/
def Ctx.mapLm (x : Ctx) (f : Bool → Bool → Bool) : Ctx :=
  { x with lm := laneSet ((x.lanes.zipIdx.filter (fun e => f (x.enabled e.2) (fL e.1.f))).map (fun e => e.2)) }

/-- Sources a partition may send (R96). -/
def State.maySend (s : State) (n e : Nat) : Bool :=
  decide (e = 128 + n) || (List.range 2).any (fun j =>
    decide (s.fget (fPART_SEV_BIND_SRC0 n j) = e) || decide (s.fget (fPART_SEV_BIND_SRC1 n j) = e))

/-- Sources a partition may await (R96, R208). -/
def State.mayWait (s : State) (n e : Nat) : Bool :=
  decide (e = 128 + n) || (List.range 4).any (fun j =>
    decide (s.fget (fPART_WAIT_BIND_SRC0 n j) = e) || decide (s.fget (fPART_WAIT_BIND_SRC1 n j) = e))

/-- SEV e (R158): values from 768 are reserved, a source not bound raises PERM. -/
def State.jSev (s : State) (c : Cx) (e : Nat) : State :=
  s.onIssue c (fun s =>
    if 768 ≤ e then s.illegal c
    else if s.maySend (s.cx c).part e then s.afterDrain c (.sev e)
    else s.permHere c)

/-- Consumes a pending bit and goes on with WAKE_SRC := e (R209). -/
def State.consume (s : State) (c : Cx) (e : Nat) : State :=
  let x := s.cx c
  let p := s.part x.part
  ((s.setPart x.part { p with pend := p.pend.filter (fun q => decide (q ≠ e)) }).setCx c { x with wakeSrc := e }).advance c 1 1 0

/-- Stalls a context for an event, with a deadline in line time for WUNTIL. -/
def State.waitFor (s : State) (c : Cx) (e : Nat) (dl : Option Nat) : State :=
  (s.setCx c { s.cx c with stall := some (.event e dl none) }).fset (fPAIR_STAT_STATE (cxPage c)) stWait

/-- WFE e (R209). -/
def State.jWfe (s : State) (c : Cx) (e : Nat) : State :=
  s.onIssue c (fun s =>
    let n := (s.cx c).part
    if 768 ≤ e then s.illegal c
    else if !s.mayWait n e then s.permHere c
    else if (s.part n).pend.contains e then s.consume c e
    else s.waitFor c e none)

/-- Deadline of WUNTIL: LT_LOAD + X × 64 ns in the lead lane (R158, R163). -/
def Ctx.deadline (x : Ctx) : Nat := leAt x.sysrec 0x48 8 + x.lead.x.toNat * 64

/-- WUNTIL e (R209): 0x3FF waits for the deadline alone; a deadline already passed ends it at once, after the pending test. -/
def State.jWuntil (s : State) (c : Cx) (e : Nat) : State :=
  s.onIssue c (fun s =>
    let x := s.cx c
    if 768 ≤ e ∧ e ≠ 0x3FF then s.illegal c
    else if (decide (e ≠ 0x3FF) && !s.mayWait x.part e) = true then s.permHere c
    else if (decide (e ≠ 0x3FF) && (s.part x.part).pend.contains e) = true then s.consume c e
    else if x.deadline ≤ s.lt.toNat then (s.setCx c { x with wakeSrc := 0x3FF }).advance c 1 1 0
    else s.waitFor c e (some x.deadline))

/-- GO.SEND c (R187): the message is read at X of the lead lane, with the checks, the line-time latch and the stall of any read; then the
wait of R157 and the round trip. Of an exception with no lane enabled EXC_LANES shows no lane (R152), and the address is that of lane 0's
access. -/
def State.jGoSend (s : State) (c : Cx) (ch : Nat) : State :=
  s.onIssue c (fun s =>
    let x := s.cx c
    let l := x.leadLane
    let a := x.lead.x.toNat
    let n := s.mbxWords ch * 4
    let q : Access := ⟨a, n, false⟩
    if !s.mbxSends ch x.part then s.permHere c
    else if s.needsMigration x q then s.setCx c { x with stall := some (.migrate (x.bind / 256) false) }
    else
      match s.accTrap x l q with
      | some t =>
        let s1 := if t.1 = cPerm then s.logDenied x [(l, q)] else s
        let s2 := if t.1 = cBus then s1.integCrit 2 ((t.2.2 - 0x1000000) / 8) else s1
        s2.excHere c { cause := t.1, lanes := laneSet [l] &&& x.enabledSet, addr := t.2.1, bar := t.2.2 }
      | none =>
        let y := s.readCtx x [(l, q)]
        let bars := s.accBars x l q
        let msg := (List.range (n / 4)).map (fun i => BitVec.ofNat 32 (s.laneRead c y l ((a + 4 * i) % 65536) 4))
        let fs := if bars.1.isEmpty && bars.2.isEmpty then (0, s) else s.freeC
        let w := s.readStall c bars.1 bars.2 fs.1
        ((((fs.2.passTags (cxIdx c) (lineCount bars.1)).setCx c y).scrubWords bars.2).clocks c w w).afterDrain c (.goSend ch msg))

/-- GO.DONE c: the user code is bits 7:0 of X in the lead lane (R471). -/
def State.jGoDone (s : State) (c : Cx) (ch : Nat) : State :=
  s.onIssue c (fun s =>
    let x := s.cx c
    if s.mbxReceives ch x.part then s.afterDrain c (.goDone ch (x.lead.x.toNat % 256)) else s.permHere c)

/-- MREAD c (R187): the addresses of the copy are checked in every enabled lane; then the round trip. -/
def State.jMread (s : State) (c : Cx) (ch : Nat) : State :=
  s.onIssue c (fun s =>
    let x := s.cx c
    let n := s.mbxWords ch * 4
    if !s.mbxReceives ch x.part then s.permHere c
    else
      match worstTrap (x.live.filterMap (fun e => (s.accTrap x e.1 ⟨e.2.x.toNat, n, true⟩).map (fun t => (e.1, t)))) with
      | some t => s.excHere c t
      | none => s.setCx c { x with stall := some (.mbxRead ch) })

/-- LMSAVE and LMLOAD accept lane scratch alone, in every lane, enabled or not; any other address raises ADDR (R129). EXC_LANES shows the
enabled lanes that raised it (R152), and EXC_ADDR the address in the lowest of them (in the lowest lane that raised it where none is
enabled, log 17). -/
def State.lmAccess (s : State) (c : Cx) (o : MOp) (act : Nat → Lane → LaneAct) : State :=
  let x := s.cx c
  let bad := (x.lanes.zipIdx.filter (fun e => decide (0x100 ≤ (mopEa o e.1 1).1.toNat))).map (fun e => e.2)
  let on := bad.filter (fun i => x.enabled i)
  if s.issues c && !bad.isEmpty then
    (s.fetched c).excHere c { cause := cAddr, lanes := laneSet on
                              addr := (mopEa o ((x.lanes.drop (((on ++ bad).head?).getD 0)).headD {}) 1).1.toNat, bar := 0 }
  else s.perLane c (mopLen o) 1 true act

/-- LMSAVE ea. -/
def State.jLmsave (s : State) (c : Cx) (o : MOp) : State :=
  let lm := (s.cx c).lm
  s.lmAccess c o (fun i l =>
    let e := mopEa o l 1
    { accs := [⟨e.1.toNat, 1, true⟩], run := fun _ => (e.2, [(e.1.toNat, 1, b2n (lm.getLsbD i))]) })

/-- The lanes whose saved byte has bit 0 set. -/
def State.savedLm (s : State) (c : Cx) (o : MOp) : BitVec 256 :=
  let x := s.cx c
  laneSet ((x.lanes.zipIdx.filter (fun e => bitOf (s.laneRead c x e.2 (mopEa o e.1 1).1.toNat 1) 0)).map (fun e => e.2))

/-- LMLOAD ea. -/
def State.jLmload (s : State) (c : Cx) (o : MOp) : State :=
  let x := s.cx c
  let ok := s.issues c && x.lanes.all (fun l => decide ((mopEa o l 1).1.toNat < 0x100))
  let lm := s.savedLm c o
  let t := s.lmAccess c o (fun _ l =>
    let e := mopEa o l 1
    { accs := [⟨e.1.toNat, 1, false⟩], run := fun _ => (e.2, []) })
  if ok then t.setCx c { t.cx c with lm := lm } else t

/-- The first or second TIMEOUT of a lane context (R154): clocks reach 1,250 × BC, or 2,500 × BC. The first is taken at the
boundary, abandoning a wait for an event whose instruction then counts as not yet issued (R211; log 16); the second is a double fault. -/
def State.execTimeout (s : State) (k : Fin 34) : State :=
  let c := Cx.press k
  let x := s.cx c
  let t : Trap := { cause := cTimeout, lanes := x.enabledSet, addr := 0, bar := 0 }
  if !s.mainRuns || !x.running then s
  else if x.toSeen then
    (s.setCx c { x with clkUsed := max x.clkUsed (2500 * s.bc) }).doubleFault c t x.pc.toNat
  else
    let y := { x with clkUsed := max x.clkUsed (1250 * s.bc), toSeen := true }
    if x.defersExc then s.setCx c { y with toPend := true } else (s.setCx c y).excHere c t


/-- BAR0 address of the code word at PC (R126). -/
def Ctx.codeBar (x : Ctx) : Nat := 0x1800000 + x.ver.codeAt * 1024 + x.pc.toNat * 2

/-- A fetch fault: ADDR at fetch beyond the code region (R161), or an uncorrectable program store word, the first word's or the extension
word's, which stops the partition with CODE_ECC and in partition 0 resets the module (R89, R90). -/
def State.fetchFault (s : State) (c : Cx) (ecc : Bool) : State :=
  s.onIssue c (fun s =>
    let x := s.cx c
    if ecc then
      let bar := if s.eccAt x.codeBar = 2 then x.codeBar else x.wordBar ((x.pc.toNat + 1) % 65536)
      let w := (bar - 0x1800000) / 8
      let s1 := (s.countCause c cCodeEcc).integCrit 1 w
      if x.part = 0 then s1.moduleReset 6 (1 * 2 ^ 16 + w % 2 ^ 16)
      else (s1.captureFault c cCodeEcc x.enabledSet x.pc.toNat x.codeBar).partFaultStop c x.part 5 x.pc.toNat
    else s.excHere c { cause := cAddr, lanes := x.enabledSet, addr := 0, bar := 0 })

/-- NOP (R186). -/
def execJNop (c : Cx) (s : State) : Out := .next (s.uniform c (fun x => x))

/-- END (R186). -/
def execJEnd (c : Cx) (s : State) : Out := .next (s.onIssue c (fun s => s.afterDrain c .finish))

/-- FENCE (R155). -/
def execJFence (c : Cx) (s : State) : Out := .next (s.onIssue c (fun s => s.afterDrain c .fence))

/-- BRK (R186): the pushed PC is that of the next instruction (R151). -/
def execJBrk (c : Cx) (s : State) : Out :=
  .next (s.onIssue c (fun s =>
    let x := s.cx c
    s.takeExc c { cause := cBreak, lanes := x.enabledSet, addr := 0, bar := 0 } x.pc (x.pc + 1)))

/-- LMALL (R129). -/
def execJLmall (c : Cx) (s : State) : Out := .next (s.uniform c (fun x => x.mapLm (fun _ _ => true)))

/-- LMAND (R129). -/
def execJLmand (c : Cx) (s : State) : Out := .next (s.uniform c (fun x => x.mapLm (fun m l => m && l)))

/-- LMANDN (R129). -/
def execJLmandn (c : Cx) (s : State) : Out := .next (s.uniform c (fun x => x.mapLm (fun m l => m && !l)))

/-- LMOR (R129). -/
def execJLmor (c : Cx) (s : State) : Out := .next (s.uniform c (fun x => x.mapLm (fun m l => m || l)))

/-- LMSAVE (R129). -/
def execJLmsave (c : Cx) (o : MOp) (s : State) : Out := .next (s.jLmsave c o)

/-- LMLOAD (R129). -/
def execJLmload (c : Cx) (o : MOp) (s : State) : Out := .next (s.jLmload c o)

/-- SEV (R158). -/
def execJSev (c : Cx) (e : BitVec 10) (s : State) : Out := .next (s.jSev c e.toNat)

/-- WFE (R209). -/
def execJWfe (c : Cx) (e : BitVec 10) (s : State) : Out := .next (s.jWfe c e.toNat)

/-- WUNTIL (R209). -/
def execJWuntil (c : Cx) (e : BitVec 10) (s : State) : Out := .next (s.jWuntil c e.toNat)

/-- GO.SEND (R187). -/
def execJGoSend (c : Cx) (ch : BitVec 7) (s : State) : Out := .next (s.jGoSend c ch.toNat)

/-- GO.DONE (R187). -/
def execJGoDone (c : Cx) (ch : BitVec 7) (s : State) : Out := .next (s.jGoDone c ch.toNat)

/-- MREAD (R187). -/
def execJMread (c : Cx) (ch : BitVec 7) (s : State) : Out := .next (s.jMread c ch.toNat)

/-- TRIG (R186). -/
def execJTrig (c : Cx) (t : BitVec 6) (s : State) : Out := .next (s.onIssue c (fun s => s.afterDrain c (.trig t.toNat)))

/-- EXEC_TIMEOUT (R154). -/
def execExecTimeout (k : Fin 34) (s : State) : Out := .next (s.execTimeout k)

/-- BUS_POSTED_WRITE (R151). -/
def execBusPostedWrite (c : Cx) (addr : Nat) (lanes : BitVec 256) (s : State) : Out :=
  .next (if s.mainRuns then s.postedFail c cBus addr lanes else s)

/-- UNDEFINED_OPCODE (R162): any word the opcode map reserves raises ILLEGAL. -/
def execUndefinedOpcode (c : Cx) (_w : BitVec 16) (s : State) : Out := .next (s.onIssue c (fun s => s.illegal c))

/-- INSTRUCTION_FETCH_FAULT (R161, R89). -/
def execInstructionFetchFault (c : Cx) (ecc : Bool) (s : State) : Out := .next (s.fetchFault c ecc)

end Sys2Proof.Machine
end

