-- ==== Sys2Proof/Machine/Fabric.lean ====
section
/-! DEFINITION. The image fabric: grants in flight, completions and their responses, age promotion, and the mailbox round trip (spec/03_partitions_fabric.md R104 … R120, spec/05_judin_reference.md R187, R188). -/

namespace Sys2Proof.Machine

/-- Rule epochs that accesses of press and scalar pairs in flight carry, writes in their compare buffers included (R104). -/
def State.epochsOut (s : State) : List Nat :=
  s.inflight.filterMap (fun r => if r.cx.isSome then some r.ruleEpoch else none)
    ++ s.ctxs.flatMap (fun e => e.2.buf.map (fun w => w.ruleEpoch))

/-- How many grant-table writes ago epoch `e` was current. -/
def State.epochAge (s : State) (e : Nat) : Nat := (s.fget fPART_RULE_EPOCH + 16 - e % 16) % 16

/-- Windows whose accesses of older epochs have completed become DONE; PEND as it stands (R105). -/
def State.grantsDone (s : State) : State :=
  let out := s.epochsOut
  let open' (w : Nat × Nat) : Bool := out.any (fun e => decide (s.epochAge (s.fget (fPART_WIN_CTRL_EPOCH w.1 w.2)) < s.epochAge e))
  let s1 := (s.undone.filter (fun w => !open' w)).foldl (fun t w => t.fset (fPART_WIN_CTRL_DONE w.1 w.2) 1) s
  { s1 with undone := s.undone.filter open' }.fset fPART_RULE_PEND (b2n (out.any (fun e => decide (s.epochAge e ≠ 0))))

/-- A grant-table write is accepted: the descriptor takes its value, and the rule epoch advances (R104). -/
def State.grantAccept (s : State) (off : Nat) (v : Word) : State :=
  let n := (off - rPART_WIN_BASE 0 0) / 0x100
  let w := (off - rPART_WIN_BASE 0 0) % 0x100 / 8
  let e := (s.fget fPART_RULE_EPOCH + 1) % 16
  let s1 :=
    if off = rPART_WIN_BASE n w then s.fset (fPART_WIN_BASE_BASE n w) (bitsOf v.toNat 25 12)
    else (((s.fset (fPART_WIN_CTRL_LIMIT n w) (bitsOf v.toNat 12 8)).fset (fPART_WIN_CTRL_WR n w) (bitsOf v.toNat 2 2)).fset
      (fPART_WIN_CTRL_RD n w) (bitsOf v.toNat 1 1)).fset (fPART_WIN_CTRL_EN n w) (bitsOf v.toNat 0 0)
  let s2 := ((s1.fset fPART_RULE_EPOCH e).fset (fPART_WIN_CTRL_EPOCH n w) e).fset (fPART_WIN_CTRL_DONE n w) 0
  { s2 with undone := if s2.undone.contains (n, w) then s2.undone else s2.undone ++ [(n, w)] }.grantsDone

/-- A grant-table write: held while an access in flight still carries the epoch it would make current, or behind an earlier held
write (R106). -/
def State.grantWrite (s : State) (off : Nat) (v : Word) : State :=
  if (!s.heldGrants.isEmpty || s.epochsOut.contains ((s.fget fPART_RULE_EPOCH + 1) % 16)) = true then
    { s with heldGrants := s.heldGrants ++ [({ off := off, value := v } : HeldGrant)] }
  else s.grantAccept off v

/-- Held grant-table writes are accepted in arrival order as far as they can be (R106). -/
def State.grantRetry (s : State) : Nat → State
  | 0 => s
  | fuel + 1 =>
    match s.heldGrants with
    | [] => s
    | h :: t =>
      if s.epochsOut.contains ((s.fget fPART_RULE_EPOCH + 1) % 16) then s
      else State.grantRetry ({ s with heldGrants := t }.grantAccept h.off h.value) fuel

/-- A completion whose tag epoch is not its initiator's: discarded and counted (R119). It records nothing else, an error response it may
carry included (DESIGN CHOICE, log 77). -/
def State.staleDone (s : State) : State := (s.fsat fFAB_CNT_STALE_COUNT).fset fFAB_STAT_STALE 1

/-- A frame load ends with a response other than OK (R117, R118): VOID and ISLAND_RESET release it; DECERR and PARITY make the row
a late row, stretched or skipped. -/
def State.loadFailed (s : State) (q : FabReq) (k i bar : Nat) (r : Resp) : State :=
  match (s.frame k i).row with
  | none => s
  | some row =>
    if (s.frame k i).loaded then s
    else
      let s1 := s.noteResp bar r q.master q.ruleEpoch false q.tag
      if (decide (r = .decerr) || decide (r = .parity)) = true then
        let m := (s1.row row).job.getD 0
        let late := (s1.row row).jobLate
        let s2 := (s1.clearFrame k i).fset (fSCHED_ROW_STAT_CLAIM row) clReady
        if late then s2 else if s2.classOf row ≤ 1 then s2.stretch row m else s2.skipLoad row m
      else s1.voidFrame k i

/-- A frame load's request completes: VOID where its claim was released, else with its response. -/
def State.loadDone (s : State) (q : FabReq) (bar : Nat) (r : Resp) : State :=
  match q.frm with
  | none => s
  | some (k, i) => if q.void then s else if r = .ok then s.frameLoaded k i else s.loadFailed q k i bar r

/-- A posted write completes (R112, R113, R117, R118): none of its bytes, or all of them, and a failure reaches its context. -/
def State.writeEnds (s : State) (q : FabReq) (r : Resp) (stale : Bool) : State :=
  let s1 := if r = .ok then { q.bytes.foldl (fun t b => t.wrB b.1 b.2) s with linesAcc := s.linesAcc + 1 } else s
  if stale then s1.staleDone
  else
    let t := s1.noteResp q.addr r q.master q.ruleEpoch true q.tag
    match cxOf q.initiator with
    | some c => if respErr r then t.postedFail c (respCause r) q.addr q.lanes else t
    | none => t

/-- A request in flight completes (R112, R117 … R119). The oldest of its initiator to its line completes first; of an earlier tag epoch the
completion is discarded, its write landing all the same. -/
def State.reqDone (s : State) (tag : Nat) (r : Resp) : State :=
  match s.inflight.find? (fun q => decide (q.tag = tag)) with
  | none => s
  | some q =>
    let first := (s.inflight.find? (fun p => decide (p.initiator = q.initiator) && decide (p.addr / 128 = q.addr / 128))).map (fun p => p.tag)
    if first ≠ some tag then s
    else
      let stale := decide (s.tagEpoch q.initiator ≠ q.tagEpoch)
      let s1 := s.endReq tag
      if q.frm.isSome then (if stale then s1.staleDone else s1.loadDone q q.addr r)
      else
        let s2 := ((s1.writeEnds q r stale).grantsDone).grantRetry 1024
        match cxOf q.initiator with
        | some c => if stale then s2 else s2.drained c
        | none => s2

/-- A frame's load in hand completes with response `r` for the request at `bar`. -/
def State.frameDone (s : State) (k i bar : Nat) (r : Resp) : State :=
  match s.inflight.find? (fun q => decide (q.frm = some (k, i)) && !q.void) with
  | none => s
  | some q => if r = .ok then s else (s.endReq q.tag).loadDone q bar r

/-- A read of a context's current instruction fails (R118): the instruction takes the exception. -/
def State.readFailed (s : State) (c : Cx) (t : TagFields) (lanes : BitVec 256) (laneAddr bar : Nat) (r : Resp) : State :=
  let x := s.cx c
  if t.epoch.val ≠ s.tagEpoch (cxIdx c) then s.staleDone
  else if (x.running && respErr r) = true then
    (s.noteResp bar r x.part t.rule.val false t.tag.val).excHere c { cause := respCause r, lanes := lanes, addr := laneAddr, bar := bar }
  else s

/-- A request of another initiator completes (R117 … R119). Of the PCIe controller a failed read is answered with Unsupported Request for
DECERR, else with Completer Abort, and a failed write enters the posted-write error log. -/
def State.otherDone (s : State) (i : Nat) (t : TagFields) (master : Nat) (write : Bool) (addr : Nat) (r : Resp) : State :=
  if t.epoch.val ≠ s.tagEpoch i then s.staleDone
  else
    let s1 := s.noteResp addr r master t.rule.val write t.tag.val
    let host := decide (master = mPf) || (decide (0x100 ≤ master) && decide (master < 0x200)) || decide (master = mEng)
    if !respErr r then s1
    else if write then s1.when host (fun t => t.pweLog addr master 10)
    else s1.when (decide (i = inPcie)) (fun t =>
      t.emit { medium := .reply, dst := master, kind := if r = .decerr then 1 else 2, data := [] })

/-- FABRIC_REQUEST_COMPLETE (R117). A read or load that ends OK has had its effect in its own command. -/
def execFabricRequestComplete (d : FabDone) (r : Resp) (s0 : State) : Out :=
  let s := s0.releaseAll
  if !s0.mainRuns then .next s0
  else match d with
  | .write tag => .next (s.reqDone tag r)
  | .read c t lanes laneAddr bar => .next (s.readFailed c t lanes laneAddr bar r)
  | .frame k i bar => .next (s.frameDone k.val i.val bar r)
  | .other i t master write addr => .next (s.otherDone i t master write addr r)

/-- Counts a promotion. -/
def State.agedNote (s : State) : State := (s.fsat fFAB_CNT_AGED_COUNT).fset fFAB_STAT_AGED 1

/-- FABRIC_AGE_PROMOTION (R111): a request of level 2 … 5 that has waited AGE clocks is served ahead, counted once: one in flight, or one
of an initiator whose transfers the model makes in one command. Harvest writes are of level 1. -/
def execFabricAgePromotion (d : AgedReq) (s0 : State) : Out :=
  let s := s0.releaseAll
  match d with
  | .passing i => .next (if 0 < tagsReserved i ∧ ¬ (192 ≤ i ∧ i < 224) then s.agedNote else s)
  | .held tag =>
    match s.inflight.find? (fun q => decide (q.tag = tag)) with
    | none => .next s
    | some q =>
      if q.waited ≠ 0 then .next s
      else
        .next { s with inflight := s.inflight.map (fun (p : FabReq) => if p.tag = tag then ({ p with waited := s.fget fFAB_CTRL_AGE } : FabReq) else p) }.agedNote

/-- A message's words written to a channel's registers. -/
def State.putMsg (s : State) (ch : Nat) (msg : List Word) : State :=
  (msg.zipIdx).foldl (fun t wi => t.setReg (rMBX_MSG ch wi.2) wi.1) s

/-- L in every enabled lane. -/
def Ctx.setL (x : Ctx) (b : Bool) : Ctx :=
  { x with lanes := x.lanes.mapIdx (fun i l => if x.enabled i then { l with f := withL l.f b } else l) }

/-- The copy of MREAD: the message at each enabled lane's own X (R187). -/
def State.copyMsg (s : State) (c : Cx) (ch : Nat) : State :=
  let x := s.cx c
  let n := s.mbxWords ch
  let v := ofLE ((List.range n).flatMap (fun i => leBytes 4 (s.reg (rMBX_MSG ch i)).toNat))
  let live := (x.lanes.zipIdx).filter (fun e => x.enabled e.2)
  s.puts c (live.flatMap (fun e => s.lanePuts x e.2 [(e.1.x.toNat, n * 4, v)]))

/-- The instruction that waited for the mailbox is over: 335 clocks and what the crossings and resends add (R188). -/
def State.mbxOver (s : State) (c : Cx) : State :=
  let f := s.freeC
  let n := 335 + f.1
  ((f.2.setCx c { f.2.cx c with stall := none }).advance c 1 n n).atBoundary c

/-- MAILBOX_ROUND_TRIP_DONE (R187, R188): the mailbox RAM has answered; with the far island restarted the answer is
ISLAND_RESET, and BUS is raised (R118, R120). Which address and direction the error registers, EXC_ADDR and EXC_BAR then show the spec does
not say: MBX_MSG[c][0], a read, and 0, of GO.SEND too (DESIGN CHOICE, log 79). -/
def execMailboxRoundTripDone (c : Cx) (answer : Resp) (s0 : State) : Out :=
  let s := s0.releaseBuf c true
  let r := if s.mgt.down then .islandReset else answer
  let x := s.cx c
  let fail (ch : Nat) : State :=
    ((s.setCx c { x with stall := none }).noteResp (rMBX_MSG ch 0) r x.part (s.fget fPART_RULE_EPOCH) false 0).excHere c
      { cause := respCause r, lanes := x.enabledSet, addr := 0, bar := rMBX_MSG ch 0 }
  if !s0.mainRuns then .next s0
  else match x.stall with
  | some (.mbxSend ch msg) =>
    if respErr r then .next (fail ch)
    else
      let free := !s.fbit (fMBX_CH_STAT_GO ch)
      let s1 := if free then (s.putMsg ch msg).mbxPost ch else s
      .next ((s1.setCx c ((s1.cx c).setL free)).mbxOver c)
  | some (.mbxRead ch) =>
    if respErr r then .next (fail ch)
    else
      let s1 := s.copyMsg c ch
      .next ((s1.setCx c ((s1.cx c).setL (s1.fbit (fMBX_CH_STAT_GO ch)))).mbxOver c)
  | _ => .next s

end Sys2Proof.Machine
end

