-- ==== Sys2Proof/Machine/Bus.lean ====
section
/-! DEFINITION. An access of a master to the device register space: what stops it, how a register takes it, what it leaves (spec/00_scope.md R10 … R18, R638; spec/03_partitions_fabric.md R120; spec/06_time_events.md R195, R196; spec/15_host_mailboxes.md R452 … R456; spec/19_management.md R575; spec/20_reset_watchdog_cask.md R592). -/

namespace Sys2Proof.Machine

/-- Whether an offset lies in a block behind the die link. -/
def behindLink (off : Nat) : Bool := decide (0x2C0000 ≤ off) && decide (off < 0x360000)

/-- Whether a block works in RECOVERY (R592): SYS, RST/WDT, MGT, CASK, TIME, CAN, LIO and PANEL. -/
def recoveryOpen (off : Nat) : Bool := decide (off < 0x20000) || (decide (0x300000 ≤ off) && decide (off < 0x360000))

/-- Whether RECOVERY closes an offset. -/
def State.recoveryShut (s : State) (off : Nat) : Bool := decide (s.fget fSYS_MODULE_MODE_CUR = 2) && !recoveryOpen off

/-- Why a write of `raw` to a register never reaches it, if it does not. -/
def State.regGate (s : State) (m off raw : Nat) : Option Nat :=
  if s.mgt.down && behindLink off then some pwFabric
  else if s.recoveryShut off then some pwState
  else if isVf m && !s.vfWrites (m - 0xFF) off raw then some pwNotVisible
  else if s.standby && rackedReg off then some pwStandby
  else none

/-- The low words that a write holds until its high word (R196). -/
def lowTable : List (Nat × Nat × Nat) :=
  [(rHOST_RQ_BASE_LO 0, 0x40, 257), (rHOST_RQ_WB_LO 0, 0x40, 257), (rHOST_SNAP_BASE_LO 0, 0x40, 16), (rTIME_RTC_ALARM_LO, 4, 1)]

/-- Whether a register is the low word of a pair that takes effect with its high word: the targets of a line-time comparator among them. -/
def State.isLow (s : State) (off : Nat) : Bool :=
  lowTable.any (fun e => inArr e.1 e.2.1 e.2.2 off) || s.almLow off

/-- A merged word takes its place: a window descriptor by the rule of R104 and R106, a low word held, a pair together, a message word only
where the channel has it (R472). -/
def State.regPut (s : State) (m off : Nat) (v : Word) : State :=
  if (winAt off).isSome then s.grantWrite off v
  else if s.isLow off then { s with heldLo := SMap.put word0 off v s.heldLo }
  else if 4 ≤ off ∧ s.isLow (off - 4) then
    { ((s.setReg (off - 4) (SMap.get word0 s.heldLo (off - 4))).setReg off v) with heldLo := SMap.put word0 (off - 4) 0 s.heldLo }
  else match arrAt 0x2E0000 4 4096 off with
    | some j => if j % 32 < 16 ∧ s.mbxWords (j / 32) ≤ j % 32 then s else s.store m off v
    | none => s.store m off v

/-- An accepted write: its record, which a command of the engineering service makes itself (R489, R575); its fields; what it does; the log entry
of a locked field it would have changed (R638); its racking (R430). -/
def State.regAccept (s : State) (m off raw : Nat) (q : Merge) (rec : Bool) : State :=
  let s1 := s.when rec (fun t => t.cellarAs 0x0004 m off raw 0xF 0)
  let s2 := s.effReg (s1.regPut m off (BitVec.ofNat 32 q.word)) m off raw
  let s3 := s2.when q.changed (fun t => t.pweLog off m pwLocked)
  s3.when (rackedReg off) (fun t => t.rackWrite m off (leBytes 4 raw))

/-- A write dropped with a reason of R456. -/
def State.dropWrite (s : State) (m off r : Nat) : Wr × State := (.dropped r, s.pweLog off m r)

/-- A VF's write of HOST_SNAP_CTRL acts on GO alone (R467). -/
def State.rawFor (s : State) (m off raw : Nat) : Nat :=
  if isVf m ∧ inArr 0x2A6010 0x40 16 off = true then setBits (s.reg off).toNat 30 30 (bitsOf raw 30 30) else raw

/-- A write of an occupied register. Locked fields take no part in what stops a write (R638): where no field is open to it, one that would change
a locked field is dropped, and one that repeats what they hold does nothing; where others are open, a locked field that would
change is logged whatever becomes of the write. -/
def State.rowWrite (s : State) (m off raw : Nat) (row : RegRow) (rec : Bool) : Wr × State :=
  let q := s.mergeWrite off raw (s.held m off).toNat row
  let logged (t : State) : State := t.when q.changed (fun u => u.pweLog off m pwLocked)
  if !q.open' then
    (if q.changed then s.dropWrite m off pwLocked else (.ok, s.when rec (fun t => t.cellarAs 0x0004 m off raw 0xF 0)))
  else if !q.legal then (.rejected, logged (s.cfgReject off m))
  else match s.chkReg m off raw q.word with
    | .reject => (.rejected, logged (s.cfgReject off m))
    | .drop r => let d := s.dropWrite m off r; (d.1, logged d.2)
    | .ok => (.ok, s.regAccept m off raw q rec)

/-- A write of the cask window (R604, R606, R610). -/
def State.caskPutWin (s : State) (m off raw : Nat) (rec : Bool) : Wr × State :=
  let q := s.caskWinWrite m (s.fget fCASK_WIN_BASE_BASE * 4096 + (off - 0x311000)) (leBytes 4 raw)
  match q.1 with
  | some r => q.2.dropWrite m off r
  | none => (.ok, q.2.when rec (fun t => t.cellarAs 0x0004 m off raw 0xF 0))

/-- An aligned 32-bit write of a register block. -/
def State.regWrite (s : State) (m off raw : Nat) (rec : Bool) : Wr × State :=
  match s.regGate m off raw with
  | some r => (s.when (decide (r = pwFabric)) (fun t => t.noteResp off .islandReset m (t.fget fPART_RULE_EPOCH) true 0)).dropWrite m off r
  | none =>
    if 0x311000 ≤ off ∧ off < 0x312000 then s.caskPutWin m off raw rec
    else match regRow? off with
      | none => (.ok, s)
      | some row => s.rowWrite m off (s.rawFor m off raw) row rec

/-- A write of `bytes` at a BAR0 offset by master `m`; `rec` tells that it makes its own cellar book record. What is no master changes nothing. -/
def State.busWrite (s : State) (m off : Nat) (bytes : List Byte) (rec : Bool) : Wr × State :=
  if !s.busMaster m then (.ok, s)
  else if off < 0x1000000 then
    if bytes.length = 4 ∧ off % 4 = 0 then s.regWrite m off (ofLE bytes) rec else s.dropWrite m off pwSize
  else if s.recoveryShut off then s.dropWrite m off pwState
  else s.winWrite m off bytes rec

/-- An aligned 32-bit read of a register block. -/
def State.regAns (s : State) (m off : Nat) : Ans × State :=
  let word (q : Word × State) : Ans × State := (.data (leBytes 4 q.1.toNat), q.2)
  if s.mgt.down && behindLink off then (.ca, s.noteResp off .islandReset m (s.fget fPART_RULE_EPOCH) false 0)
  else if s.recoveryShut off || (isVf m && !s.vfReads (m - 0xFF) off) then word (0, s)
  else if 0x311000 ≤ off ∧ off < 0x312000 then
    let q := s.caskRead m (s.fget fCASK_WIN_BASE_BASE * 4096 + (off - 0x311000)) 4
    (.data q.1, q.2)
  else if 0x330200 ≤ off ∧ off < 0x334000 ∧ 0x200 ≤ off % 0x1000 ∧ off % 0x1000 < 0x250 then
    word (s.canRead ((off - 0x330000) / 0x1000) ((off % 0x1000 - 0x200) / 4))
  else word (s.regRead m off)

/-- A read of `n` bytes at a BAR0 offset by master `m`; what is no master is answered with Unsupported Request. -/
def State.busRead (s : State) (m off n : Nat) : Ans × State :=
  if !s.busMaster m then (.ur, s)
  else if off < 0x1000000 then
    if n = 4 ∧ off % 4 = 0 then s.regAns m off else (.ur, s)
  else if s.recoveryShut off then (.data (List.replicate n 0), s)
  else s.winRead m off n

/-- A read's answer goes to its master: kind 0 data, 1 Unsupported Request, 2 Completer Abort. -/
def State.answer (s : State) (m : Nat) : Ans → State
  | .data l => s.emit { medium := .reply, dst := m, kind := 0, data := nats l }
  | .ur => s.emit { medium := .reply, dst := m, kind := 1, data := [] }
  | .ca => s.emit { medium := .reply, dst := m, kind := 2, data := [] }

/-- A read command. -/
def State.readCmd (s : State) (m off n : Nat) : Out :=
  let q := s.busRead m off n
  .next (q.2.answer m q.1)

/-- A write command of one register word. -/
def State.wordCmd (s : State) (m off : Nat) (v : Word) : Out := .next (s.busWrite m off (leBytes 4 v.toNat) true).2

/-- A write command of the register that holds a field of the row's own, with that field's value in place. -/
def State.fieldCmd (s : State) (m : Nat) (f : Fld) (x : Nat) (v : Word) : Out :=
  s.wordCmd m f.off (BitVec.ofNat 32 (setBits v.toNat f.hi f.lo x))

/-- REGISTER_WRITE (R10 … R16). -/
def execRegisterWrite (m off : Nat) (bytes : List Byte) (s : State) : Out := .next (s.busWrite m off bytes true).2

/-- LOW_WORD_READ (R195). -/
def execLowWordRead (m off : Nat) (s : State) : Out := s.readCmd m off 4

/-- HIGH_WORD_WRITE (R196). -/
def execHighWordWrite (m off : Nat) (v : Word) (s : State) : Out := s.wordCmd m off v

/-- STORE_WINDOW_WRITE (R641): a write to the table store or the program store. -/
def execStoreWindowWrite (m off : Nat) (bytes : List Byte) (s : State) : Out :=
  .next (if isTable off || isProgram off then (s.busWrite m off bytes true).2 else s)

/-- STORE_WINDOW_READ (R640): a read of `n` bytes of the stores, or at any other BAR0 offset, where a register block answers only an aligned
read of four bytes (R14). -/
def execStoreWindowRead (m off n : Nat) (s : State) : Out := s.readCmd m off n

/-- IMAGE_WINDOW_WRITE (R452, R453). -/
def execImageWindowWrite (m off : Nat) (bytes : List Byte) (s : State) : Out :=
  .next (if isImage off then (s.busWrite m off bytes true).2 else s)

end Sys2Proof.Machine
end

