-- ==== Sys2Proof/Machine/Casting.lean ====
section
/-! DEFINITION. Loading a casting as a service does, and the start set of the booted image (spec/13_graft.md, spec/16_engineering_time.md R488, spec/19_management.md R557). -/

namespace Sys2Proof.Machine

/-- Bytes cut into pieces of at most 1,024, each with its address. -/
def pieces (a : Nat) (l : List Byte) : List (Nat × List Byte) :=
  (List.range ((l.length + 1023) / 1024)).map (fun i => (a + 1024 * i, (l.drop (1024 * i)).take 1024))

/-- Writes in turn by master `m`, up to the first that is not accepted: bytes written, how the last ended. -/
def State.writeAll (s : State) (m : Nat) (rec : Bool) (n : Nat) : List (Nat × List Byte) → (Nat × Wr) × State
  | [] => ((n, .ok), s)
  | e :: l =>
    match s.busWrite m e.1 e.2 rec with
    | (.ok, t) => State.writeAll t m rec (n + e.2.length) l
    | (w, t) => ((n, w), t)

/-- A register word as a write. -/
def regW (off v : Nat) : Nat × List Byte := (off, leBytes 4 v)

/-- MAGIC and FORMAT of a casting (R488). -/
def castOk (b : List Byte) : Bool := decide (leAt b 0 4 = 0xCA570001) && decide (leAt b 4 1 = 1)

/-- The PART_GRF_ALLOC word of a casting's header. -/
def castAlloc (b : List Byte) : Nat := leAt b 6 1 * 2 ^ 24 + (leAt b 8 2 + 255) / 256 * 2 ^ 18 + leAt b 5 1 * 2 ^ 16

/-- What follows the allocation: the sections into their runs, the headers, then ARM with RECIPE and NOW. -/
def State.castWrites (s : State) (n : Nat) (b : List Byte) : List (Nat × List Byte) :=
  let o := (s.part n).other
  let kb := leAt b 6 1 * 1024
  let len := leAt b 8 2
  let at' (i k : Nat) : List Byte := ((b.drop i).take k)
  let ctrl := setBits (setBits (s.reg (rPART_GRF_CTRL n)).toNat 23 23 (leAt b 7 1 % 2)) 24 24 (leAt b 7 1 / 2 % 2)
  pieces (0x1800000 + o.codeAt * 1024) (at' 64 kb)
    ++ pieces (0x1000000 + o.constAt * 256) (at' (64 + kb) len)
    ++ pieces (0x1000000 + o.mapAt.getD 0 * 256) (at' (64 + kb + len) (leAt b 5 1 * 128))
    ++ [regW (rPART_GRF_HDR_A n) (len * 65536 + leAt b 0x0A 2), regW (rPART_GRF_HDR_NEWVAR n) (leAt b 0x0C 4),
      regW (rPART_GRF_HDR_OLDVAR n) (leAt b 0x10 4), regW (rPART_GRF_HDR_CRC n) (leAt b 0x14 4),
      regW (rPART_GRF_CTRL n) (setBits ctrl 31 31 1)]

/-- A casting for partition `n` is checked, allocated, written and armed by master `m` (R488); whether its check has begun. -/
def State.castLoad (s : State) (m n : Nat) (rec : Bool) (b : List Byte) : Bool × State :=
  if !castOk b || decide (s.grfState n ≠ gsIdle) then (false, s)
  else
    let q := s.busWrite m (rPART_GRF_ALLOC n) (leBytes 4 (castAlloc b)) rec
    if q.1 ≠ .ok ∨ q.2.grfState n ≠ gsLoading then (false, q.2)
    else
      let t := q.2.writeAll m rec 0 (q.2.castWrites n b)
      (decide (t.1.2 = .ok), t.2)

/-- The start set stops at section `i` (R557): SET_FAIL, the record with its reason (1 a reserved field, 2 a write rejected, 3 a write
dropped, 4 a casting), and the option block's RUN request ends. -/
def State.setStop (s : State) (i reason : Nat) : State :=
  let s1 := ({ s with mgt := { s.mgt with startSet := none, setWait := false } }.fset fMGT_STAT_SET_FAIL 1).cellar 0x0024 i reason 0
  s1.when (s1.opt.autoStart && s1.modeReqPend && decide (s1.fget fSYS_MODULE_MODE_REQ = 0)) (fun t =>
    { (t.fset fSYS_MODULE_MODE_REQ 1).fset fSYS_MODULE_MODE_BUSY 0 with modeReqPend := false })

/-- The start set goes on after a section of `len` bytes. -/
def State.setNext (s : State) (ofs i len : Nat) : State :=
  { s with mgt := { s.mgt with startSet := some (ofs + 16 + len, i + 1), setWait := false } }

/-- The writes of a section, and what follows them. -/
def State.setWrites (s : State) (ofs i len : Nat) (l : List (Nat × List Byte)) : State :=
  match s.writeAll mMgt true 0 l with
  | ((_, .ok), t) => t.setNext ofs i len
  | ((_, .rejected), t) => t.setStop i 2
  | ((_, .dropped _), t) => t.setStop i 3

/-- A casting of the start set: loaded, then awaited until it has committed. -/
def State.setCasting (s : State) (ofs i len n : Nat) (data : List Byte) : State :=
  let st := s.grfState n
  if !s.mgt.setWait then
    let q := s.castLoad mMgt n true data
    if q.1 then { q.2 with mgt := { q.2.mgt with setWait := true } } else q.2.setStop i 4
  else if st = gsChecking ∨ st = gsRacking ∨ st = gsArmed then s
  else
    let r := s.fget (fPART_GRF_STAT_RESULT n)
    if r = grCommitted ∨ r = grReleased then s.setNext ofs i len else s.setStop i 4

/-- One section of the start set (R557), at offset `ofs` of the booted bank; the set's component ends at `stop`. -/
def State.setSection (s : State) (ofs i stop : Nat) : State :=
  let base := s.bootBank * bankSize + ofs
  let h := s.flashList base 16
  let len := leAt h 8 4
  let kind := leAt h 0 1
  let data := s.flashList (base + 16) len
  if leAt h 2 2 ≠ 0 ∨ leAt h 12 4 ≠ 0 ∨ stop < ofs + 16 + len then s.setStop i 1
  else if kind = 1 then s.setCasting ofs i len (leAt h 1 1) data
  else if kind = 2 then s.setWrites ofs i len (pieces (0x1000000 + leAt h 4 4) data)
  else if kind = 3 then
    s.setWrites ofs i len ((List.range (len / 8)).map (fun j => regW (leAt data (8 * j) 4) (leAt data (8 * j + 4) 4)))
  else s.setStop i 1

/-- START_SET_APPLY (R557): the next section of the start set is applied, in order, as master 0x201; a casting holds the set until it has
committed. -/
def execStartSetApply (s : State) : Out :=
  .next (match s.mgt.startSet with
    | none => s
    | some (ofs, i) =>
      if !s.mgtRuns then s
      else match s.startSetComp with
        | none => { s with mgt := { s.mgt with startSet := none } }
        | some c => if c.1 + c.2 ≤ ofs then { s with mgt := { s.mgt with startSet := none } } else s.setSection ofs i (c.1 + c.2))

end Sys2Proof.Machine
end

