-- ==== Sys2Proof/Machine/Eng.lean ====
section
/-! DEFINITION. The engineering service: its frames, requests, responses and commands (spec/16_engineering_time.md R477 … R490, spec/19_management.md R563, R583, spec/20_reset_watchdog_cask.md R609). -/

namespace Sys2Proof.Machine

/-- STATUS values (R485). -/
abbrev esUnknown : Nat := 1
abbrev esLength : Nat := 2
abbrev esArg : Nat := 3
abbrev esDropped : Nat := 4
abbrev esRejected : Nat := 5
abbrev esBusy : Nat := 6
abbrev esFabric : Nat := 7
abbrev esNotAvail : Nat := 8
abbrev esGraft : Nat := 9

/-- A frame or datagram discarded (R477, R481). -/
def State.engBad (s : State) : State := s.fsat (fTIME_CNT_COUNT 10)

/-- A message's bytes (R480). -/
def engBytes (flags cmd seq status detail crc : Nat) (payload : List Byte) : List Byte :=
  leBytes 2 0xE51A ++ leBytes 1 1 ++ leBytes 1 flags ++ leBytes 2 cmd ++ leBytes 2 seq ++ leBytes 2 status ++ leBytes 2 detail
    ++ leBytes 2 payload.length ++ leBytes 2 0 ++ leBytes 4 crc ++ payload

/-- Whether a request passes the checks of R481. -/
def engValid (cmd : Nat) (e : EngReq) : Bool :=
  decide (e.magic = 0xE51A) && decide (e.version = 1) && decide (e.flags = 0) && decide (e.status = 0) && decide (e.detail = 0)
    && decide (e.zero = 0) && decide (e.len = e.payload.length) && decide (e.crc = crc32 (engBytes 0 cmd e.seq 0 0 0 e.payload))

/-- Whether an address lies in the port's own subnet, or a gateway reaches it. -/
def State.engReach (s : State) (ip : Nat) : Bool :=
  let p := 2 ^ (32 - s.fget fTIME_ENG_MASK_PREFIX)
  decide (ip / p = s.fget fTIME_ENG_IP_ADDR / p) || decide (s.fget fTIME_ENG_GW_ADDR ≠ 0)

/-- Sends a response to a client. -/
def State.engSend (s : State) (e : EngReq) (resp : List Byte) : State :=
  s.when (s.engReach e.ip) (fun t => t.emit (t.engMsg .eng e.ip e.port (nats resp)))

/-- The response to a request, with its CRC. -/
def engResp (cmd : Nat) (e : EngReq) (status detail : Nat) (l : List Byte) : List Byte :=
  engBytes 1 cmd e.seq status detail (crc32 (engBytes 1 cmd e.seq status detail 0 l)) l

/-- A client's response is kept as its last one (R483): it is the one used latest; the seventeenth client replaces the one used least
recently. -/
def State.engKeep (s : State) (e : EngReq) (resp : List Byte) : State :=
  let rest := s.eng.clients.filter (fun c => !(decide (c.ip = e.ip) && decide (c.port = e.port)))
  { s with eng := { s.eng with clients := ({ ip := e.ip, port := e.port, seq := e.seq, resp := resp } :: rest).take 16 } }

/-- Answers a request and keeps the response. -/
def State.engAnswer (s : State) (cmd : Nat) (e : EngReq) (status detail : Nat) (l : List Byte) : State :=
  let r := engResp cmd e status detail l
  (s.engSend e r).engKeep e r

/-- The outcome of a command: STATUS, DETAIL and payload, or what its response waits for. -/
structure EngRes where
  st : State
  status : Nat := 0
  detail : Nat := 0
  data : List Byte := []
  wait : Option EngJob := none

/-- A command that is not carried out. -/
def State.engFail (s : State) (status : Nat) : EngRes := { st := s, status := status }

/-- The record and the count of a command that changes state (R489): client address, port and CMD, first offset or channel. -/
def State.engRec (s : State) (cmd : Nat) (e : EngReq) (x : Nat) : State :=
  (s.fsat (fTIME_CNT_COUNT 13)).cellarAs 0x0006 mEng e.ip (cmd * 65536 + e.port) x 0

/-- What the end of a write tells its client. -/
def EngRes.ofWr (t : State) (w : Wr) (l : List Byte) : EngRes :=
  match w with
  | .ok => { st := t, data := l }
  | .rejected => { st := t, status := esRejected, data := l }
  | .dropped r => { st := t, status := esDropped, detail := r, data := l }

/-- `n` bytes of a payload from `i`, as a value. -/
def engArg (e : EngReq) (i n : Nat) : Nat := leAt e.payload i n

/-- Checks a payload's length and that its zero bytes hold, before a command runs. -/
def State.engNeed (s : State) (e : EngReq) (len : Nat) (ok : Bool) (k : EngRes) : EngRes :=
  if e.len ≠ len then s.engFail esLength else if !ok then s.engFail esArg else k

/-! ### Reads and writes of BAR0 -/

/-- Reads words in turn; `none` where one ends with an error response. -/
def State.readWords (s : State) (off : Nat) : Nat → Option (List Byte) × State
  | 0 => (some [], s)
  | n + 1 =>
    match s.busRead mEng off 4 with
    | (.data l, t) =>
      let q := State.readWords t (off + 4) n
      (q.1.map (fun r => l ++ r), q.2)
    | (_, t) => (none, t)

/-- Whether an offset and count of words may be asked for: 1 … 256 words, whole registers, inside BAR0 (R14, R486, R487). -/
def wordsOk (off n : Nat) : Bool :=
  decide (1 ≤ n) && decide (n ≤ 256) && (decide (off % 4 = 0) || decide (0x1000000 ≤ off)) && decide (off + 4 * n ≤ 0x4000000)

/-- Whether a range lies in the table store, program store or image window. -/
def rangeOk (off n : Nat) : Bool :=
  decide (1 ≤ n) && decide (n ≤ 1024) && ((isTable off && isTable (off + n - 1)) || (isProgram off && isProgram (off + n - 1))
    || (isImage off && isImage (off + n - 1)))

/-- A block's bytes cut at the 64-bit words of the stores. -/
def wordPieces (a : Nat) (l : List Byte) : List (Nat × List Byte) :=
  (wordsOf a l.length).map (fun w =>
    let lo := max a (8 * w)
    let hi := min (a + l.length) (8 * w + 8)
    (lo, (l.drop (lo - a)).take (hi - lo)))

/-- READ32. -/
def State.engRead32 (s : State) (e : EngReq) : EngRes :=
  let off := engArg e 0 4
  let n := engArg e 4 2
  s.engNeed e 8 (wordsOk off n && decide (engArg e 6 2 = 0)) (match s.readWords off n with
    | (some l, t) => { st := t, data := l }
    | (none, t) => { st := t, status := esFabric, detail := 5 })

/-- WRITE32 (R487). -/
def State.engWrite32 (s : State) (cmd : Nat) (e : EngReq) : EngRes :=
  let off := engArg e 0 4
  let n := engArg e 4 2
  if e.len < 8 then s.engFail esLength
  else if !(wordsOk off n && decide (engArg e 6 2 = 0)) then s.engFail esArg
  else
    s.engNeed e (8 + 4 * n) true (
      let q := (s.engRec cmd e off).writeAll mEng false 0 ((List.range n).map (fun i => (off + 4 * i, (e.payload.drop (8 + 4 * i)).take 4)))
      EngRes.ofWr q.2 q.1.2 (leBytes 2 (q.1.1 / 4)))

/-- READ_BLOCK. -/
def State.engReadBlock (s : State) (e : EngReq) : EngRes :=
  let off := engArg e 0 4
  let n := engArg e 4 2
  s.engNeed e 8 (rangeOk off n && decide (engArg e 6 2 = 0)) (match s.busRead mEng off n with
    | (.data l, t) => { st := t, data := l }
    | (_, t) => { st := t, status := esFabric, detail := 5 })

/-- A block write in ascending order, word by word (R487). -/
def State.engBlock (s : State) (cmd : Nat) (e : EngReq) (x off : Nat) (l : List Byte) : EngRes :=
  let q := (s.engRec cmd e x).writeAll mEng false 0 (wordPieces off l)
  EngRes.ofWr q.2 q.1.2 (leBytes 2 q.1.1)

/-- WRITE_BLOCK. -/
def State.engWriteBlock (s : State) (cmd : Nat) (e : EngReq) : EngRes :=
  let off := engArg e 0 4
  let n := engArg e 4 2
  if e.len < 8 then s.engFail esLength
  else if !(rangeOk off n && decide (engArg e 6 2 = 0)) then s.engFail esArg
  else s.engNeed e (8 + n) true (s.engBlock cmd e off off (e.payload.drop 8))

/-- A command that is one register write. -/
def State.engWord (s : State) (cmd : Nat) (e : EngReq) (x off v : Nat) : EngRes :=
  let q := (s.engRec cmd e x).busWrite mEng off (leBytes 4 v) false
  EngRes.ofWr q.2 q.1 []

/-- IDENT. -/
def State.engIdent (s : State) (e : EngReq) : EngRes :=
  s.engNeed e 0 true
    { st := s, data := [rSYS_IDENT, rSYS_SERIAL_LO, rSYS_SERIAL_HI, rRACK_STAT, rSYS_MODULE_MODE, rMGT_FW_REV].flatMap (fun o =>
      leBytes 4 (s.view mEng o).toNat) }

/-- MODULE_MODE. -/
def State.engModule (s : State) (cmd : Nat) (e : EngReq) : EngRes :=
  s.engNeed e 4 (decide (engArg e 0 1 ≤ 2) && decide (engArg e 1 3 = 0)) (s.engWord cmd e rSYS_MODULE_MODE rSYS_MODULE_MODE (engArg e 0 1 * 16))

/-- PART_MODE. -/
def State.engPart (s : State) (cmd : Nat) (e : EngReq) : EngRes :=
  let off := rPART_CTRL (engArg e 0 1)
  s.engNeed e 4 (decide (engArg e 1 1 ≤ 2) && decide (engArg e 2 2 = 0)) (s.engWord cmd e off off (engArg e 1 1))

/-! ### Cellar book (R583) -/

/-- CELLAR_FREEZE. -/
def State.engFreeze (s : State) (cmd : Nat) (e : EngReq) : EngRes :=
  let t := (s.engRec cmd e 0).cbFreeze
  s.engNeed e 0 true { st := t, data := leBytes 4 t.cbHead ++ leBytes 2 (t.fget fMGT_CB_STAT_FF_COUNT) ++ leBytes 2 0 }

/-- CELLAR_UNFREEZE. -/
def State.engUnfreeze (s : State) (cmd : Nat) (e : EngReq) : EngRes :=
  let t := (s.engRec cmd e 0).cbUnfreeze
  s.engNeed e 0 true { st := t, data := leBytes 4 (t.reg rMGT_CB_FROZEN).toNat }

/-- CELLAR_READ: records from INDEX upward; those not held read 0. -/
def State.engCellarRead (s : State) (e : EngReq) : EngRes :=
  let n := engArg e 8 2
  s.engNeed e 12 (decide (engArg e 0 1 ≤ 1) && decide (engArg e 1 3 = 0) && decide (1 ≤ n) && decide (n ≤ 40) && decide (engArg e 10 2 = 0))
    { st := s, data := (List.range n).flatMap (fun i =>
        (s.cbRecord (decide (engArg e 0 1 = 1)) ((engArg e 4 4 + i) % 2 ^ 32)).getD (List.replicate 32 0)) }

/-- CELLAR_STATUS. -/
def State.engCellarStat (s : State) (e : EngReq) : EngRes :=
  s.engNeed e 0 true
    { st := s, data := [rMGT_CB_STAT, rMGT_CB_HEAD, rMGT_CB_FROZEN, rMGT_CB_LOST].flatMap (fun o => leBytes 4 (s.view mEng o).toNat) }

/-! ### Grafts (R488; spec/13_graft.md) -/

/-- A graft step's end: GRAFT with RESULT unless it succeeded. -/
def State.engGraft (s : State) (n : Nat) (ok : Bool) (w : Option EngJob) : EngRes :=
  if ok then { st := s, wait := w } else { st := s, status := esGraft, detail := s.fget (fPART_GRF_STAT_RESULT n) }

/-- A graft step that is one register write, successful where the graft state goes from one of `src` to `dst`. -/
def State.engStep (s : State) (cmd : Nat) (e : EngReq) (n off v : Nat) (src : List Nat) (dst : Nat) (w : Option EngJob) : EngRes :=
  let q := (s.engRec cmd e n).busWrite mEng off (leBytes 4 v) false
  if q.1 ≠ .ok then EngRes.ofWr q.2 q.1 []
  else q.2.engGraft n (src.contains (s.grfState n) && decide (q.2.grfState n = dst)) w

/-- A casting's bytes in the load buffer. -/
def EngLoad.bytes (l : EngLoad) : List Byte := (List.range l.total).map (fun i => SMap.get byte0 l.buf i)

/-- Chunks of a casting. -/
def chunksOf (total : Nat) : Nat := (total + 1023) / 1024

/-- The load in progress that a chunk belongs to (R488). -/
def State.engLoadFor (s : State) (n c total : Nat) : Option EngLoad :=
  if c = 0 then some { part := n, total := total, have' := [], buf := [] }
  else match s.eng.load with
    | some l => if l.part = n ∧ l.total = total then some l else none
    | none => none

/-- A chunk with what the load has: the last one missing loads the casting. -/
def State.engChunk (s : State) (cmd : Nat) (e : EngReq) (n c : Nat) (l : EngLoad) : EngRes :=
  let buf := (addrBytes (1024 * c) (e.payload.drop 8)).foldl (fun b (x : Nat × Byte) => SMap.put byte0 x.1 x.2 b) l.buf
  let l1 : EngLoad := { l with have' := if l.have'.contains c then l.have' else l.have' ++ [c], buf := buf }
  let left := chunksOf l.total - l1.have'.length
  let s1 := s.engRec cmd e n
  if left ≠ 0 then { st := { s1 with eng := { s1.eng with load := some l1 } }, detail := left }
  else
    let q := { s1 with eng := { s1.eng with load := none } }.castLoad mEng n false l1.bytes
    q.2.engGraft n q.1 (some (.graft n))

/-- GRAFT_LOAD (R488). -/
def State.engGraftLoad (s : State) (cmd : Nat) (e : EngReq) : EngRes :=
  let n := engArg e 0 1
  let c := engArg e 2 2
  let total := engArg e 4 4
  if e.len < 8 then s.engFail esLength
  else if !(decide (engArg e 1 1 = 0) && decide (64 ≤ total) && decide (total ≤ 262144) && decide (c < chunksOf total)) then s.engFail esArg
  else if e.len ≠ 8 + min 1024 (total - 1024 * c) then s.engFail esLength
  else match s.engLoadFor n c total with
    | none => s.engFail esArg
    | some l => s.engChunk cmd e n c l

/-- GRAFT_ALLOC: PARTITION, 3 zero, the PART_GRF_ALLOC word (log 21). -/
def State.engGraftAlloc (s : State) (cmd : Nat) (e : EngReq) : EngRes :=
  let n := engArg e 0 1
  s.engNeed e 8 (decide (engArg e 1 3 = 0)) (s.engStep cmd e n (rPART_GRF_ALLOC n) (engArg e 4 4) [gsIdle] gsLoading none)

/-- GRAFT_WRITE: PARTITION, 3 zero, OFFSET 4, BYTES 2, 2 zero, data (log 21). -/
def State.engGraftWrite (s : State) (cmd : Nat) (e : EngReq) : EngRes :=
  let n := engArg e 8 2
  if e.len < 12 then s.engFail esLength
  else if !(rangeOk (engArg e 4 4) n && !isImage (engArg e 4 4) && decide (engArg e 1 3 = 0) && decide (engArg e 10 2 = 0)) then s.engFail esArg
  else s.engNeed e (12 + n) true (
    if s.standby then (s.grfResult (engArg e 0 1) grStandby).engGraft (engArg e 0 1) false none
    else s.engBlock cmd e (engArg e 0 1) (engArg e 4 4) (e.payload.drop 12))

/-- GRAFT_ARM: PARTITION, 3 zero, the PART_GRF_CTRL word with RECIPE, NOW, GROUP and WIN (log 21). -/
def State.engGraftArm (s : State) (cmd : Nat) (e : EngReq) : EngRes :=
  let n := engArg e 0 1
  s.engNeed e 8 (decide (engArg e 1 3 = 0) && decide (engArg e 4 4 / 2 ^ 28 = 0))
    (s.engStep cmd e n (rPART_GRF_CTRL n) (engArg e 4 4 + 2 ^ 31) [gsLoading] gsChecking (some (.graft n)))

/-- GRAFT_GO; on a standby GRAFT with RESULT STANDBY (R490). -/
def State.engGraftGo (s : State) (cmd : Nat) (e : EngReq) : EngRes :=
  s.engNeed e 0 true (
    if s.standby then { st := s, status := esGraft, detail := grStandby } else s.engWord cmd e rPART_GRF_GROUP rPART_GRF_GROUP 1)

/-- GRAFT_ROLLBACK, GRAFT_RELEASE and GRAFT_ABORT: PARTITION, 3 zero (log 21). -/
def State.engGraftCmd (s : State) (cmd : Nat) (e : EngReq) (bit : Nat) (src : List Nat) (dst : Nat) : EngRes :=
  let n := engArg e 0 1
  s.engNeed e 4 (decide (engArg e 1 3 = 0))
    (s.engStep cmd e n (rPART_GRF_CTRL n) (setBits (s.reg (rPART_GRF_CTRL n)).toNat bit bit 1) src dst none)

/-- GRAFT_STATUS: PARTITION, 3 zero (log 21). -/
def State.engGraftStat (s : State) (e : EngReq) : EngRes :=
  let n := engArg e 0 1
  s.engNeed e 4 (decide (engArg e 1 3 = 0))
    { st := s, data := [rPART_GRF_STAT n, rPART_GRF_COMMIT n, rPART_GRF_WIN n].flatMap (fun o => leBytes 4 (s.view mEng o).toNat) }

/-! ### Mailboxes -/

/-- MBX_SEND: the message registers in order, then GO. -/
def State.engMbxSend (s : State) (cmd : Nat) (e : EngReq) : EngRes :=
  let c := engArg e 0 1
  if e.len ≠ 36 ∧ e.len ≠ 68 then s.engFail esLength
  else if !(decide (c < 128) && decide (engArg e 1 3 = 0)) then s.engFail esArg
  else
    let q := (s.engRec cmd e c).writeAll mEng false 0
      ((List.range ((e.len - 4) / 4)).map (fun j => regW (rMBX_MSG c j) (engArg e (4 + 4 * j) 4)) ++ [regW (rMBX_CMD c) 1])
    EngRes.ofWr q.2 q.1.2 []

/-- MBX_TAKE, MBX_WITHDRAW and MBX_DONE: a write of the channel's MBX_CMD. -/
def State.engMbxCmd (s : State) (cmd : Nat) (e : EngReq) (bits zeros : Nat) : EngRes :=
  let c := engArg e 0 1
  s.engNeed e 4 (decide (c < 128) && decide (engArg e (4 - zeros) zeros = 0)) (s.engWord cmd e c (rMBX_CMD c) bits)

/-- MBX_READ. -/
def State.engMbxRead (s : State) (e : EngReq) : EngRes :=
  let c := engArg e 0 1
  s.engNeed e 4 (decide (c < 128) && decide (engArg e 1 3 = 0))
    { st := s, data := ([rMBX_CH_STAT c, rMBX_ACK c] ++ (List.range (s.mbxWords c)).map (fun j => rMBX_MSG c j)).flatMap (fun o =>
      leBytes 4 (s.view mEng o).toNat) }

/-! ### Time -/

/-- TIME_GET. -/
def State.engTimeGet (s : State) (e : EngReq) : EngRes :=
  s.engNeed e 0 true
    { st := s, data := leBytes 8 s.lt.toNat ++ leBytes 8 s.wallSec ++ leBytes 4 s.wallSubNs ++ leBytes 1 s.wall.epoch
        ++ leBytes 4 (s.reg rTIME_PTP_STAT).toNat ++ leBytes 3 0 }

/-- TIME_SET_WALL (R495): as TIME_SET_CMD.GO with the value of the payload. -/
def State.engTimeSet (s : State) (cmd : Nat) (e : EngReq) : EngRes :=
  let ns := engArg e 8 4
  s.engNeed e 16 (decide (engArg e 0 8 < 2 ^ 40) && decide (ns < 1000000000) && decide (engArg e 12 1 ≤ 1) && decide (engArg e 13 3 = 0)) (
    let s1 := s.engRec cmd e rTIME_SET_CMD
    if s1.fget fTIME_PTP_STAT_PORT_STATE = psSlave then
      let q := s1.dropWrite mEng rTIME_SET_CMD pwState
      EngRes.ofWr q.2 q.1 []
    else { st := s1.wallSet ((((engArg e 0 8 * 1000000000 + ns) * 65536 : Nat) : Int) - s1.wallTarget) (decide (engArg e 12 1 = 1)) })

/-- TIME_ACCEPT_BACK (R496). -/
def State.engAccept (s : State) (cmd : Nat) (e : EngReq) : EngRes :=
  s.engNeed e 0 true (s.engWord cmd e rTIME_SET_CMD rTIME_SET_CMD 4)

/-! ### Cask (R609) -/

/-- Whether a range of a region may be named: 1 … 1,024 bytes, to the region's end at most. -/
def caskRange (r ofs n : Nat) : Bool :=
  decide (r < 16) && decide (1 ≤ n) && decide (n ≤ 1024) && decide (ofs + n ≤ (regionAt r).2)

/-- CASK_READ. -/
def State.engCaskRead (s : State) (e : EngReq) : EngRes :=
  let r := engArg e 0 1
  let n := engArg e 8 2
  s.engNeed e 20 (caskRange r (engArg e 4 4) n && decide (engArg e 1 3 = 0) && decide (engArg e 10 2 = 0))
    (if s.caskPw r false ≠ engArg e 12 8 then { st := s, status := esDropped, detail := pwPassword }
     else { st := s, data := s.caskShown ((regionAt r).1 + engArg e 4 4) n })

/-- A cask write with its password right: gathered, then committed where COMMIT asks for it. -/
def State.engCaskPut (s : State) (r ofs : Nat) (commit : Bool) (l : List Byte) : EngRes :=
  let drop (t : State) (x : Nat) : EngRes := EngRes.ofWr (t.dropWrite mEng (rCASK_WIN 0) x).2 (.dropped x) []
  if r < 6 then drop s pwInUse
  else match s.caskGather (addrBytes ((regionAt r).1 + ofs) l) with
    | (some x, t) => drop t x
    | (none, t) =>
      if !commit then { st := t }
      else
        let u := t.caskStart
        if u.fbit fCASK_STAT_BUSY then { st := u, wait := some .cask }
        else { st := u, data := leBytes 4 (u.reg rCASK_COMMIT_RESULT).toNat }

/-- CASK_WRITE. -/
def State.engCaskWrite (s : State) (cmd : Nat) (e : EngReq) : EngRes :=
  let r := engArg e 0 1
  let n := engArg e 8 2
  if e.len < 20 then s.engFail esLength
  else if !(caskRange r (engArg e 4 4) n && decide (engArg e 1 1 ≤ 1) && decide (engArg e 2 2 = 0) && decide (engArg e 10 2 = 0)) then s.engFail esArg
  else s.engNeed e (20 + n) true (
    let s1 := s.engRec cmd e ((regionAt r).1 + engArg e 4 4)
    if s1.caskPw r true ≠ engArg e 12 8 then EngRes.ofWr (s1.dropWrite mEng (rCASK_WIN 0) pwPassword).2 (.dropped pwPassword) []
    else s1.engCaskPut r (engArg e 4 4) (decide (engArg e 1 1 = 1)) (e.payload.drop 20))

/-! ### Flash (R563) and restart -/

/-- MGT_FW_STAT as a flash command's response carries it. -/
def State.fwShown (s : State) : List Byte := leBytes 4 (s.reg rMGT_FW_STAT).toNat

/-- FW_WRITE. -/
def State.engFwWrite (s : State) (cmd : Nat) (e : EngReq) : EngRes :=
  let n := engArg e 4 2
  if e.len < 8 then s.engFail esLength
  else if engArg e 6 2 ≠ 0 then s.engFail esArg
  else s.engNeed e (8 + n) true (
    let s1 := s.engRec cmd e (engArg e 0 4)
    if s1.fbit fMGT_FW_STAT_BUSY then EngRes.ofWr (s1.dropWrite mEng rMGT_FW_CMD pwState).2 (.dropped pwState) []
    else
      let t := s1.fwStart (engArg e 0 4) (e.payload.drop 8)
      if t.fbit fMGT_FW_STAT_BUSY then { st := t, wait := some .flash }
      else if t.fget fMGT_FW_STAT_RESULT = fwRange then t.engFail esArg
      else { st := t, data := t.fwShown })

/-- FW_SELECT. -/
def State.engFwSelect (s : State) (cmd : Nat) (e : EngReq) : EngRes :=
  let op := engArg e 0 1
  s.engNeed e 4 (decide (1 ≤ op) && decide (op ≤ 3) && decide (engArg e 1 3 = 0)) (
    let s1 := s.engRec cmd e op
    if s1.fbit fMGT_FW_STAT_BUSY then EngRes.ofWr (s1.dropWrite mEng rMGT_FW_CMD pwState).2 (.dropped pwState) []
    else
      let t := if op = 1 then s1.fwTrialOp (s1.fget fMGT_FW_OFS_OFFSET) else if op = 2 then s1.fwConfirmOp else s1.fwCancelOp
      { st := t, data := t.fwShown })

/-- RESTART: the restart follows 10 ms after the response. -/
def State.engRestart (s : State) (cmd : Nat) (e : EngReq) : EngRes :=
  s.engNeed e 4 (decide (engArg e 0 1 ≤ 1) && decide (engArg e 1 3 = 0)) (
    let t := s.engRec cmd e 0
    { st := { t with eng := { t.eng with restart := some (decide (engArg e 0 1 = 1)) } } })

/-! ### Execution -/

/-- Command codes (R486). -/
abbrev ecIdent : Nat := 0x0001
abbrev ecRead32 : Nat := 0x0010
abbrev ecWrite32 : Nat := 0x0011

/-- Whether the module lets a command be executed (R490, R561; spec/20_reset_watchdog_cask.md, RST_START.PHASE). -/
def State.engAvail (s : State) (cmd : Nat) (e : EngReq) : Bool :=
  let span (lo hi : Nat) : Bool := decide (lo ≤ engArg e 0 4) && decide (engArg e 0 4 + 4 * engArg e 4 2 ≤ hi)
  let ph := s.fget fRST_START_PHASE
  if s.inRom then [0x0001, 0x0002, 0x0080, 0x0081, 0x0090].contains cmd
  else if ph = phTest then cmd = ecIdent || (decide (cmd = ecRead32) && span 0x10000 0x20000)
  else if ph = phOperating then true
  else if cmd = ecRead32 ∨ cmd = ecWrite32 then
    span 0x300000 0x310000 || span 0x310000 0x320000 || span 0x320000 0x330000 || span 0x330000 0x340000 || span 0x340000 0x350000
      || span 0x350000 0x360000
  else [0x0001, 0x0002, 0x0030, 0x0031, 0x0032, 0x0033, 0x0060, 0x0061, 0x0062, 0x0070, 0x0071, 0x0080, 0x0081, 0x0090].contains cmd

/-- Carries out a command of the lower codes. -/
def State.engDoLow (s : State) (cmd : Nat) (e : EngReq) : EngRes :=
  if cmd = 0x0001 then s.engIdent e
  else if cmd = 0x0002 then { st := s, data := e.payload }
  else if cmd = 0x0010 then s.engRead32 e
  else if cmd = 0x0011 then s.engWrite32 cmd e
  else if cmd = 0x0012 then s.engReadBlock e
  else if cmd = 0x0013 then s.engWriteBlock cmd e
  else if cmd = 0x0020 then s.engModule cmd e
  else if cmd = 0x0021 then s.engPart cmd e
  else if cmd = 0x0030 then s.engFreeze cmd e
  else if cmd = 0x0031 then s.engUnfreeze cmd e
  else if cmd = 0x0032 then s.engCellarRead e
  else if cmd = 0x0033 then s.engCellarStat e
  else s.engFail esUnknown

/-- Carries out a graft command. -/
def State.engDoGraft (s : State) (cmd : Nat) (e : EngReq) : EngRes :=
  if cmd = 0x0040 then s.engGraftLoad cmd e
  else if cmd = 0x0041 then s.engGraftAlloc cmd e
  else if cmd = 0x0042 then s.engGraftWrite cmd e
  else if cmd = 0x0043 then s.engGraftArm cmd e
  else if cmd = 0x0044 then s.engGraftGo cmd e
  else if cmd = 0x0045 then s.engGraftCmd cmd e 29 [gsWindow] gsRollback
  else if cmd = 0x0046 then s.engGraftCmd cmd e 28 [gsWindow] gsSweep
  else if cmd = 0x0047 then s.engGraftCmd cmd e 30 [gsLoading, gsChecking, gsRacking, gsArmed] gsIdle
  else if cmd = 0x0048 then s.engGraftStat e
  else s.engFail esUnknown

/-- Carries out a command of the higher codes. -/
def State.engDoHigh (s : State) (cmd : Nat) (e : EngReq) : EngRes :=
  if cmd = 0x0050 then s.engMbxSend cmd e
  else if cmd = 0x0051 then s.engMbxCmd cmd e 4 3
  else if cmd = 0x0052 then s.engMbxCmd cmd e (8 + engArg e 1 1 * 256) 2
  else if cmd = 0x0053 then s.engMbxCmd cmd e 2 3
  else if cmd = 0x0054 then s.engMbxRead e
  else if cmd = 0x0060 then s.engTimeGet e
  else if cmd = 0x0061 then s.engTimeSet cmd e
  else if cmd = 0x0062 then s.engAccept cmd e
  else if cmd = 0x0070 then s.engCaskRead e
  else if cmd = 0x0071 then s.engCaskWrite cmd e
  else if cmd = 0x0080 then s.engFwWrite cmd e
  else if cmd = 0x0081 then s.engFwSelect cmd e
  else if cmd = 0x0090 then s.engRestart cmd e
  else s.engFail esUnknown

/-- Carries out a command: what it does not list is reserved, a payload of more than 1,280 bytes suits none (R480, R485). -/
def State.engDo (s : State) (cmd : Nat) (e : EngReq) : EngRes :=
  if !s.engAvail cmd e then s.engFail esNotAvail
  else if 1280 < e.len then s.engFail esLength
  else if cmd < 0x0040 then s.engDoLow cmd e
  else if cmd < 0x0050 then s.engDoGraft cmd e
  else s.engDoHigh cmd e

/-- Executes a request, or resends the response kept for its SEQ (R482, R483). -/
def State.engRun (s : State) (cmd : Nat) (e : EngReq) : State :=
  match s.eng.clients.find? (fun c => decide (c.ip = e.ip) && decide (c.port = e.port) && decide (c.seq = e.seq)) with
  | some c => ((s.fsat (fTIME_CNT_COUNT 11)).engSend e c.resp).engKeep e c.resp
  | none =>
    let s1 := ((s.fsat (fTIME_CNT_COUNT 9)).setReg rTIME_ENG_CLIENT (BitVec.ofNat 32 e.ip)).setReg rTIME_ENG_CLIENT_PORT
      (BitVec.ofNat 32 (cmd * 65536 + e.port % 65536))
    let q := s1.engDo cmd e
    match q.wait with
    | some j => { q.st with eng := { q.st.eng with job := some (cmd, e, j) } }
    | none => q.st.engAnswer cmd e q.status q.detail q.data

/-- TIME_ENG_CTRL.FULL as the queue stands. -/
def State.engFull (s : State) : State := s.fset fTIME_ENG_CTRL_FULL (b2n (decide (32 ≤ s.eng.waiting.length)))

/-- A request arrives (R481, R482); nothing does while management restarts. -/
def State.engArrive (s : State) (cmd : Nat) (e : EngReq) : Out :=
  .next (
    if s.mgt.down then s
    else if !s.fbit fTIME_ENG_CTRL_EN || !engValid cmd e then s.engBad
    else if s.eng.job.isNone then s.engRun cmd e
    else if 32 ≤ s.eng.waiting.length then (s.fsat (fTIME_CNT_COUNT 12)).engSend e (engResp cmd e esBusy 0 [])
    else { s with eng := { s.eng with waiting := s.eng.waiting ++ [(cmd, e)] } }.engFull)

/-- What the request in execution is answered once its action has ended. -/
def State.engEnd (s : State) (cmd : Nat) (e : EngReq) : EngJob → State
  | .graft n => s.engAnswer cmd e (if [gsArmed, gsRacking, gsWindow, gsSweep].contains (s.grfState n) then 0 else esGraft)
      (if [gsArmed, gsRacking, gsWindow, gsSweep].contains (s.grfState n) then 0 else s.fget (fPART_GRF_STAT_RESULT n)) []
  | .cask => s.engAnswer cmd e 0 0 (leBytes 4 (s.reg rCASK_COMMIT_RESULT).toNat)
  | .flash => s.engAnswer cmd e 0 0 s.fwShown

/-- Whether the action that a response waits for has ended. -/
def State.engEnded (s : State) : EngJob → Bool
  | .graft n => decide (s.grfState n ≠ gsChecking)
  | .cask => !s.fbit fCASK_STAT_BUSY
  | .flash => !s.fbit fMGT_FW_STAT_BUSY

/-- Requests that wait are executed in order, until one begins an action. -/
def State.engServe (s : State) : Nat → State
  | 0 => s
  | fuel + 1 =>
    match s.eng.job, s.eng.waiting with
    | none, q :: t => State.engServe (({ s with eng := { s.eng with waiting := t } }.engRun q.1 q.2)) fuel
    | _, _ => s

/-- The service goes on once the action its response waits for has ended. -/
def State.engDrain (s : State) : State :=
  match s.eng.job with
  | some (cmd, e, j) =>
    if !s.mgt.down && s.engEnded j then ((({ s with eng := { s.eng with job := none } }.engEnd cmd e j).engServe 32)).engFull else s
  | none => s

/-- Runs the service after a command that may have ended its action. -/
def thenDrain (o : Out) : Out := match o with | .next s => .next s.engDrain | .fault f => .fault f | .refused r => .refused r

/-- GRAFT_CHECK_DONE (spec/13_graft.md R396, R397). -/
def execGraftCheckDone (n : Fin 256) (s : State) : Out := thenDrain (.next (s.grfCheckDone n.val))

/-- CASK_COMMIT_DONE (spec/20_reset_watchdog_cask.md R606). -/
def execCaskCommitDone (ok : Bool) (s : State) : Out := thenDrain (.next (s.commitDone ok))

/-- FW_OP_COMPLETE (spec/19_management.md R560). -/
def execFwOpComplete (ok : Bool) (s : State) : Out := thenDrain (.next (s.fwDone ok))

/-- ENG_RESTART_DELAY (R486): the module restarts with cause SOFTWARE; leaving RECOVERY by request clears FAIL_COUNT
(spec/20_reset_watchdog_cask.md R592, R593). -/
def execEngRestartDelay (s : State) : Out :=
  .next (match s.eng.restart with
    | none => s
    | some r =>
      let s1 := { s with eng := { s.eng with restart := none }, recReq := r }
      (s1.when (!r && decide (s.fget fRST_START_PHASE = phRecovery)) (fun t => t.fset fRST_START_FAIL_COUNT 0)).moduleReset 11 0)

/-- ENG_FRAME_DISCARD (R477, R481): what the port does not handle counts under ENG_BAD; a request with a reserved CMD is answered
UNKNOWN_CMD. -/
def execEngFrameDiscard (d : EngBad) (s : State) : Out :=
  match d with
  | .frame => .next (if s.mgt.down then s else s.engBad)
  | .short => .next (if s.mgt.down then s else s.engBad)
  | .request cmd e => s.engArrive cmd e

/-- ARP_REQUEST (R477, R478): the port answers for its own address with its MAC address. -/
def execArpRequest (ip target : Nat) (s : State) : Out :=
  .next (if s.mgt.down then s
    else s.when (decide (target = s.fget fTIME_ENG_IP_ADDR)) (fun t => t.emit (t.engMsg .arp ip 0 [target])))

/-- ICMP_ECHO (R477): an echo request to the port's own address is answered. -/
def execIcmpEcho (ip target : Nat) (data : List Byte) (s : State) : Out :=
  .next (if s.mgt.down then s
    else s.when (decide (target = s.fget fTIME_ENG_IP_ADDR) && s.engReach ip) (fun t =>
      t.emit (t.engMsg .icmp ip 0 (nats data))))

end Sys2Proof.Machine
end

