-- ==== Sys2Proof/Machine/EngCmd.lean ====
section
/-! DEFINITION. The engineering commands (spec/16_engineering_time.md R486): a request with each code arrives at the service. -/

namespace Sys2Proof.Machine

/-- IDENT. -/
def execIdent (e : EngReq) (s : State) : Out := s.engArrive 0x0001 e

/-- ECHO. -/
def execEcho (e : EngReq) (s : State) : Out := s.engArrive 0x0002 e

/-- READ32. -/
def execRead32 (e : EngReq) (s : State) : Out := s.engArrive 0x0010 e

/-- WRITE32. -/
def execWrite32 (e : EngReq) (s : State) : Out := s.engArrive 0x0011 e

/-- READ_BLOCK. -/
def execReadBlock (e : EngReq) (s : State) : Out := s.engArrive 0x0012 e

/-- WRITE_BLOCK. -/
def execWriteBlock (e : EngReq) (s : State) : Out := s.engArrive 0x0013 e

/-- MODULE_MODE. -/
def execModuleMode (e : EngReq) (s : State) : Out := s.engArrive 0x0020 e

/-- PART_MODE. -/
def execPartMode (e : EngReq) (s : State) : Out := s.engArrive 0x0021 e

/-- CELLAR_FREEZE. -/
def execCellarFreeze (e : EngReq) (s : State) : Out := s.engArrive 0x0030 e

/-- CELLAR_UNFREEZE. -/
def execCellarUnfreeze (e : EngReq) (s : State) : Out := s.engArrive 0x0031 e

/-- CELLAR_READ. -/
def execCellarRead (e : EngReq) (s : State) : Out := s.engArrive 0x0032 e

/-- CELLAR_STATUS. -/
def execCellarStatus (e : EngReq) (s : State) : Out := s.engArrive 0x0033 e

/-- GRAFT_LOAD. -/
def execGraftLoad (e : EngReq) (s : State) : Out := s.engArrive 0x0040 e

/-- GRAFT_ALLOC. -/
def execGraftAlloc (e : EngReq) (s : State) : Out := s.engArrive 0x0041 e

/-- GRAFT_WRITE. -/
def execGraftWrite (e : EngReq) (s : State) : Out := s.engArrive 0x0042 e

/-- GRAFT_ARM. -/
def execGraftArm (e : EngReq) (s : State) : Out := s.engArrive 0x0043 e

/-- GRAFT_GO. -/
def execGraftGo (e : EngReq) (s : State) : Out := s.engArrive 0x0044 e

/-- GRAFT_ROLLBACK. -/
def execGraftRollback (e : EngReq) (s : State) : Out := s.engArrive 0x0045 e

/-- GRAFT_RELEASE. -/
def execGraftRelease (e : EngReq) (s : State) : Out := s.engArrive 0x0046 e

/-- GRAFT_ABORT. -/
def execGraftAbort (e : EngReq) (s : State) : Out := s.engArrive 0x0047 e

/-- GRAFT_STATUS. -/
def execGraftStatus (e : EngReq) (s : State) : Out := s.engArrive 0x0048 e

/-- MBX_SEND. -/
def execMbxSend (e : EngReq) (s : State) : Out := s.engArrive 0x0050 e

/-- MBX_TAKE. -/
def execMbxTake (e : EngReq) (s : State) : Out := s.engArrive 0x0051 e

/-- MBX_DONE. -/
def execMbxDone (e : EngReq) (s : State) : Out := s.engArrive 0x0052 e

/-- MBX_WITHDRAW. -/
def execMbxWithdraw (e : EngReq) (s : State) : Out := s.engArrive 0x0053 e

/-- MBX_READ. -/
def execMbxRead (e : EngReq) (s : State) : Out := s.engArrive 0x0054 e

/-- TIME_GET. -/
def execTimeGet (e : EngReq) (s : State) : Out := s.engArrive 0x0060 e

/-- TIME_SET_WALL. -/
def execTimeSetWall (e : EngReq) (s : State) : Out := s.engArrive 0x0061 e

/-- TIME_ACCEPT_BACK. -/
def execTimeAcceptBack (e : EngReq) (s : State) : Out := s.engArrive 0x0062 e

/-- CASK_READ. -/
def execCaskRead (e : EngReq) (s : State) : Out := s.engArrive 0x0070 e

/-- CASK_WRITE. -/
def execCaskWrite (e : EngReq) (s : State) : Out := s.engArrive 0x0071 e

/-- FW_WRITE. -/
def execFwWrite (e : EngReq) (s : State) : Out := s.engArrive 0x0080 e

/-- FW_SELECT. -/
def execFwSelect (e : EngReq) (s : State) : Out := s.engArrive 0x0081 e

/-- RESTART. -/
def execRestart (e : EngReq) (s : State) : Out := s.engArrive 0x0090 e

end Sys2Proof.Machine
end

