-- ==== Sys2Proof/Machine/JByte.lean ====
section
/-! DEFINITION. Judin byte arithmetic and compare chains (spec/05_judin_reference.md R172, R173). -/

namespace Sys2Proof.Machine

/-- What a byte operation computes from its operands and the flags: a result, or none where it is discarded, and the flags. -/
abbrev Alu := Nat → Nat → Flags → Option Nat × Flags

/-- Keeps an operation's result. -/
def kept (p : Nat × Flags) : Option Nat × Flags := (some p.1, p.2)

/-- Discards an operation's result. -/
def discarded (p : Nat × Flags) : Option Nat × Flags := (none, p.2)

/-- Applies a byte operation to register `r` of a lane. -/
def alu8Lane (f : Alu) (r : R8) (v : Nat) (l : Lane) : Lane :=
  let p := f (l.r8 r).toNat v l.f
  match p.1 with
  | some x => { l.set8 r (BitVec.ofNat 8 x) with f := p.2 }
  | none => { l with f := p.2 }

/-- A two-operand byte instruction (R172). The source is read before the base register moves and the result is written. -/
def State.alu8 (s : State) (c : Cx) (r : R8) (src : Src8) (f : Alu) : State :=
  match src with
  | .imm i => s.regLanes c 1 1 (fun l => alu8Lane f r i.toNat l)
  | .mem o => s.perLane c (mopLen o) 1 false (fun _ l =>
      let e := mopEa o l 1
      { accs := [⟨e.1.toNat, 1, false⟩], run := fun rd => (alu8Lane f r (rd e.1.toNat 1) e.2, []) })

/-- ADD. -/
def aluAdd : Alu := fun a b f => kept (addKind 8 a b 0 f)

/-- ADC. -/
def aluAdc : Alu := fun a b f => kept (addKind 8 a b (b2n (fC f)) f)

/-- SUB. -/
def aluSub : Alu := fun a b f => kept (subKind 8 a b 0 false f)

/-- SBC: Z is sticky. -/
def aluSbc : Alu := fun a b f => kept (subKind 8 a b (b2n (fC f)) true f)

/-- AND. -/
def aluAnd : Alu := fun a b f => (some (a &&& b), logicKind 8 (a &&& b) f)

/-- OR. -/
def aluOr : Alu := fun a b f => (some (a ||| b), logicKind 8 (a ||| b) f)

/-- XOR. -/
def aluXor : Alu := fun a b f => (some (a ^^^ b), logicKind 8 (a ^^^ b) f)

/-- CMP. -/
def aluCmp : Alu := fun a b f => discarded (subKind 8 a b 0 false f)

/-- CPC: Z is sticky. -/
def aluCpc : Alu := fun a b f => discarded (subKind 8 a b (b2n (fC f)) true f)

/-- BIT. -/
def aluBit : Alu := fun a b f => (none, logicKind 8 (a &&& b) f)

/-- A one-operand byte instruction (R173). -/
def State.unary8 (s : State) (c : Cx) (r : R8) (f : Nat → Flags → Option Nat × Flags) : State :=
  s.regLanes c 1 1 (fun l => alu8Lane (fun a _ g => f a g) r 0 l)

/-- INC leaves C. -/
def unInc (a : Nat) (f : Flags) : Option Nat × Flags := ((some (addKind 8 a 1 0 f).1), keepC f (addKind 8 a 1 0 f).2)

/-- DEC leaves C. -/
def unDec (a : Nat) (f : Flags) : Option Nat × Flags :=
  ((some (subKind 8 a 1 0 false f).1), keepC f (subKind 8 a 1 0 false f).2)

/-- NEG. -/
def unNeg (a : Nat) (f : Flags) : Option Nat × Flags := kept (subKind 8 0 a 0 false f)

/-- NOT. -/
def unNot (a : Nat) (f : Flags) : Option Nat × Flags := (some (255 - a), logicKind 8 (255 - a) f)

/-- SHL: C takes bit 7; V is N xor C. -/
def unShl (a : Nat) (f : Flags) : Option Nat × Flags :=
  let r := a * 2 % 256
  (some r, shiftKind r (topBit 8 a) (topBit 8 r != topBit 8 a) f)

/-- SHR: C takes bit 0. -/
def unShr (a : Nat) (f : Flags) : Option Nat × Flags := (some (a / 2), shiftKind (a / 2) (bitOf a 0) false f)

/-- ASR: bit 7 is kept. -/
def unAsr (a : Nat) (f : Flags) : Option Nat × Flags :=
  let r := a / 2 + (if topBit 8 a then 128 else 0)
  (some r, shiftKind r (bitOf a 0) false f)

/-- ROL: the new bit 0 is the old C. -/
def unRol (a : Nat) (f : Flags) : Option Nat × Flags :=
  let r := (a * 2 + b2n (fC f)) % 256
  (some r, shiftKind r (topBit 8 a) (topBit 8 r != topBit 8 a) f)

/-- ROR: the new bit 7 is the old C. -/
def unRor (a : Nat) (f : Flags) : Option Nat × Flags :=
  let r := a / 2 + 128 * b2n (fC f)
  (some r, shiftKind r (bitOf a 0) false f)

/-- CLR: Z 1, N 0, V 0; C is left. -/
def unClr (_ : Nat) (f : Flags) : Option Nat × Flags := (some 0, logicKind 8 0 f)

/-- TST: Z and N from the register; C and V become 0. -/
def unTst (a : Nat) (f : Flags) : Option Nat × Flags := (none, shiftKind a false false f)

/-- ADD (R172). -/
def execJAdd (c : Cx) (r : R8) (src : Src8) (s : State) : Out := .next (s.alu8 c r src aluAdd)

/-- ADC (R172). -/
def execJAdc (c : Cx) (r : R8) (src : Src8) (s : State) : Out := .next (s.alu8 c r src aluAdc)

/-- SUB (R172). -/
def execJSub (c : Cx) (r : R8) (src : Src8) (s : State) : Out := .next (s.alu8 c r src aluSub)

/-- SBC (R172). -/
def execJSbc (c : Cx) (r : R8) (src : Src8) (s : State) : Out := .next (s.alu8 c r src aluSbc)

/-- AND (R172). -/
def execJAnd (c : Cx) (r : R8) (src : Src8) (s : State) : Out := .next (s.alu8 c r src aluAnd)

/-- OR (R172). -/
def execJOr (c : Cx) (r : R8) (src : Src8) (s : State) : Out := .next (s.alu8 c r src aluOr)

/-- XOR (R172). -/
def execJXor (c : Cx) (r : R8) (src : Src8) (s : State) : Out := .next (s.alu8 c r src aluXor)

/-- CMP (R172). -/
def execJCmp (c : Cx) (r : R8) (src : Src8) (s : State) : Out := .next (s.alu8 c r src aluCmp)

/-- CPC (R172). -/
def execJCpc (c : Cx) (r : R8) (src : Src8) (s : State) : Out := .next (s.alu8 c r src aluCpc)

/-- BIT (R172): a memory operand only. -/
def execJBit (c : Cx) (r : R8) (o : MOp) (s : State) : Out := .next (s.alu8 c r (.mem o) aluBit)

/-- INC (R173). -/
def execJInc (c : Cx) (r : R8) (s : State) : Out := .next (s.unary8 c r unInc)

/-- DEC (R173). -/
def execJDec (c : Cx) (r : R8) (s : State) : Out := .next (s.unary8 c r unDec)

/-- NEG (R173). -/
def execJNeg (c : Cx) (r : R8) (s : State) : Out := .next (s.unary8 c r unNeg)

/-- NOT (R173). -/
def execJNot (c : Cx) (r : R8) (s : State) : Out := .next (s.unary8 c r unNot)

/-- SHL (R173). -/
def execJShl (c : Cx) (r : R8) (s : State) : Out := .next (s.unary8 c r unShl)

/-- SHR (R173). -/
def execJShr (c : Cx) (r : R8) (s : State) : Out := .next (s.unary8 c r unShr)

/-- ASR (R173). -/
def execJAsr (c : Cx) (r : R8) (s : State) : Out := .next (s.unary8 c r unAsr)

/-- ROL (R173). -/
def execJRol (c : Cx) (r : R8) (s : State) : Out := .next (s.unary8 c r unRol)

/-- ROR (R173). -/
def execJRor (c : Cx) (r : R8) (s : State) : Out := .next (s.unary8 c r unRor)

/-- CLR (R173). -/
def execJClr (c : Cx) (r : R8) (s : State) : Out := .next (s.unary8 c r unClr)

/-- TST (R173). -/
def execJTst (c : Cx) (r : R8) (s : State) : Out := .next (s.unary8 c r unTst)

end Sys2Proof.Machine
end

