-- ==== Sys2Proof/Machine/JWord.lean ====
section
/-! DEFINITION. Judin word arithmetic and LCC (spec/05_judin_reference.md R174, R175). -/

namespace Sys2Proof.Machine

/-- Applies a word operation to index register `r` of a lane; `d` is the register as it stood before the operand's update. -/
def alu16Lane (f : Alu) (r : R16) (d v : Nat) (l : Lane) : Lane :=
  let p := f d v l.f
  match p.1 with
  | some x => { l.set16 r (BitVec.ofNat 16 x) with f := p.2 }
  | none => { l with f := p.2 }

/-- A word instruction with a source in registers or the instruction (R174). -/
def State.alu16 (s : State) (c : Cx) (r : R16) (len : Nat) (f : Alu) (src : Lane → Nat) : State :=
  s.regLanes c len 1 (fun l => alu16Lane f r (l.r16 r).toNat (src l) l)

/-- A word instruction with a source in memory (R174). -/
def State.alu16Mem (s : State) (c : Cx) (r : R16) (o : MOp) (f : Alu) : State :=
  s.perLane c (mopLen o) 1 false (fun _ l =>
    let e := mopEa o l 2
    { accs := [⟨e.1.toNat, 2, false⟩], run := fun rd => (alu16Lane f r (l.r16 r).toNat (rd e.1.toNat 2) e.2, []) })

/-- Word add, subtract, compare, and their forms with C. -/
def wAdd : Alu := fun a b f => kept (addKind 16 a b 0 f)
def wSub : Alu := fun a b f => kept (subKind 16 a b 0 false f)
def wCmp : Alu := fun a b f => discarded (subKind 16 a b 0 false f)
def wCpc : Alu := fun a b f => discarded (subKind 16 a b (b2n (fC f)) true f)
def wAdc : Alu := fun a b f => kept (addKind 16 a b (b2n (fC f)) f)
def wSbc : Alu := fun a b f => kept (subKind 16 a b (b2n (fC f)) true f)

/-- ADDW and SUBW: a memory operand that updates the destination is reserved (R165). -/
def State.addSubW (s : State) (c : Cx) (r : R16) (src : SrcW) (f : Alu) : State :=
  match src with
  | .imm i => s.alu16 c r 2 f (fun _ => i.toNat)
  | .a => s.alu16 c r 1 f (fun l => l.a.toNat)
  | .b => s.alu16 c r 1 f (fun l => l.b.toNat)
  | .other => s.alu16 c r 1 f (fun l => (l.r16 (otherReg r)).toNat)
  | .mem o => s.unless c (mopUpdates o r) (s.alu16Mem c r o f)

/-- CMPW. A memory operand in mode POSTINC or PREDEC may name the compared register, which is compared as it stood before. -/
def State.cmpW (s : State) (c : Cx) (r : R16) (src : SrcC) : State :=
  match src with
  | .imm i => s.alu16 c r 2 wCmp (fun _ => i.toNat)
  | .other => s.alu16 c r 1 wCmp (fun l => (l.r16 (otherReg r)).toNat)
  | .mem o => s.alu16Mem c r o wCmp

/-- CPCW. -/
def State.cpcW (s : State) (c : Cx) (r : R16) (src : SrcP) : State :=
  match src with
  | .imm i => s.alu16 c r 2 wCpc (fun _ => i.toNat)
  | .mem o => s.alu16Mem c r o wCpc

/-- A per-lane instruction that writes L only. -/
def State.laneL (s : State) (c : Cx) (f : Lane → Bool) : State :=
  s.regLanes c 1 1 (fun l => { l with f := withL l.f (f l) })

/-- ADDW (R174). -/
def execJAddw (c : Cx) (r : R16) (src : SrcW) (s : State) : Out := .next (s.addSubW c r src wAdd)

/-- SUBW (R174). -/
def execJSubw (c : Cx) (r : R16) (src : SrcW) (s : State) : Out := .next (s.addSubW c r src wSub)

/-- CMPW (R174). -/
def execJCmpw (c : Cx) (r : R16) (src : SrcC) (s : State) : Out := .next (s.cmpW c r src)

/-- CPCW (R174). -/
def execJCpcw (c : Cx) (r : R16) (src : SrcP) (s : State) : Out := .next (s.cpcW c r src)

/-- ADCW (R174). -/
def execJAdcw (c : Cx) (r : R16) (i : BitVec 16) (s : State) : Out := .next (s.alu16 c r 2 wAdc (fun _ => i.toNat))

/-- SBCW (R174). -/
def execJSbcw (c : Cx) (r : R16) (i : BitVec 16) (s : State) : Out := .next (s.alu16 c r 2 wSbc (fun _ => i.toNat))

/-- ADDWS: A sign-extended (R174). -/
def execJAddws (c : Cx) (r : R16) (s : State) : Out :=
  .next (s.alu16 c r 1 wAdd (fun l => unsgn 16 (sgn 8 l.a.toNat)))

/-- LCC (R175). -/
def execJLcc (c : Cx) (cc : CC) (s : State) : Out := .next (s.laneL c (fun l => ccHolds cc l.f))

/-- LCC.AND (R175). -/
def execJLccAnd (c : Cx) (cc : CC) (s : State) : Out := .next (s.laneL c (fun l => fL l.f && ccHolds cc l.f))

/-- LCC.OR (R175). -/
def execJLccOr (c : Cx) (cc : CC) (s : State) : Out := .next (s.laneL c (fun l => fL l.f || ccHolds cc l.f))

end Sys2Proof.Machine
end

