-- ==== Sys2Proof/Machine/JBitLogic.lean ====
section
/-! DEFINITION. Judin bit logic (spec/05_judin_reference.md R176, R177) and the operations on L alone (R186). -/

namespace Sys2Proof.Machine

/-- A bit instruction that writes L from L and the bit (R176). -/
def State.bitIn (s : State) (c : Cx) (o : BitArg) (f : Bool → Bool → Bool) : State :=
  match o with
  | .reg r b => s.laneL c (fun l => f (fL l.f) ((l.r8 r).getLsbD b.toNat))
  | .mem o b => s.perLane c (bopLen o) 1 false (fun _ l =>
      { accs := [⟨(bopEa o l).toNat, 1, false⟩]
        run := fun rd => ({ l with f := withL l.f (f (fL l.f) (bitOf (rd (bopEa o l).toNat 1) b.toNat)) }, []) })

/-- A byte with bit `b` replaced. -/
def putBit (v b : Nat) (x : Bool) : Nat := setBits v b b (b2n x)

/-- An output instruction (R176, R177): the byte is read and written back whole. `always` tells OUT and OUTN, which act in every
enabled lane, from SETB, RSTB and TGLB, which make no access where L is 0. `f` gives the new bit from L and the old one. -/
def State.bitOut (s : State) (c : Cx) (o : BitArg) (always : Bool) (f : Bool → Bool → Bool) : State :=
  match o with
  | .reg r b => s.regLanes c 1 1 (fun l =>
      if always || fL l.f then
        l.set8 r (BitVec.ofNat 8 (putBit (l.r8 r).toNat b.toNat (f (fL l.f) ((l.r8 r).getLsbD b.toNat))))
      else l)
  | .mem o b => s.perLane c (bopLen o) 1 false (fun _ l =>
      let a := (bopEa o l).toNat
      if always || fL l.f then
        { accs := [⟨a, 1, false⟩, ⟨a, 1, true⟩]
          run := fun rd => (l, [(a, 1, putBit (rd a 1) b.toNat (f (fL l.f) (bitOf (rd a 1) b.toNat)))]) }
      else { accs := [], run := fun _ => (l, []) })

/-- LDB (R176). -/
def execJLdb (c : Cx) (o : BitArg) (s : State) : Out := .next (s.bitIn c o (fun _ b => b))

/-- LDBN (R176). -/
def execJLdbn (c : Cx) (o : BitArg) (s : State) : Out := .next (s.bitIn c o (fun _ b => !b))

/-- ANDB (R176). -/
def execJAndb (c : Cx) (o : BitArg) (s : State) : Out := .next (s.bitIn c o (fun l b => l && b))

/-- ANDBN (R176). -/
def execJAndbn (c : Cx) (o : BitArg) (s : State) : Out := .next (s.bitIn c o (fun l b => l && !b))

/-- ORB (R176). -/
def execJOrb (c : Cx) (o : BitArg) (s : State) : Out := .next (s.bitIn c o (fun l b => l || b))

/-- ORBN (R176). -/
def execJOrbn (c : Cx) (o : BitArg) (s : State) : Out := .next (s.bitIn c o (fun l b => l || !b))

/-- XORB (R176). -/
def execJXorb (c : Cx) (o : BitArg) (s : State) : Out := .next (s.bitIn c o (fun l b => l != b))

/-- XORBN (R176). -/
def execJXorbn (c : Cx) (o : BitArg) (s : State) : Out := .next (s.bitIn c o (fun l b => l != !b))

/-- OUT (R177). -/
def execJOut (c : Cx) (o : BitArg) (s : State) : Out := .next (s.bitOut c o true (fun l _ => l))

/-- OUTN (R177). -/
def execJOutn (c : Cx) (o : BitArg) (s : State) : Out := .next (s.bitOut c o true (fun l _ => !l))

/-- SETB (R177). -/
def execJSetb (c : Cx) (o : BitArg) (s : State) : Out := .next (s.bitOut c o false (fun _ _ => true))

/-- RSTB (R177). -/
def execJRstb (c : Cx) (o : BitArg) (s : State) : Out := .next (s.bitOut c o false (fun _ _ => false))

/-- TGLB (R177). -/
def execJTglb (c : Cx) (o : BitArg) (s : State) : Out := .next (s.bitOut c o false (fun _ b => !b))

/-- NOTL (R186). -/
def execJNotl (c : Cx) (s : State) : Out := .next (s.laneL c (fun l => !fL l.f))

/-- SETL (R186). -/
def execJSetl (c : Cx) (s : State) : Out := .next (s.laneL c (fun _ => true))

/-- CLRL (R186). -/
def execJClrl (c : Cx) (s : State) : Out := .next (s.laneL c (fun _ => false))

end Sys2Proof.Machine
end

