-- ==== Sys2Proof/Machine/JFlow.lean ====
section
/-! DEFINITION. The meanings of the Judin branch and stack instructions (spec/05_judin_reference.md R179 … R181). -/

namespace Sys2Proof.Machine

/-- PUSH r: ILLEGAL in a lane context; an exception of the access itself ranks first (R152); outside LO … HI − 1 STACK_BOUNDS; else the
bytes are written and DP := DP − s (R148, R149, R181). -/
def State.jPush (s : State) (c : Cx) (r : Rg) : State :=
  let x := s.cx c
  let n := rgSize r
  let dp := x.dp - BitVec.ofNat 16 n
  let a := dp.toNat
  s.unless c (!x.scalar)
    (if !s.issues c then s
    else if !x.enabled 0 then (s.fetched c).advance c 1 1 0
    else if !s.stackTrap c a n true && !s.inStack x.part a n then (s.fetched c).stackBounds c a
    else (s.perLane c 1 1 false (fun _ l => { accs := [⟨a, n, true⟩], run := fun _ => (l, [(a, n, rgValue r l)]) })).moveDp c x dp)

/-- POP r: as PUSH; reads at DP, then DP := DP + s. -/
def State.jPop (s : State) (c : Cx) (r : Rg) : State :=
  let x := s.cx c
  let n := rgSize r
  let a := x.dp.toNat
  s.unless c (!x.scalar)
    (if !s.issues c then s
    else if !x.enabled 0 then (s.fetched c).advance c 1 1 0
    else if !s.stackTrap c a n false && !s.inStack x.part a n then (s.fetched c).stackBounds c a
    else (s.perLane c 1 1 false (fun _ l => { accs := [⟨a, n, false⟩], run := fun rd => (rgLoad r (rd a n) l, []) })).moveDp c x
      (x.dp + BitVec.ofNat 16 n))

/-- BR cc, d6 (R179). -/
def execJBr (c : Cx) (cc : CC) (d : BitVec 6) (s : State) : Out :=
  .next (s.condBranch c cc 1 (relTarget (s.cx c).pc 1 (d.signExtend 16)))

/-- BRL cc, t (R179). -/
def execJBrl (c : Cx) (cc : CC) (t : BitVec 16) (s : State) : Out := .next (s.condBranch c cc 2 t)

/-- BANY d8 (R131). -/
def execJBany (c : Cx) (d : BitVec 8) (s : State) : Out :=
  .next (s.redBranch c .any 1 (relTarget (s.cx c).pc 1 (d.signExtend 16)))

/-- BALL d8 (R131). -/
def execJBall (c : Cx) (d : BitVec 8) (s : State) : Out :=
  .next (s.redBranch c .all 1 (relTarget (s.cx c).pc 1 (d.signExtend 16)))

/-- BNONE d8 (R131). -/
def execJBnone (c : Cx) (d : BitVec 8) (s : State) : Out :=
  .next (s.redBranch c .none 1 (relTarget (s.cx c).pc 1 (d.signExtend 16)))

/-- BANYL t (R179). -/
def execJBanyl (c : Cx) (t : BitVec 16) (s : State) : Out := .next (s.redBranch c .any 2 t)

/-- BALLL t (R179). -/
def execJBalll (c : Cx) (t : BitVec 16) (s : State) : Out := .next (s.redBranch c .all 2 t)

/-- BNONEL t (R179). -/
def execJBnonel (c : Cx) (t : BitVec 16) (s : State) : Out := .next (s.redBranch c .none 2 t)

/-- JMPS d10 (R179). -/
def execJJmps (c : Cx) (d : BitVec 10) (s : State) : Out :=
  .next (s.jumpTo c (relTarget (s.cx c).pc 1 (d.signExtend 16)))

/-- JMP t (R179). -/
def execJJmp (c : Cx) (t : BitVec 16) (s : State) : Out := .next (s.jumpTo c t)

/-- JMPX r (R180). -/
def execJJmpx (c : Cx) (r : R16) (s : State) : Out := .next (s.jmpx c r)

/-- CALL t (R146). -/
def execJCall (c : Cx) (t : BitVec 16) (s : State) : Out := .next (if s.issues c then (s.fetched c).callTo c 2 t else s)

/-- CALLX r (R180). -/
def execJCallx (c : Cx) (r : R16) (s : State) : Out := .next (s.callx c r)

/-- RET (R146). -/
def execJRet (c : Cx) (s : State) : Out := .next (s.retFrom c false)

/-- RTE (R146). -/
def execJRte (c : Cx) (s : State) : Out := .next (s.retFrom c true)

/-- PUSH (R181). -/
def execJPush (c : Cx) (r : Rg) (s : State) : Out := .next (s.jPush c r)

/-- POP (R181). -/
def execJPop (c : Cx) (r : Rg) (s : State) : Out := .next (s.jPop c r)

end Sys2Proof.Machine
end

