-- ==== Sys2Proof/Machine/JTimer.lean ====
section
/-! DEFINITION. Judin timers, counters and edges (spec/05_judin_reference.md R182 … R185). -/

namespace Sys2Proof.Machine

/-- A timer record (R182), as numbers. -/
structure TimerRec where
  pt : Nat
  et : Nat
  stamp : Nat
  q : Bool
  pin : Bool
  deriving DecidableEq, Repr

/-- Timer types (R183). -/
inductive TimerKind where
  | ton | tof | tp
  deriving DecidableEq, Repr

/-- The base unit in nanoseconds (R183). -/
def baseNs (b : BitVec 2) : Nat :=
  if b = 0 then 1000 else if b = 1 then 100000 else if b = 2 then 10000000 else 1000000000

/-- One execution of a timer: the new ET and Q (R183). -/
def timerNext (k : TimerKind) (r : TimerRec) (inp : Bool) (d : Nat) : Nat × Bool :=
  let e := min r.pt (r.et + d)
  match k with
  | .ton =>
    if !inp then (0, false)
    else if !r.pin then (0, decide (r.pt = 0))
    else (e, decide (e = r.pt))
  | .tof =>
    if inp then (0, true)
    else if r.pin then (0, decide (r.pt ≠ 0))
    else if r.q then (e, decide (e < r.pt))
    else (r.et, r.q)
  | .tp =>
    if r.q then (e, decide (e < r.pt))
    else if inp && !r.pin then (0, decide (r.pt ≠ 0))
    else (r.et, r.q)

/-- Reads a timer record. -/
def timerRec (rd : Nat → Nat → Nat) (a : Nat) : TimerRec :=
  { pt := rd a 2, et := rd ((a + 2) % 65536) 2, stamp := rd ((a + 4) % 65536) 3
    q := bitOf (rd ((a + 7) % 65536) 1) 0, pin := bitOf (rd ((a + 7) % 65536) 1) 1 }

/-- T_SAMPLE as the frame load or scalar start latched it (R74, R183). -/
def Ctx.tSample (x : Ctx) : Nat := leAt x.sysrec 8 8

/-- A timer instruction: the record is read, ET, STAMP and STATE are written, and L takes Q (R183). Three clocks (R169). -/
def State.timer (s : State) (c : Cx) (k : TimerKind) (b : BitVec 2) (o : ROp) : State :=
  let now := (s.cx c).tSample / baseNs b % 2 ^ 24
  s.perLane c (ropLen o) 3 false (fun _ l =>
    let a := (ropEa o l).toNat
    { accs := [⟨a, 8, false⟩, ⟨(a + 2) % 65536, 6, true⟩]
      run := fun rd =>
        let r := timerRec rd a
        let p := timerNext k r (fL l.f) ((now + 2 ^ 24 - r.stamp) % 2 ^ 24)
        ({ l with f := withL l.f p.2 },
          [((a + 2) % 65536, 2, p.1), ((a + 4) % 65536, 3, now),
           ((a + 7) % 65536, 1, b2n p.2 + 2 * b2n (fL l.f))]) })

/-- A counter record (R182), as numbers. -/
structure CounterRec where
  pv : Nat
  cv : Nat
  q : Bool
  pu : Bool
  pd : Bool
  ov : Bool
  deriving DecidableEq, Repr

/-- Reads a counter record. -/
def counterRec (rd : Nat → Nat → Nat) (a : Nat) : CounterRec :=
  let st := rd ((a + 4) % 65536) 1
  { pv := rd a 2, cv := rd ((a + 2) % 65536) 2, q := bitOf st 0, pu := bitOf st 1, pd := bitOf st 2, ov := bitOf st 7 }

/-- The writes that store CV and STATE; bits 6:3 of STATE are written 0. -/
def counterPuts (a : Nat) (r : CounterRec) : List (Nat × Nat × Nat) :=
  [((a + 2) % 65536, 2, r.cv), ((a + 4) % 65536, 1, b2n r.q + 2 * b2n r.pu + 4 * b2n r.pd + 128 * b2n r.ov)]

/-- A counter instruction: the record is read, CV and STATE written, and L where the operation gives it (R185). Two clocks. `wr` tells
from L whether the operation writes the record. -/
def State.counter (s : State) (c : Cx) (o : ROp) (wr : Bool → Bool) (f : Bool → CounterRec → CounterRec × Option Bool) : State :=
  s.perLane c (ropLen o) 2 false (fun _ l =>
    let a := (ropEa o l).toNat
    { accs := ⟨a, 5, false⟩ :: (if wr (fL l.f) then [⟨(a + 2) % 65536, 3, true⟩] else [])
      run := fun rd =>
        let p := f (fL l.f) (counterRec rd a)
        ((match p.2 with | some q => { l with f := withL l.f q } | none => l), if wr (fL l.f) then counterPuts a p.1 else []) })

/-- CTU counts a rising L, saturating with OV. -/
def ctuNext (l : Bool) (r : CounterRec) : CounterRec × Option Bool :=
  let up := l && !r.pu
  let r1 := if up then (if r.cv = 0xFFFF then { r with ov := true } else { r with cv := r.cv + 1 }) else r
  let q := decide (r1.pv ≤ r1.cv)
  ({ r1 with pu := l, q := q }, some q)

/-- CTD counts down a rising L, saturating at 0 with OV. -/
def ctdNext (l : Bool) (r : CounterRec) : CounterRec × Option Bool :=
  let dn := l && !r.pd
  let r1 := if dn then (if r.cv = 0 then { r with ov := true } else { r with cv := r.cv - 1 }) else r
  let q := decide (r1.cv = 0)
  ({ r1 with pd := l, q := q }, some q)

/-- CRES: with L = 1, CV and Q become 0; with L = 0 it writes nothing (log 15). -/
def cresNext (l : Bool) (r : CounterRec) : CounterRec × Option Bool :=
  (if l then { r with cv := 0, q := false } else r, none)

/-- CLD: with L = 1, CV takes PV and Q becomes 0; with L = 0 it writes nothing (log 15). -/
def cldNext (l : Bool) (r : CounterRec) : CounterRec × Option Bool :=
  (if l then { r with cv := r.pv, q := false } else r, none)

/-- An edge instruction: L from L and PREV, and PREV takes the old L; bits 7:1 are written 0 (R185). -/
def State.edge (s : State) (c : Cx) (o : ROp) (f : Bool → Bool → Bool) : State :=
  s.perLane c (ropLen o) 1 false (fun _ l =>
    let a := (ropEa o l).toNat
    { accs := [⟨a, 1, false⟩, ⟨a, 1, true⟩]
      run := fun rd => ({ l with f := withL l.f (f (fL l.f) (bitOf (rd a 1) 0)) }, [(a, 1, b2n (fL l.f))]) })

/-- TON (R183). -/
def execJTon (c : Cx) (base : BitVec 2) (o : ROp) (s : State) : Out := .next (s.timer c .ton base o)

/-- TOF (R183). -/
def execJTof (c : Cx) (base : BitVec 2) (o : ROp) (s : State) : Out := .next (s.timer c .tof base o)

/-- TP (R183). -/
def execJTp (c : Cx) (base : BitVec 2) (o : ROp) (s : State) : Out := .next (s.timer c .tp base o)

/-- CTU (R185). -/
def execJCtu (c : Cx) (o : ROp) (s : State) : Out := .next (s.counter c o (fun _ => true) ctuNext)

/-- CTD (R185). -/
def execJCtd (c : Cx) (o : ROp) (s : State) : Out := .next (s.counter c o (fun _ => true) ctdNext)

/-- CRES (R185). -/
def execJCres (c : Cx) (o : ROp) (s : State) : Out := .next (s.counter c o (fun l => l) cresNext)

/-- CLD (R185). -/
def execJCld (c : Cx) (o : ROp) (s : State) : Out := .next (s.counter c o (fun l => l) cldNext)

/-- REDGE (R185). -/
def execJRedge (c : Cx) (o : ROp) (s : State) : Out := .next (s.edge c o (fun l p => l && !p))

/-- FEDGE (R185). -/
def execJFedge (c : Cx) (o : ROp) (s : State) : Out := .next (s.edge c o (fun l p => p && !l))

end Sys2Proof.Machine
end

