-- ==== Sys2Proof/Machine/RackCfg.lean ====
section
/-! DEFINITION. What a standby does with a racked write (spec/14_racking_standby.md R430, R433; spec/10_trellis_link.md R304). -/

namespace Sys2Proof.Machine

/-- A schedule table seen from the other end of its line: position k and position Bp − 1 − k change places (R304). -/
def mirrorTbl (t : List Byte) : List Byte :=
  let b := min 16 (leAt t 0 1)
  (List.range t.length).map (fun i =>
    let k := (i - 0x20) / 4
    if 0x20 ≤ i ∧ k < b then t.getD (0x20 + 4 * (b - 1 - k) + i % 4) 0 else t.getD i 0)

/-- Bytes of a racked write that fall into the 256 bytes at `base` replace those of `t`. -/
def overlay (base a : Nat) (bytes t : List Byte) : List Byte :=
  t.zipIdx.map (fun e => if a ≤ base + e.2 ∧ base + e.2 < a + bytes.length then bytes.getD (base + e.2 - a) 0 else e.1)

/-- A racked write to one copy of a port's schedule table lands in the mirrored copy, word by word: of each word, the bytes from the first
to the last whose mirrored place the write covers. -/
def State.rackSched (s : State) (a : Nat) (bytes : List Byte) (pc : Nat × Nat) : State :=
  let base := s.schedTbl pc.1 pc.2
  let new := mirrorTbl (overlay base a bytes (mirrorTbl (s.rdList base 256)))
  let b := min 16 (leAt new 0 1)
  let from' (i : Nat) : Nat := if 0x20 ≤ i ∧ (i - 0x20) / 4 < b then 0x20 + 4 * (b - 1 - (i - 0x20) / 4) + i % 4 else i
  let hit (i : Nat) : Bool := decide (a ≤ base + from' i) && decide (base + from' i < a + bytes.length)
  (List.range 32).foldl (fun t w =>
    let is := (List.range 8).filter (fun j => hit (8 * w + j))
    match is.head?, is.getLast? with
    | some lo, some hi => t.tblWr (base + 8 * w + lo) ((new.drop (8 * w + lo)).take (hi + 1 - lo))
    | _, _ => t) s

/-- Copies of schedule tables that a write touches. -/
def State.schedCopies (s : State) (a n : Nat) : List (Nat × Nat) :=
  ((List.range 32).flatMap (fun p => [(p, 0), (p, 1)])).filter (fun e =>
    decide (s.schedTbl e.1 e.2 < a + n) && decide (a < s.schedTbl e.1 e.2 + 256))

/-- A racked write to a store. -/
def State.rackStore (s : State) (a : Nat) (bytes : List Byte) : State :=
  let base := s.schedTbl 0 0
  let s1 := if base ≤ a ∧ a < base + 0x4000 then s else s.wrEcc a bytes.length
  let s2 := (List.range bytes.length).foldl (fun t i =>
    if (isTable (a + i) || isProgram (a + i)) && !(decide (base ≤ a + i) && decide (a + i < base + 0x4000)) then t.wrB (a + i) (bytes.getD i 0) else t) s1
  (s2.schedCopies a bytes.length).foldl (fun t e => t.rackSched a bytes e) s2

/-- A racked write to a register: its writable fields take their values; a partition's mode shows the active's (R433), as the module's does by the BEAT; what
asks the active for an action asks the standby for none, but a schedule table's commit. -/
def State.rackReg (s : State) (m off raw : Nat) : State :=
  match regRow? off with
  | none => s
  | some row =>
    if (List.range 256).any (fun n => decide (off = rPART_STAT n)) then s.setReg off (BitVec.ofNat 32 raw)
    else if off = rCONV_EPOCH then s
    else
      let q := s.mergeWrite off raw (s.held m off).toNat row
      let v := if off = rCONV_PERSIST then setBits q.word 31 31 0 else q.word
      let s1 := s.regPut m off (BitVec.ofNat 32 v)
      if 0x40000 ≤ off ∧ off < 0x50000 ∧ 0x80 ≤ off % 0x100 ∧ off % 0x100 < 0xC0 then
        s.effRowmap s1 ((off - 0x40000) / 0x100) ((off % 0x100 - 0x80) / 4)
      else if 0x23000 ≤ off ∧ off < 0x23800 ∧ off % 0x20 = 0 then s.effEvt s1 off raw
      else if off = rTRL_TBL_SCHED then (List.range 32).foldl (fun t p => t.showTable p) s1
      else s1

/-- RACK_CONFIG (R430): a standby applies a racked write to its own registers and stores. -/
def execRackConfig (h : RackHdr) (m addr : Nat) (bytes : List Byte) (_cycle : Nat) (s : State) : Out :=
  s.onOrdered h (fun t =>
    if addr < 0x1000000 then (if rackedReg addr && decide (addr % 4 = 0) then t.rackReg m addr (ofLE bytes) else t)
    else t.rackStore addr bytes)

end Sys2Proof.Machine
end

