-- ==== Sys2Proof/Machine/RegCmd.lean ====
section
/-! DEFINITION. The commands that write one register: each is a write of its register by a master, with the row's own field set (the register tables of each chapter). -/

namespace Sys2Proof.Machine

/-- TRL_PORT_HELLO (spec/10_trellis_link.md R328). -/
def execTrlPortHello (m : Nat) (p : Fin 32) (v : Word) (s : State) : Out := s.fieldCmd m (fTRL_PORT_CTRL_HELLO p.val) 1 v

/-- TRL_PORT_DELAY (R329). -/
def execTrlPortDelay (m : Nat) (p : Fin 32) (v : Word) (s : State) : Out := s.fieldCmd m (fTRL_PORT_CTRL_DELAY p.val) 1 v

/-- TRL_PORT_RETRAIN (R326). -/
def execTrlPortRetrain (m : Nat) (p : Fin 32) (v : Word) (s : State) : Out := s.fieldCmd m (fTRL_PORT_CTRL_RETRAIN p.val) 1 v

/-- TRL_PORT_RESET (R342). -/
def execTrlPortReset (m : Nat) (p : Fin 32) (v : Word) (s : State) : Out := s.fieldCmd m (fTRL_PORT_CTRL_RESET p.val) 1 v

/-- TRL_SCHED_COMMIT (R325). -/
def execTrlSchedCommit (m : Nat) (v : Word) (s : State) : Out := s.wordCmd m rTRL_SCHED_COMMIT v

/-- TRL_MGMT_TX_GO (R319). -/
def execTrlMgmtTxGo (m : Nat) (p : Fin 32) (v : Word) (s : State) : Out := s.fieldCmd m (fTRL_MGMT_TX_GO p.val) 1 v

/-- TRL_MGMT_RX_RELEASE (R319). -/
def execTrlMgmtRxRelease (m : Nat) (p : Fin 32) (v : Word) (s : State) : Out := s.fieldCmd m (fTRL_MGMT_RX_VALID p.val) 1 v

/-- PRESS_TWIN_PROOF (spec/12_twin_presses.md R390). -/
def execPressTwinProof (m : Nat) (k : Fin 34) (v : Word) (s : State) : Out := s.fieldCmd m (fTWIN_CMD_PROOF (pressPage k.val)) 1 v

/-- PRESS_TWIN_FENCE (spec/12_twin_presses.md R382). -/
def execPressTwinFence (m : Nat) (k : Fin 34) (v : Word) (s : State) : Out := s.fieldCmd m (fTWIN_CMD_FENCE (pressPage k.val)) 1 v

/-- EVT_SW_RAISE (spec/06_time_events.md R211). -/
def execEvtSwRaise (m : Nat) (v : Word) (s : State) : Out := s.wordCmd m rEVT_SW_RAISE v

/-- ALARM_TARGET_WRITE (spec/06_time_events.md R218). -/
def execAlarmTargetWrite (m : Nat) (a : Fin 64) (v : Word) (s : State) : Out := s.wordCmd m (rEVT_ALM_B a.val) v

/-- CFG_REJECT_CLEAR (spec/00_scope.md R13). -/
def execCfgRejectClear (m : Nat) (v : Word) (s : State) : Out := s.fieldCmd m fSYS_ERR_STAT_CFG_REJECT 1 v

/-- SCHED_CNT_CLR (R197). -/
def execSchedCntClr (m : Nat) (v : Word) (s : State) : Out := s.fieldCmd m fSCHED_CNT_CLR_CLR 1 v

/-- SCHED_P_CLR (spec/02_control_cycle.md R74). -/
def execSchedPClr (m : Nat) (n : Fin 256) (v : Word) (s : State) : Out := s.fieldCmd m (fSCHED_P_CLR_CLR n.val) 1 v

/-- FAB_CNT_CLR (R197). -/
def execFabCntClr (m : Nat) (v : Word) (s : State) : Out := s.fieldCmd m fFAB_CNT_CLR_CLR 1 v

/-- PRESS_CNT_CLR (R197). -/
def execPressCntClr (m : Nat) (c : Cx) (v : Word) (s : State) : Out := s.fieldCmd m (fPAIR_CNT_CLR_CLR (cxPage c)) 1 v

/-- EVT_CNT_CLR (R197). -/
def execEvtCntClr (m : Nat) (v : Word) (s : State) : Out := s.fieldCmd m fEVT_CNT_CLR_CLR 1 v

/-- STEP_CNT_CLR (R197). -/
def execStepCntClr (m : Nat) (v : Word) (s : State) : Out := s.fieldCmd m fSTEP_CNT_CLR_CLR 1 v

/-- CONV_CNT_CLR (R197). -/
def execConvCntClr (m : Nat) (v : Word) (s : State) : Out := s.fieldCmd m fCONV_CNT_CLR_CLR 1 v

/-- LEDG_CNT_CLR (R197). -/
def execLedgCntClr (m : Nat) (v : Word) (s : State) : Out := s.fieldCmd m fLEDG_CNT_CLR_CLR 1 v

/-- TRL_CNT_CLR (R197). -/
def execTrlCntClr (m : Nat) (p : Fin 32) (v : Word) (s : State) : Out := s.fieldCmd m (fTRL_CNT_CLR_CLR p.val) 1 v

/-- TRL_RFX_CLR (R197). -/
def execTrlRfxClr (m : Nat) (v : Word) (s : State) : Out := s.fieldCmd m fTRL_RFX_CLR_CLR 1 v

/-- RACK_CNT_CLR (R197). -/
def execRackCntClr (m : Nat) (v : Word) (s : State) : Out := s.fieldCmd m fRACK_CNT_CLR_CLR 1 v

/-- TIME_CNT_CLR (R197). -/
def execTimeCntClr (m : Nat) (v : Word) (s : State) : Out := s.fieldCmd m fTIME_CNT_CLR_CLR 1 v

/-- CONV_EPOCH_REQ (spec/08_conversion_calibration.md R269). -/
def execConvEpochReq (m : Nat) (v : Word) (s : State) : Out := s.fieldCmd m fCONV_EPOCH_REQ 1 v

/-- CONV_PERSIST_SAVE (spec/08_conversion_calibration.md R280). -/
def execConvPersistSave (m : Nat) (v : Word) (s : State) : Out := s.fieldCmd m fCONV_PERSIST_SAVE 1 v

/-- PART_GRF_ALLOC (spec/13_graft.md R394). -/
def execPartGrfAlloc (m : Nat) (n : Fin 256) (v : Word) (s : State) : Out := s.wordCmd m (rPART_GRF_ALLOC n.val) v

/-- GRF_ARM (spec/13_graft.md R396). -/
def execGrfArm (m : Nat) (n : Fin 256) (v : Word) (s : State) : Out := s.fieldCmd m (fPART_GRF_CTRL_ARM n.val) 1 v

/-- GRF_ABORT (spec/13_graft.md R414). -/
def execGrfAbort (m : Nat) (n : Fin 256) (v : Word) (s : State) : Out := s.fieldCmd m (fPART_GRF_CTRL_ABORT n.val) 1 v

/-- GRF_ROLLBACK (spec/13_graft.md R412). -/
def execGrfRollback (m : Nat) (n : Fin 256) (v : Word) (s : State) : Out := s.fieldCmd m (fPART_GRF_CTRL_ROLLBACK n.val) 1 v

/-- GRF_RELEASE (spec/13_graft.md R413). -/
def execGrfRelease (m : Nat) (n : Fin 256) (v : Word) (s : State) : Out := s.fieldCmd m (fPART_GRF_CTRL_RELEASE n.val) 1 v

/-- GRF_GROUP_GO (spec/13_graft.md R398). -/
def execGrfGroupGo (m : Nat) (v : Word) (s : State) : Out := s.fieldCmd m fPART_GRF_GROUP_GO 1 v

/-- RACK_CMD_SWAP (spec/14_racking_standby.md R447). -/
def execRackCmdSwap (m : Nat) (v : Word) (s : State) : Out := s.fieldCmd m fRACK_CMD_SWAP 1 v

/-- RACK_CMD_RESYNC (spec/14_racking_standby.md R438). -/
def execRackCmdResync (m : Nat) (v : Word) (s : State) : Out := s.fieldCmd m fRACK_CMD_RESYNC 1 v

/-- RACK_GEN_SEED (spec/14_racking_standby.md R422). -/
def execRackGenSeed (m : Nat) (v : Word) (s : State) : Out := s.wordCmd m rRACK_GEN_SEED v

/-- HOST_RQ_ENABLE (spec/15_host_mailboxes.md R459). -/
def execHostRqEnable (m : Nat) (q : Fin 257) (v : Word) (s : State) : Out := s.fieldCmd m (fHOST_RQ_CFG_EN q.val) 1 v

/-- HOST_RQ_RIDX (spec/15_host_mailboxes.md R464). -/
def execHostRqRidx (m : Nat) (q : Fin 257) (v : Word) (s : State) : Out := s.wordCmd m (rHOST_RQ_RIDX q.val) v

/-- HOST_SNAP_GO (spec/15_host_mailboxes.md R467). -/
def execHostSnapGo (m : Nat) (k : Fin 16) (v : Word) (s : State) : Out := s.fieldCmd m (fHOST_SNAP_CTRL_GO k.val) 1 v

/-- HOST_SNAP_RIDX (spec/15_host_mailboxes.md R469). -/
def execHostSnapRidx (m : Nat) (k : Fin 16) (v : Word) (s : State) : Out := s.wordCmd m (rHOST_SNAP_RIDX k.val) v

/-- HOST_PWE_CLR (spec/15_host_mailboxes.md R456). -/
def execHostPweClr (m : Nat) (v : Word) (s : State) : Out := s.fieldCmd m fHOST_PWE_CLR_CLR 1 v

/-- HOST_CNT_CLR (R197). -/
def execHostCntClr (m : Nat) (v : Word) (s : State) : Out := s.fieldCmd m fHOST_CNT_CLR_CLR 1 v

/-- MBX_CMD_GO (spec/15_host_mailboxes.md R471). -/
def execMbxCmdGo (m : Nat) (c : Fin 128) (v : Word) (s : State) : Out := s.fieldCmd m (fMBX_CMD_GO c.val) 1 v

/-- MBX_CMD_TAKE (R471). -/
def execMbxCmdTake (m : Nat) (c : Fin 128) (v : Word) (s : State) : Out := s.fieldCmd m (fMBX_CMD_TAKE c.val) 1 v

/-- MBX_CMD_DONE (R471). -/
def execMbxCmdDone (m : Nat) (c : Fin 128) (v : Word) (s : State) : Out := s.fieldCmd m (fMBX_CMD_DONE c.val) 1 v

/-- MBX_CMD_WITHDRAW (R471). -/
def execMbxCmdWithdraw (m : Nat) (c : Fin 128) (v : Word) (s : State) : Out := s.fieldCmd m (fMBX_CMD_WITHDRAW c.val) 1 v

/-- MBX_MSG_WRITE (spec/15_host_mailboxes.md R472). -/
def execMbxMsgWrite (m : Nat) (c : Fin 128) (j : Fin 16) (v : Word) (s : State) : Out := s.wordCmd m (rMBX_MSG c.val j.val) v

/-- TIME_SET_GO (spec/16_engineering_time.md R494). -/
def execTimeSetGo (m : Nat) (v : Word) (s : State) : Out := s.fieldCmd m fTIME_SET_CMD_GO 1 v

/-- TIME_SET_ACCEPT_BACK (spec/16_engineering_time.md R496). -/
def execTimeSetAcceptBack (m : Nat) (v : Word) (s : State) : Out := s.fieldCmd m fTIME_SET_CMD_ACCEPT_BACK 1 v

/-- CAN_TX_REQ (spec/17_service_bus.md R520). -/
def execCanTxReq (m : Nat) (c : Fin 4) (v : Word) (s : State) : Out := s.wordCmd m (rCAN_TX_CMD c.val) v

/-- CAN_TX_ABORT (spec/17_service_bus.md R523). -/
def execCanTxAbort (m : Nat) (c : Fin 4) (v : Word) (s : State) : Out := s.wordCmd m (rCAN_TX_CMD c.val) v

/-- CAN_RECOVER (spec/17_service_bus.md R528). -/
def execCanRecover (m : Nat) (c : Fin 4) (v : Word) (s : State) : Out := s.fieldCmd m (fCAN_CTRL_RECOVER c.val) 1 v

/-- CAN_CNT_CLR (R197). -/
def execCanCntClr (m : Nat) (c : Fin 4) (v : Word) (s : State) : Out := s.fieldCmd m (fCAN_CNT_CLR_CLR c.val) 1 v

/-- LIO_ARM (spec/18_local_io_panel.md R539). -/
def execLioArm (m : Nat) (v : Word) (s : State) : Out := s.fieldCmd m fLIO_CTRL_ARM 1 v

/-- LIO_CNT_CLR (R197). -/
def execLioCntClr (m : Nat) (v : Word) (s : State) : Out := s.fieldCmd m fLIO_CNT_CLR_CLR 1 v

/-- PANEL_SWAP (spec/18_local_io_panel.md R551). -/
def execPanelSwap (m : Nat) (v : Word) (s : State) : Out := s.wordCmd m rPANEL_SWAP v

/-- PANEL_EN (spec/18_local_io_panel.md R553). -/
def execPanelEn (m : Nat) (v : Word) (s : State) : Out := s.wordCmd m rPANEL_CTRL v

/-- MGT_RESTART_CMD (spec/19_management.md R555). -/
def execMgtRestartCmd (m : Nat) (v : Word) (s : State) : Out := s.fieldCmd m fMGT_CTRL_RESTART 1 v

/-- A write of MGT_FW_CMD with GO and the operation `op` (spec/19_management.md R560, R561). -/
def State.fwCmd (s : State) (m op : Nat) (v : Word) : Out :=
  s.fieldCmd m fMGT_FW_CMD_GO 1 (BitVec.ofNat 32 (setBits v.toNat 30 28 op))

/-- MGT_FW_WRITE (spec/19_management.md R560). -/
def execMgtFwWrite (m : Nat) (v : Word) (s : State) : Out := s.fwCmd m 0 v

/-- MGT_FW_TRIAL (spec/19_management.md R561). -/
def execMgtFwTrial (m : Nat) (v : Word) (s : State) : Out := s.fwCmd m 1 v

/-- MGT_FW_CONFIRM (R561). -/
def execMgtFwConfirm (m : Nat) (v : Word) (s : State) : Out := s.fwCmd m 2 v

/-- MGT_FW_CANCEL (R561). -/
def execMgtFwCancel (m : Nat) (v : Word) (s : State) : Out := s.fwCmd m 3 v

/-- MGT_SET_SAVE (spec/19_management.md R566). -/
def execMgtSetSave (m : Nat) (v : Word) (s : State) : Out := s.wordCmd m rMGT_SET_SAVE v

/-- MGT_CB_FREEZE (spec/19_management.md R580). -/
def execMgtCbFreeze (m : Nat) (v : Word) (s : State) : Out := s.fieldCmd m fMGT_CB_CTRL_FREEZE 1 v

/-- MGT_CB_UNFREEZE (R580). -/
def execMgtCbUnfreeze (m : Nat) (v : Word) (s : State) : Out := s.fieldCmd m fMGT_CB_CTRL_FREEZE 0 v

/-- MGT_CB_FF_CLEAR (R578). -/
def execMgtCbFfClear (m : Nat) (v : Word) (s : State) : Out := s.fieldCmd m fMGT_CB_CTRL_FF_CLEAR 1 v

/-- MGT_CB_IDX (spec/19_management.md R581). -/
def execMgtCbIdx (m : Nat) (v : Word) (s : State) : Out := s.wordCmd m rMGT_CB_IDX v

/-- RST_CTRL_RESET (spec/20_reset_watchdog_cask.md R585). -/
def execRstCtrlReset (m : Nat) (v : Word) (s : State) : Out := s.fieldCmd m fRST_CTRL_RESET 1 v

/-- RST_CTRL_CLR_FAILS (spec/20_reset_watchdog_cask.md R593). -/
def execRstCtrlClrFails (m : Nat) (v : Word) (s : State) : Out := s.fieldCmd m fRST_CTRL_CLR_FAILS 1 v

/-- CASK_COMMIT (spec/20_reset_watchdog_cask.md R606). -/
def execCaskCommit (m : Nat) (v : Word) (s : State) : Out := s.fieldCmd m fCASK_CTRL_COMMIT 1 v

/-- CASK_DISCARD (R606). -/
def execCaskDiscard (m : Nat) (v : Word) (s : State) : Out := s.fieldCmd m fCASK_CTRL_DISCARD 1 v

/-- CASK_WIN_WRITE (R606). -/
def execCaskWinWrite (m : Nat) (j : Fin 1024) (v : Word) (s : State) : Out := s.wordCmd m (rCASK_WIN j.val) v

/-- CASK_PW_HI (spec/20_reset_watchdog_cask.md R610). -/
def execCaskPwHi (m : Nat) (v : Word) (s : State) : Out := s.wordCmd m rCASK_PW_HI v

/-- CASK_LOCK (R610). -/
def execCaskLock (m : Nat) (v : Word) (s : State) : Out := s.wordCmd m rCASK_LOCK v

/-- CASK_OPT_COMMIT (spec/20_reset_watchdog_cask.md R599). -/
def execCaskOptCommit (m : Nat) (v : Word) (s : State) : Out := s.fieldCmd m fCASK_OPT_CMD_COMMIT 1 v

/-- CASK_OPT_RELOAD (R599). -/
def execCaskOptReload (m : Nat) (v : Word) (s : State) : Out := s.fieldCmd m fCASK_OPT_CMD_RELOAD 1 v

/-- A request for module mode `q` (spec/03_partitions_fabric.md R79, R87, spec/20_reset_watchdog_cask.md R585). -/
def State.modeCmd (s : State) (m q : Nat) : Out := s.fieldCmd m fSYS_MODULE_MODE_REQ q 0

/-- SYS_MODE_REQ_RUN (R79). -/
def execSysModeReqRun (m : Nat) (s : State) : Out := s.modeCmd m 0

/-- SYS_MODE_REQ_STOP (R87). -/
def execSysModeReqStop (m : Nat) (s : State) : Out := s.modeCmd m 1

/-- SYS_MODE_REQ_RECOVERY (R585). -/
def execSysModeReqRecovery (m : Nat) (s : State) : Out := s.modeCmd m 2

/-- A request for a partition's mode `q` (R86). -/
def State.partCmd (s : State) (m n q : Nat) : Out := s.fieldCmd m (fPART_CTRL_REQ n) q 0

/-- PART_REQ_RUN (R86). -/
def execPartReqRun (m : Nat) (n : Fin 256) (s : State) : Out := s.partCmd m n.val 0

/-- PART_REQ_STOP (R86). -/
def execPartReqStop (m : Nat) (n : Fin 256) (s : State) : Out := s.partCmd m n.val 1

/-- PART_REQ_HOLD (R86). -/
def execPartReqHold (m : Nat) (n : Fin 256) (s : State) : Out := s.partCmd m n.val 2

/-- GRANT_TABLE_WRITE (spec/03_partitions_fabric.md R104, R106): a write of window `w` of partition `n`, its control word or its base. -/
def execGrantTableWrite (m : Nat) (n : Fin 256) (w : Fin 4) (ctrl : Bool) (v : Word) (s : State) : Out :=
  s.wordCmd m (if ctrl then rPART_WIN_CTRL n.val w.val else rPART_WIN_BASE n.val w.val) v

/-- PRESS_CMN_CLR (R197): the exception counts of the press pairs or of the scalar pairs. -/
def execPressCmnClr (m : Nat) (scalar : Bool) (v : Word) (s : State) : Out :=
  s.fieldCmd m (if scalar then fSCALAR_CMN_CLR_CLR else fPRESS_CMN_CLR_CLR) 1 v

/-- CAN_RX_READ_WORD0 (spec/17_service_bus.md R526). -/
def execCanRxReadWord0 (m : Nat) (c : Fin 4) (s : State) : Out := s.readCmd m (rCAN_RX c.val 0) 4

/-- CAN_RX_READ_WORD19 (R526). -/
def execCanRxReadWord19 (m : Nat) (c : Fin 4) (s : State) : Out := s.readCmd m (rCAN_RX c.val 19) 4

end Sys2Proof.Machine
end

