-- ==== Sys2Proof/Machine/Dispatch.lean ====
section
/-! DEFINITION. What each command does: one arm per constructor of Instr. -/

namespace Sys2Proof.Machine

/-- The effect of one command on everything but the queue. -/
def exec (i : Instr) (s : State) : Host.Outcome State Fault Refusal :=
  match i with
  | .cycleBoundary => Sys2Proof.Machine.execCycleBoundary s
  | .lioMapOutDone r => Sys2Proof.Machine.execLioMapOutDone r s
  | .harvestFrame p h pay => Sys2Proof.Machine.execHarvestFrame p h pay s
  | .rowRipe r => Sys2Proof.Machine.execRowRipe r s
  | .tasteEstimate ch => Sys2Proof.Machine.execTasteEstimate ch s
  | .latestRipe r => Sys2Proof.Machine.execLatestRipe r s
  | .stepPass r => Sys2Proof.Machine.execStepPass r s
  | .placementDecision => Sys2Proof.Machine.execPlacementDecision s
  | .frameLoadDone k f => Sys2Proof.Machine.execFrameLoadDone k f s
  | .executionStart k => Sys2Proof.Machine.execExecutionStart k s
  | .scalarStart j => Sys2Proof.Machine.execScalarStart j s
  | .writeBack k => Sys2Proof.Machine.execWriteBack k s
  | .pourCutoff r => Sys2Proof.Machine.execPourCutoff r s
  | .pourWindow p k => Sys2Proof.Machine.execPourWindow p k s
  | .controlPeriod p => Sys2Proof.Machine.execControlPeriod p s
  | .helloResp p h pay => Sys2Proof.Machine.execHelloResp p h pay s
  | .delayResp p h pay t4 => Sys2Proof.Machine.execDelayResp p h pay t4 s
  | .delayReqLineEnd p h pay => Sys2Proof.Machine.execDelayReqLineEnd p h pay s
  | .mgmtResp p h pay => Sys2Proof.Machine.execMgmtResp p h pay s
  | .discoveryRoundMiss p k => Sys2Proof.Machine.execDiscoveryRoundMiss p k s
  | .linkUp p => Sys2Proof.Machine.execLinkUp p s
  | .linkLoss p corr uncorr => Sys2Proof.Machine.execLinkLoss p corr uncorr s
  | .trainingTimeout p => Sys2Proof.Machine.execTrainingTimeout p s
  | .portResetEnd p => Sys2Proof.Machine.execPortResetEnd p s
  | .trlPortHello m p v => Sys2Proof.Machine.execTrlPortHello m p v s
  | .trlPortDelay m p v => Sys2Proof.Machine.execTrlPortDelay m p v s
  | .trlPortRetrain m p v => Sys2Proof.Machine.execTrlPortRetrain m p v s
  | .trlPortReset m p v => Sys2Proof.Machine.execTrlPortReset m p v s
  | .trlSchedCommit m v => Sys2Proof.Machine.execTrlSchedCommit m v s
  | .trlMgmtTxGo m p v => Sys2Proof.Machine.execTrlMgmtTxGo m p v s
  | .trlMgmtRxRelease m p v => Sys2Proof.Machine.execTrlMgmtRxRelease m p v s
  | .syncMissed p => Sys2Proof.Machine.execSyncMissed p s
  | .splitLeave p => Sys2Proof.Machine.execSplitLeave p s
  | .reflexDecode cut => Sys2Proof.Machine.execReflexDecode cut s
  | .twinMismatch k m => Sys2Proof.Machine.execTwinMismatch k m s
  | .scalarMismatch j m => Sys2Proof.Machine.execScalarMismatch j m s
  | .pressTwinProof m k v => Sys2Proof.Machine.execPressTwinProof m k v s
  | .proofDone k pats gave => Sys2Proof.Machine.execProofDone k pats gave s
  | .pressTwinFence m k v => Sys2Proof.Machine.execPressTwinFence m k v s
  | .jLd c r o => Sys2Proof.Machine.execJLd c r o s
  | .jSt c r o => Sys2Proof.Machine.execJSt c r o s
  | .jLea c r o => Sys2Proof.Machine.execJLea c r o s
  | .jLdiI8 c r n => Sys2Proof.Machine.execJLdiI8 c r n s
  | .jLdiI16 c r n => Sys2Proof.Machine.execJLdiI16 c r n s
  | .jTfr c src dst => Sys2Proof.Machine.execJTfr c src dst s
  | .jMulu c => Sys2Proof.Machine.execJMulu c s
  | .jMuls c => Sys2Proof.Machine.execJMuls c s
  | .jAdd c r src => Sys2Proof.Machine.execJAdd c r src s
  | .jAdc c r src => Sys2Proof.Machine.execJAdc c r src s
  | .jSub c r src => Sys2Proof.Machine.execJSub c r src s
  | .jSbc c r src => Sys2Proof.Machine.execJSbc c r src s
  | .jAnd c r src => Sys2Proof.Machine.execJAnd c r src s
  | .jOr c r src => Sys2Proof.Machine.execJOr c r src s
  | .jXor c r src => Sys2Proof.Machine.execJXor c r src s
  | .jCmp c r src => Sys2Proof.Machine.execJCmp c r src s
  | .jCpc c r src => Sys2Proof.Machine.execJCpc c r src s
  | .jBit c r o => Sys2Proof.Machine.execJBit c r o s
  | .jInc c r => Sys2Proof.Machine.execJInc c r s
  | .jDec c r => Sys2Proof.Machine.execJDec c r s
  | .jNeg c r => Sys2Proof.Machine.execJNeg c r s
  | .jNot c r => Sys2Proof.Machine.execJNot c r s
  | .jShl c r => Sys2Proof.Machine.execJShl c r s
  | .jShr c r => Sys2Proof.Machine.execJShr c r s
  | .jAsr c r => Sys2Proof.Machine.execJAsr c r s
  | .jRol c r => Sys2Proof.Machine.execJRol c r s
  | .jRor c r => Sys2Proof.Machine.execJRor c r s
  | .jClr c r => Sys2Proof.Machine.execJClr c r s
  | .jTst c r => Sys2Proof.Machine.execJTst c r s
  | .jAddw c r src => Sys2Proof.Machine.execJAddw c r src s
  | .jSubw c r src => Sys2Proof.Machine.execJSubw c r src s
  | .jCmpw c r src => Sys2Proof.Machine.execJCmpw c r src s
  | .jCpcw c r src => Sys2Proof.Machine.execJCpcw c r src s
  | .jAdcw c r n => Sys2Proof.Machine.execJAdcw c r n s
  | .jSbcw c r n => Sys2Proof.Machine.execJSbcw c r n s
  | .jAddws c r => Sys2Proof.Machine.execJAddws c r s
  | .jLcc c cc => Sys2Proof.Machine.execJLcc c cc s
  | .jLccAnd c cc => Sys2Proof.Machine.execJLccAnd c cc s
  | .jLccOr c cc => Sys2Proof.Machine.execJLccOr c cc s
  | .jLdb c o => Sys2Proof.Machine.execJLdb c o s
  | .jLdbn c o => Sys2Proof.Machine.execJLdbn c o s
  | .jAndb c o => Sys2Proof.Machine.execJAndb c o s
  | .jAndbn c o => Sys2Proof.Machine.execJAndbn c o s
  | .jOrb c o => Sys2Proof.Machine.execJOrb c o s
  | .jOrbn c o => Sys2Proof.Machine.execJOrbn c o s
  | .jXorb c o => Sys2Proof.Machine.execJXorb c o s
  | .jXorbn c o => Sys2Proof.Machine.execJXorbn c o s
  | .jOut c o => Sys2Proof.Machine.execJOut c o s
  | .jOutn c o => Sys2Proof.Machine.execJOutn c o s
  | .jSetb c o => Sys2Proof.Machine.execJSetb c o s
  | .jRstb c o => Sys2Proof.Machine.execJRstb c o s
  | .jTglb c o => Sys2Proof.Machine.execJTglb c o s
  | .jNotl c => Sys2Proof.Machine.execJNotl c s
  | .jSetl c => Sys2Proof.Machine.execJSetl c s
  | .jClrl c => Sys2Proof.Machine.execJClrl c s
  | .jBr c cc d => Sys2Proof.Machine.execJBr c cc d s
  | .jBrl c cc t => Sys2Proof.Machine.execJBrl c cc t s
  | .jBany c d => Sys2Proof.Machine.execJBany c d s
  | .jBall c d => Sys2Proof.Machine.execJBall c d s
  | .jBnone c d => Sys2Proof.Machine.execJBnone c d s
  | .jBanyl c t => Sys2Proof.Machine.execJBanyl c t s
  | .jBalll c t => Sys2Proof.Machine.execJBalll c t s
  | .jBnonel c t => Sys2Proof.Machine.execJBnonel c t s
  | .jJmps c d => Sys2Proof.Machine.execJJmps c d s
  | .jJmp c t => Sys2Proof.Machine.execJJmp c t s
  | .jJmpx c r => Sys2Proof.Machine.execJJmpx c r s
  | .jCall c t => Sys2Proof.Machine.execJCall c t s
  | .jCallx c r => Sys2Proof.Machine.execJCallx c r s
  | .jRet c => Sys2Proof.Machine.execJRet c s
  | .jRte c => Sys2Proof.Machine.execJRte c s
  | .jPush c r => Sys2Proof.Machine.execJPush c r s
  | .jPop c r => Sys2Proof.Machine.execJPop c r s
  | .jTon c base o => Sys2Proof.Machine.execJTon c base o s
  | .jTof c base o => Sys2Proof.Machine.execJTof c base o s
  | .jTp c base o => Sys2Proof.Machine.execJTp c base o s
  | .jCtu c o => Sys2Proof.Machine.execJCtu c o s
  | .jCtd c o => Sys2Proof.Machine.execJCtd c o s
  | .jCres c o => Sys2Proof.Machine.execJCres c o s
  | .jCld c o => Sys2Proof.Machine.execJCld c o s
  | .jRedge c o => Sys2Proof.Machine.execJRedge c o s
  | .jFedge c o => Sys2Proof.Machine.execJFedge c o s
  | .jNop c => Sys2Proof.Machine.execJNop c s
  | .jEnd c => Sys2Proof.Machine.execJEnd c s
  | .jFence c => Sys2Proof.Machine.execJFence c s
  | .jBrk c => Sys2Proof.Machine.execJBrk c s
  | .jLmall c => Sys2Proof.Machine.execJLmall c s
  | .jLmand c => Sys2Proof.Machine.execJLmand c s
  | .jLmandn c => Sys2Proof.Machine.execJLmandn c s
  | .jLmor c => Sys2Proof.Machine.execJLmor c s
  | .jLmsave c o => Sys2Proof.Machine.execJLmsave c o s
  | .jLmload c o => Sys2Proof.Machine.execJLmload c o s
  | .jSev c e => Sys2Proof.Machine.execJSev c e s
  | .jWfe c e => Sys2Proof.Machine.execJWfe c e s
  | .jWuntil c e => Sys2Proof.Machine.execJWuntil c e s
  | .jGoSend c ch => Sys2Proof.Machine.execJGoSend c ch s
  | .jGoDone c ch => Sys2Proof.Machine.execJGoDone c ch s
  | .jMread c ch => Sys2Proof.Machine.execJMread c ch s
  | .jTrig c t => Sys2Proof.Machine.execJTrig c t s
  | .undefinedOpcode c w => Sys2Proof.Machine.execUndefinedOpcode c w s
  | .instructionFetchFault c ecc => Sys2Proof.Machine.execInstructionFetchFault c ecc s
  | .execTimeout k => Sys2Proof.Machine.execExecTimeout k s
  | .busPostedWrite c addr lanes => Sys2Proof.Machine.execBusPostedWrite c addr lanes s
  | .fabricRequestComplete d r => Sys2Proof.Machine.execFabricRequestComplete d r s
  | .fabricAgePromotion q => Sys2Proof.Machine.execFabricAgePromotion q s
  | .mailboxRoundTripDone c r => Sys2Proof.Machine.execMailboxRoundTripDone c r s
  | .scalarMigration j => Sys2Proof.Machine.execScalarMigration j s
  | .scalarCommandHandover j => Sys2Proof.Machine.execScalarCommandHandover j s
  | .cmdNone ch src arg8 arg16 expect => Sys2Proof.Machine.execCmdNone ch src arg8 arg16 expect s
  | .cmdStart ch src arg8 arg16 expect => Sys2Proof.Machine.execCmdStart ch src arg8 arg16 expect s
  | .cmdGoto ch src arg8 arg16 expect => Sys2Proof.Machine.execCmdGoto ch src arg8 arg16 expect s
  | .cmdNext ch src arg8 arg16 expect => Sys2Proof.Machine.execCmdNext ch src arg8 arg16 expect s
  | .cmdAlt ch src arg8 arg16 expect => Sys2Proof.Machine.execCmdAlt ch src arg8 arg16 expect s
  | .cmdEnd ch src arg8 arg16 expect => Sys2Proof.Machine.execCmdEnd ch src arg8 arg16 expect s
  | .cmdFault ch src arg8 arg16 expect => Sys2Proof.Machine.execCmdFault ch src arg8 arg16 expect s
  | .cmdHoldStep ch src arg8 arg16 expect => Sys2Proof.Machine.execCmdHoldStep ch src arg8 arg16 expect s
  | .cmdRelease ch src arg8 arg16 expect => Sys2Proof.Machine.execCmdRelease ch src arg8 arg16 expect s
  | .cmdSetLoop ch src arg8 arg16 expect => Sys2Proof.Machine.execCmdSetLoop ch src arg8 arg16 expect s
  | .cmdZero ch src arg8 arg16 expect => Sys2Proof.Machine.execCmdZero ch src arg8 arg16 expect s
  | .eventRaise src => Sys2Proof.Machine.execEventRaise src s
  | .contextWake c => Sys2Proof.Machine.execContextWake c s
  | .wuntilDeadline c => Sys2Proof.Machine.execWuntilDeadline c s
  | .evtSwRaise m v => Sys2Proof.Machine.execEvtSwRaise m v s
  | .alarmLtMatch a => Sys2Proof.Machine.execAlarmLtMatch a s
  | .alarmSampleDone a r => Sys2Proof.Machine.execAlarmSampleDone a r s
  | .alarmTargetWrite m a v => Sys2Proof.Machine.execAlarmTargetWrite m a v s
  | .grantTableWrite m n w ctrl v => Sys2Proof.Machine.execGrantTableWrite m n w ctrl v s
  | .lowWordRead m off => Sys2Proof.Machine.execLowWordRead m off s
  | .highWordWrite m off v => Sys2Proof.Machine.execHighWordWrite m off v s
  | .registerWrite m off bytes => Sys2Proof.Machine.execRegisterWrite m off bytes s
  | .cfgRejectClear m v => Sys2Proof.Machine.execCfgRejectClear m v s
  | .sysModeReqRun m => Sys2Proof.Machine.execSysModeReqRun m s
  | .sysModeReqStop m => Sys2Proof.Machine.execSysModeReqStop m s
  | .sysModeReqRecovery m => Sys2Proof.Machine.execSysModeReqRecovery m s
  | .partReqRun m n => Sys2Proof.Machine.execPartReqRun m n s
  | .partReqStop m n => Sys2Proof.Machine.execPartReqStop m n s
  | .partReqHold m n => Sys2Proof.Machine.execPartReqHold m n s
  | .storeWindowWrite m off bytes => Sys2Proof.Machine.execStoreWindowWrite m off bytes s
  | .storeWindowRead m off n => Sys2Proof.Machine.execStoreWindowRead m off n s
  | .imageWindowWrite m off bytes => Sys2Proof.Machine.execImageWindowWrite m off bytes s
  | .schedCntClr m v => Sys2Proof.Machine.execSchedCntClr m v s
  | .schedPClr m n v => Sys2Proof.Machine.execSchedPClr m n v s
  | .fabCntClr m v => Sys2Proof.Machine.execFabCntClr m v s
  | .pressCntClr m c v => Sys2Proof.Machine.execPressCntClr m c v s
  | .pressCmnClr m scalar v => Sys2Proof.Machine.execPressCmnClr m scalar v s
  | .evtCntClr m v => Sys2Proof.Machine.execEvtCntClr m v s
  | .stepCntClr m v => Sys2Proof.Machine.execStepCntClr m v s
  | .convCntClr m v => Sys2Proof.Machine.execConvCntClr m v s
  | .ledgCntClr m v => Sys2Proof.Machine.execLedgCntClr m v s
  | .trlCntClr m p v => Sys2Proof.Machine.execTrlCntClr m p v s
  | .trlRfxClr m v => Sys2Proof.Machine.execTrlRfxClr m v s
  | .rackCntClr m v => Sys2Proof.Machine.execRackCntClr m v s
  | .timeCntClr m v => Sys2Proof.Machine.execTimeCntClr m v s
  | .convEpochReq m v => Sys2Proof.Machine.execConvEpochReq m v s
  | .stageCopyDone => Sys2Proof.Machine.execStageCopyDone s
  | .convPersistSave m v => Sys2Proof.Machine.execConvPersistSave m v s
  | .periodicCalSave => Sys2Proof.Machine.execPeriodicCalSave s
  | .calSaveDone rows => Sys2Proof.Machine.execCalSaveDone rows s
  | .calRestoreDone => Sys2Proof.Machine.execCalRestoreDone s
  | .partGrfAlloc m n v => Sys2Proof.Machine.execPartGrfAlloc m n v s
  | .grfArm m n v => Sys2Proof.Machine.execGrfArm m n v s
  | .graftCheckDone n => Sys2Proof.Machine.execGraftCheckDone n s
  | .graftRackConfirm n => Sys2Proof.Machine.execGraftRackConfirm n s
  | .graftRackTimeout n => Sys2Proof.Machine.execGraftRackTimeout n s
  | .grfAbort m n v => Sys2Proof.Machine.execGrfAbort m n v s
  | .grfRollback m n v => Sys2Proof.Machine.execGrfRollback m n v s
  | .grfRelease m n v => Sys2Proof.Machine.execGrfRelease m n v s
  | .grfGroupGo m v => Sys2Proof.Machine.execGrfGroupGo m v s
  | .rollbackWindowEnd n => Sys2Proof.Machine.execRollbackWindowEnd n s
  | .graftSweepDone n => Sys2Proof.Machine.execGraftSweepDone n s
  | .rackHello h m => Sys2Proof.Machine.execRackHello h m s
  | .rackBeat h m => Sys2Proof.Machine.execRackBeat h m s
  | .rackConfig h m addr bytes cycle => Sys2Proof.Machine.execRackConfig h m addr bytes cycle s
  | .rackCode h m => Sys2Proof.Machine.execRackCode h m s
  | .rackStepev h l => Sys2Proof.Machine.execRackStepev h l s
  | .rackCoef h l => Sys2Proof.Machine.execRackCoef h l s
  | .rackSwap h => Sys2Proof.Machine.execRackSwap h s
  | .rackSweep h m => Sys2Proof.Machine.execRackSweep h m s
  | .rackRelay h m => Sys2Proof.Machine.execRackRelay h m s
  | .rackResend => Sys2Proof.Machine.execRackResend s
  | .rackLaneUp l up => Sys2Proof.Machine.execRackLaneUp l up s
  | .pourObserved p h pay => Sys2Proof.Machine.execPourObserved p h pay s
  | .fillDone => Sys2Proof.Machine.execFillDone s
  | .sweepEnd us => Sys2Proof.Machine.execSweepEnd us s
  | .beatMissed => Sys2Proof.Machine.execBeatMissed s
  | .peerActiveFall => Sys2Proof.Machine.execPeerActiveFall s
  | .peerActiveRise => Sys2Proof.Machine.execPeerActiveRise s
  | .settleEnd => Sys2Proof.Machine.execSettleEnd s
  | .gateOpen => Sys2Proof.Machine.execGateOpen s
  | .roleDecision slot => Sys2Proof.Machine.execRoleDecision slot s
  | .demotion gen => Sys2Proof.Machine.execDemotion gen s
  | .swapYield => Sys2Proof.Machine.execSwapYield s
  | .rackCmdSwap m v => Sys2Proof.Machine.execRackCmdSwap m v s
  | .rackCmdResync m v => Sys2Proof.Machine.execRackCmdResync m v s
  | .rackGenSeed m v => Sys2Proof.Machine.execRackGenSeed m v s
  | .poisonedTlp m write => Sys2Proof.Machine.execPoisonedTlp m write s
  | .vfFlr v => Sys2Proof.Machine.execVfFlr v s
  | .pfFlr => Sys2Proof.Machine.execPfFlr s
  | .perstN high => Sys2Proof.Machine.execPerstN high s
  | .ladleResultWrite => Sys2Proof.Machine.execLadleResultWrite s
  | .rqTimer q => Sys2Proof.Machine.execRqTimer q s
  | .hostRqEnable m q v => Sys2Proof.Machine.execHostRqEnable m q v s
  | .hostRqRidx m q v => Sys2Proof.Machine.execHostRqRidx m q v s
  | .hostSnapGo m k v => Sys2Proof.Machine.execHostSnapGo m k v s
  | .hostSnapRidx m k v => Sys2Proof.Machine.execHostSnapRidx m k v s
  | .snapshotRowCapture k loaded valid => Sys2Proof.Machine.execSnapshotRowCapture k loaded valid s
  | .snapshotComplete k => Sys2Proof.Machine.execSnapshotComplete k s
  | .hostPweClr m v => Sys2Proof.Machine.execHostPweClr m v s
  | .hostCntClr m v => Sys2Proof.Machine.execHostCntClr m v s
  | .mbxCmdGo m c v => Sys2Proof.Machine.execMbxCmdGo m c v s
  | .mbxCmdTake m c v => Sys2Proof.Machine.execMbxCmdTake m c v s
  | .mbxCmdDone m c v => Sys2Proof.Machine.execMbxCmdDone m c v s
  | .mbxCmdWithdraw m c v => Sys2Proof.Machine.execMbxCmdWithdraw m c v s
  | .mbxMsgWrite m c j v => Sys2Proof.Machine.execMbxMsgWrite m c j v s
  | .ident e => Sys2Proof.Machine.execIdent e s
  | .echo e => Sys2Proof.Machine.execEcho e s
  | .read32 e => Sys2Proof.Machine.execRead32 e s
  | .write32 e => Sys2Proof.Machine.execWrite32 e s
  | .readBlock e => Sys2Proof.Machine.execReadBlock e s
  | .writeBlock e => Sys2Proof.Machine.execWriteBlock e s
  | .moduleMode e => Sys2Proof.Machine.execModuleMode e s
  | .partMode e => Sys2Proof.Machine.execPartMode e s
  | .cellarFreeze e => Sys2Proof.Machine.execCellarFreeze e s
  | .cellarUnfreeze e => Sys2Proof.Machine.execCellarUnfreeze e s
  | .cellarRead e => Sys2Proof.Machine.execCellarRead e s
  | .cellarStatus e => Sys2Proof.Machine.execCellarStatus e s
  | .graftLoad e => Sys2Proof.Machine.execGraftLoad e s
  | .graftAlloc e => Sys2Proof.Machine.execGraftAlloc e s
  | .graftWrite e => Sys2Proof.Machine.execGraftWrite e s
  | .graftArm e => Sys2Proof.Machine.execGraftArm e s
  | .graftGo e => Sys2Proof.Machine.execGraftGo e s
  | .graftRollback e => Sys2Proof.Machine.execGraftRollback e s
  | .graftRelease e => Sys2Proof.Machine.execGraftRelease e s
  | .graftAbort e => Sys2Proof.Machine.execGraftAbort e s
  | .graftStatus e => Sys2Proof.Machine.execGraftStatus e s
  | .mbxSend e => Sys2Proof.Machine.execMbxSend e s
  | .mbxTake e => Sys2Proof.Machine.execMbxTake e s
  | .mbxDone e => Sys2Proof.Machine.execMbxDone e s
  | .mbxWithdraw e => Sys2Proof.Machine.execMbxWithdraw e s
  | .mbxRead e => Sys2Proof.Machine.execMbxRead e s
  | .timeGet e => Sys2Proof.Machine.execTimeGet e s
  | .timeSetWall e => Sys2Proof.Machine.execTimeSetWall e s
  | .timeAcceptBack e => Sys2Proof.Machine.execTimeAcceptBack e s
  | .caskRead e => Sys2Proof.Machine.execCaskRead e s
  | .caskWrite e => Sys2Proof.Machine.execCaskWrite e s
  | .fwWrite e => Sys2Proof.Machine.execFwWrite e s
  | .fwSelect e => Sys2Proof.Machine.execFwSelect e s
  | .restart e => Sys2Proof.Machine.execRestart e s
  | .arpRequest ip target => Sys2Proof.Machine.execArpRequest ip target s
  | .icmpEcho ip target data => Sys2Proof.Machine.execIcmpEcho ip target data s
  | .ptpSync h origin => Sys2Proof.Machine.execPtpSync h origin s
  | .ptpFollowUp h origin => Sys2Proof.Machine.execPtpFollowUp h origin s
  | .ptpAnnounce h a => Sys2Proof.Machine.execPtpAnnounce h a s
  | .announceReceiptTimeout => Sys2Proof.Machine.execAnnounceReceiptTimeout s
  | .ptpDelayResp h t4 => Sys2Proof.Machine.execPtpDelayResp h t4 s
  | .ptpDelayReqSend => Sys2Proof.Machine.execPtpDelayReqSend s
  | .ptpPdelayReq h => Sys2Proof.Machine.execPtpPdelayReq h s
  | .ptpPdelayResp h follow twoStep tm => Sys2Proof.Machine.execPtpPdelayResp h follow twoStep tm s
  | .wallStep => Sys2Proof.Machine.execWallStep s
  | .holdEnd => Sys2Proof.Machine.execHoldEnd s
  | .timeSetGo m v => Sys2Proof.Machine.execTimeSetGo m v s
  | .timeSetAcceptBack m v => Sys2Proof.Machine.execTimeSetAcceptBack m v s
  | .rtcSecondTick => Sys2Proof.Machine.execRtcSecondTick s
  | .rtcSync => Sys2Proof.Machine.execRtcSync s
  | .vbatSwitch vbat lost => Sys2Proof.Machine.execVbatSwitch vbat lost s
  | .vbatMeasure mv => Sys2Proof.Machine.execVbatMeasure mv s
  | .canModeApply c => Sys2Proof.Machine.execCanModeApply c s
  | .canIntegrated c => Sys2Proof.Machine.execCanIntegrated c s
  | .canTxReq m c v => Sys2Proof.Machine.execCanTxReq m c v s
  | .canTxAbort m c v => Sys2Proof.Machine.execCanTxAbort m c v s
  | .canArbitrationStart c => Sys2Proof.Machine.execCanArbitrationStart c s
  | .canFrameSent c delay sof => Sys2Proof.Machine.execCanFrameSent c delay sof s
  | .canArbitrationLost c => Sys2Proof.Machine.execCanArbitrationLost c s
  | .canFrameReceived c f => Sys2Proof.Machine.execCanFrameReceived c f s
  | .canBusError c lec dp why => Sys2Proof.Machine.execCanBusError c lec dp why s
  | .canRecover m c v => Sys2Proof.Machine.execCanRecover m c v s
  | .canRecoveryDone c => Sys2Proof.Machine.execCanRecoveryDone c s
  | .canRateDwellEnd c => Sys2Proof.Machine.execCanRateDwellEnd c s
  | .canRxReadWord0 m c => Sys2Proof.Machine.execCanRxReadWord0 m c s
  | .canRxReadWord19 m c => Sys2Proof.Machine.execCanRxReadWord19 m c s
  | .canCntClr m c v => Sys2Proof.Machine.execCanCntClr m c v s
  | .lioDownFrameSend => Sys2Proof.Machine.execLioDownFrameSend s
  | .lioUpFrameReceive l near => Sys2Proof.Machine.execLioUpFrameReceive l near s
  | .lioDownFrameApply l => Sys2Proof.Machine.execLioDownFrameApply l s
  | .lioUpFrameBuild sense supply => Sys2Proof.Machine.execLioUpFrameBuild sense supply s
  | .lioInputChange n => Sys2Proof.Machine.execLioInputChange n s
  | .lioFieldTimeout => Sys2Proof.Machine.execLioFieldTimeout s
  | .lioLinkTimeout => Sys2Proof.Machine.execLioLinkTimeout s
  | .lioArm m v => Sys2Proof.Machine.execLioArm m v s
  | .lioOvercurrent n => Sys2Proof.Machine.execLioOvercurrent n s
  | .lioRetry n => Sys2Proof.Machine.execLioRetry n s
  | .lioRetryOk n => Sys2Proof.Machine.execLioRetryOk n s
  | .lioCntClr m v => Sys2Proof.Machine.execLioCntClr m v s
  | .panelSwap m v => Sys2Proof.Machine.execPanelSwap m v s
  | .panelCrcDone => Sys2Proof.Machine.execPanelCrcDone s
  | .panelFrameStart dark upset => Sys2Proof.Machine.execPanelFrameStart dark upset s
  | .panelIdleTimeout => Sys2Proof.Machine.execPanelIdleTimeout s
  | .panelEn m v => Sys2Proof.Machine.execPanelEn m v s
  | .panelRampDone => Sys2Proof.Machine.execPanelRampDone s
  | .panelSupplyFault overtemp => Sys2Proof.Machine.execPanelSupplyFault overtemp s
  | .mgtRestartCmd m v => Sys2Proof.Machine.execMgtRestartCmd m v s
  | .mgtWatchdogExpiry => Sys2Proof.Machine.execMgtWatchdogExpiry s
  | .mgtFault => Sys2Proof.Machine.execMgtFault s
  | .mgtRestartEnd => Sys2Proof.Machine.execMgtRestartEnd s
  | .startSequence f => Sys2Proof.Machine.execStartSequence f s
  | .mainDieRelease => Sys2Proof.Machine.execMainDieRelease s
  | .startSetApply => Sys2Proof.Machine.execStartSetApply s
  | .mgtFwWrite m v => Sys2Proof.Machine.execMgtFwWrite m v s
  | .mgtFwTrial m v => Sys2Proof.Machine.execMgtFwTrial m v s
  | .mgtFwConfirm m v => Sys2Proof.Machine.execMgtFwConfirm m v s
  | .mgtFwCancel m v => Sys2Proof.Machine.execMgtFwCancel m v s
  | .fwOpComplete ok => Sys2Proof.Machine.execFwOpComplete ok s
  | .flashScrub => Sys2Proof.Machine.execFlashScrub s
  | .scrubEnd => Sys2Proof.Machine.execScrubEnd s
  | .mgtSetSave m v => Sys2Proof.Machine.execMgtSetSave m v s
  | .lifeSave => Sys2Proof.Machine.execLifeSave s
  | .sensorReading n v => Sys2Proof.Machine.execSensorReading n v s
  | .thermalTrip => Sys2Proof.Machine.execThermalTrip s
  | .noticePost => Sys2Proof.Machine.execNoticePost s
  | .cellarIntake => Sys2Proof.Machine.execCellarIntake s
  | .mgtCbFreeze m v => Sys2Proof.Machine.execMgtCbFreeze m v s
  | .mgtCbUnfreeze m v => Sys2Proof.Machine.execMgtCbUnfreeze m v s
  | .freezeMaxExpiry => Sys2Proof.Machine.execFreezeMaxExpiry s
  | .mgtCbFfClear m v => Sys2Proof.Machine.execMgtCbFfClear m v s
  | .mgtCbIdx m v => Sys2Proof.Machine.execMgtCbIdx m v s
  | .cellarCommit => Sys2Proof.Machine.execCellarCommit s
  | .powerOn => Sys2Proof.Machine.execPowerOn s
  | .aux3v3Loss => Sys2Proof.Machine.execAux3v3Loss s
  | .mainPowerLoss => Sys2Proof.Machine.execMainPowerLoss s
  | .resetNAssert => Sys2Proof.Machine.execResetNAssert s
  | .resetNRelease => Sys2Proof.Machine.execResetNRelease s
  | .pwrFailNAssert => Sys2Proof.Machine.execPwrFailNAssert s
  | .flushStopPhase => Sys2Proof.Machine.execFlushStopPhase s
  | .flushDone ok calRows => Sys2Proof.Machine.execFlushDone ok calRows s
  | .pwrFailNRelease => Sys2Proof.Machine.execPwrFailNRelease s
  | .clockLoss k => Sys2Proof.Machine.execClockLoss k s
  | .clockReturn k => Sys2Proof.Machine.execClockReturn k s
  | .wdtExpiry => Sys2Proof.Machine.execWdtExpiry s
  | .rstCtrlReset m v => Sys2Proof.Machine.execRstCtrlReset m v s
  | .rstCtrlClrFails m v => Sys2Proof.Machine.execRstCtrlClrFails m v s
  | .startOkExpiry => Sys2Proof.Machine.execStartOkExpiry s
  | .warmRestoreDone => Sys2Proof.Machine.execWarmRestoreDone s
  | .caskCommit m v => Sys2Proof.Machine.execCaskCommit m v s
  | .caskDiscard m v => Sys2Proof.Machine.execCaskDiscard m v s
  | .caskCommitDone ok => Sys2Proof.Machine.execCaskCommitDone ok s
  | .caskWinWrite m j v => Sys2Proof.Machine.execCaskWinWrite m j v s
  | .caskPwHi m v => Sys2Proof.Machine.execCaskPwHi m v s
  | .caskLock m v => Sys2Proof.Machine.execCaskLock m v s
  | .caskOptCommit m v => Sys2Proof.Machine.execCaskOptCommit m v s
  | .caskOptReload m v => Sys2Proof.Machine.execCaskOptReload m v s
  | .fieldFrameReject p why => Sys2Proof.Machine.execFieldFrameReject p why s
  | .farEndListen p h pay => Sys2Proof.Machine.execFarEndListen p h pay s
  | .splitBreakReport p => Sys2Proof.Machine.execSplitBreakReport p s
  | .rackFrameReject why => Sys2Proof.Machine.execRackFrameReject why s
  | .mainPowerGood => Sys2Proof.Machine.execMainPowerGood s
  | .fieldSupplyRise => Sys2Proof.Machine.execFieldSupplyRise s
  | .lioBoundaryTimeout => Sys2Proof.Machine.execLioBoundaryTimeout s
  | .engRestartDelay => Sys2Proof.Machine.execEngRestartDelay s
  | .illegalStateDetection unit => Sys2Proof.Machine.execIllegalStateDetection unit s
  | .msixVectorUnmask f w => Sys2Proof.Machine.execMsixVectorUnmask f w s
  | .engFrameDiscard d => Sys2Proof.Machine.execEngFrameDiscard d s

end Sys2Proof.Machine
end

