-- ==== Sys2Proof/Safety.lean ====
section
/-! DEFINITION. The terms in which claims about the module are stated: what an instruction or a command leaves alone, when an instruction's accesses are free of exceptions, and the flag rules as the spec words them. -/

namespace Sys2Proof.Safety

open Sys2Proof.Machine

/-- The command answers a next state, which stands to the state before as `p` says. -/
def Done (i : Instr) (s : State) (p : State → State → Prop) : Prop := ∃ t, exec i s = .next t ∧ p s t

/-- Every register but those at the offsets listed reads as before. -/
def RegsBut (l : List Nat) (s t : State) : Prop := ∀ o, o ∉ l → t.reg o = s.reg o

/-- Every other context stands. -/
def OtherCxs (c : Cx) (s t : State) : Prop := ∀ d, d ≠ c → t.cx d = s.cx d

/-- The two clock counters of a context's pair. -/
def clockRegs (c : Cx) : List Nat := [(fPAIR_CNT_CLK_CLOCKS (cxPage c)).off, (fPAIR_CNT_STALL_CLOCKS (cxPage c)).off]

/-- The registers that a corrected error may change (spec/01_architecture.md R40). -/
def corrRegs : List Nat :=
  [fSYS_INTEG_CORR_COUNT.off, fSYS_ERR_STAT_INTEG_CORR.off, fEVT_CNT_MERGE_COUNT.off, fEVT_STAT_MERGED.off,
   (fEVT_SRC_CNT_COUNT 682).off]

/-- Nothing changes but the context, its pair's clock counters, and the count of press clocks in the cycle. -/
def OnlyCtx (c : Cx) (s t : State) : Prop :=
  t = { s with ctxs := t.ctxs, regs := t.regs, busyAcc := t.busyAcc } ∧ OtherCxs c s t ∧ RegsBut (clockRegs c) s t

/-- Neither of the two code words at PC holds a single error. -/
def CodeClean (c : Cx) (s : State) : Prop :=
  s.eccAt ((s.cx c).wordBar (s.cx c).pc.toNat) ≠ 1 ∧ s.eccAt ((s.cx c).wordBar (((s.cx c).pc.toNat + 1) % 65536)) ≠ 1

/-- The instruction's words have been read: single errors among them are corrected and counted, and where there is none nothing changes
(spec/01_architecture.md R40). -/
def Fetches (c : Cx) (s u : State) : Prop :=
  u = { s with regs := u.regs, ecc := u.ecc, evLatch := u.evLatch } ∧ RegsBut corrRegs s u ∧ (CodeClean c s → u = s)

/-- The instruction is read, and then nothing changes but its context, the pair's clock counters, and the count of press clocks. -/
def OnlyCx (c : Cx) (s t : State) : Prop := ∃ u, Fetches c s u ∧ OnlyCtx c u t

/-- As `OnlyCx`, and reads may correct single errors of the table store, hold a tag, and take time that the model leaves free. -/
def OnlyRead (c : Cx) (s t : State) : Prop :=
  t = { s with ctxs := t.ctxs, regs := t.regs, busyAcc := t.busyAcc, free := t.free, ecc := t.ecc, evLatch := t.evLatch }
    ∧ OtherCxs c s t ∧ RegsBut (clockRegs c ++ corrRegs ++ [fFAB_TAGS_HWM.off]) s t

/-- Clocks of an instruction that acts in the lanes `l`: the issue clock alone where there is none (spec/05_judin_reference.md R169). -/
def baseClocks (l : List (Nat × Lane)) (n : Nat) : Nat := if l.isEmpty then 1 else n

/-- The context after an instruction of `len` words and `n` clocks that gives each enabled lane `f` of its registers. -/
def laneStep (x : Ctx) (len n : Nat) (f : Lane → Lane) : Ctx :=
  { x with lanes := x.lanes.mapIdx (fun i l => if x.enabled i then f l else l), pc := x.pc + BitVec.ofNat 16 len
           clkUsed := x.clkUsed + n }

/-- An instruction on registers alone: every enabled lane takes `f`, and nothing else changes. -/
def RegOp (c : Cx) (len n : Nat) (f : Lane → Lane) (s t : State) : Prop :=
  t.cx c = laneStep (s.cx c) len (baseClocks ((s.cx c).acting false) n) f ∧ OnlyCx c s t

/-- Lane accesses that raise no exception and need no migration (spec/04_judin_model.md R134; spec/13_graft.md R404). -/
def Accessible (c : Cx) (all : Bool) (accs : Nat → Lane → List Access) (s : State) : Prop :=
  s.issues c = true ∧ ∀ e ∈ (s.cx c).accsBy all accs, s.accTrap (s.cx c) e.1 e.2 = none ∧ s.needsMigration (s.cx c) e.2 = false

/-- An instruction that reads memory: lane `i`, where it acts, takes `f` of what it reads; nothing else changes. -/
def ReadOp (c : Cx) (len base : Nat) (all : Bool) (accs : Nat → Lane → List Access) (f : Nat → (Nat → Nat → Nat) → Lane → Lane)
    (s t : State) : Prop :=
  (t.cx c).lanes = (s.cx c).lanes.mapIdx (fun i l => if all || (s.cx c).enabled i then f i (s.reader c all accs i) l else l)
    ∧ t.cx c = { s.readCtx (s.cx c) ((s.cx c).accsBy all accs) with
        lanes := (t.cx c).lanes, pc := (s.cx c).pc + BitVec.ofNat 16 len, clkUsed := (t.cx c).clkUsed }
    ∧ (s.cx c).clkUsed + baseClocks ((s.cx c).acting all) base ≤ (t.cx c).clkUsed ∧ OnlyRead c s t

/-- A byte that an acting lane writes: lane, lane address, value. -/
abbrev Wr := Nat × Nat × Byte

/-- What lane `i` with registers `l` writes, given what it reads: addresses, byte counts, values. -/
abbrev Writes := Nat → (Nat → Nat → Nat) → Lane → List (Nat × Nat × Nat)

/-- The bytes that an instruction writes, in lane order. -/
def wrBytesOf (s : State) (c : Cx) (all : Bool) (accs : Nat → Lane → List Access) (w : Writes) : List Wr :=
  ((s.cx c).acting all).flatMap (fun e => (w e.1 (s.reader c all accs e.1) e.2).flatMap (fun q =>
    (List.range q.2.1).map (fun i => (e.1, (q.1 + i) % 0x10000, byteOf q.2.2 i))))

/-- The place of a byte that a lane writes. -/
def wrPlace (s : State) (x : Ctx) (w : Wr) : Tgt := s.tgt x w.1 w.2.1 true

/-- An instruction that stores: the registers of acting lanes take `f`; of two writes to one place the later one, of the higher lane,
stands (spec/04_judin_model.md R135); a byte of scratch or frame that is no place of a write is as before; writes to the fabric enter the
pair's compare buffer, earlier ones may leave it for the fabric (spec/12_twin_presses.md R380), and the stores themselves change nowhere at
once (R155). -/
def StoreOp (c : Cx) (len base : Nat) (all : Bool) (accs : Nat → Lane → List Access) (f : Nat → (Nat → Nat → Nat) → Lane → Lane)
    (w : Writes) (s t : State) : Prop :=
  let x := s.cx c
  let ws := wrBytesOf s c all accs w
  (t.cx c).lanes = x.lanes.mapIdx (fun i l => if all || x.enabled i then f i (s.reader c all accs i) l else l)
    ∧ (t.cx c).pc = x.pc + BitVec.ofNat 16 len ∧ x.clkUsed + baseClocks (x.acting all) base ≤ (t.cx c).clkUsed
    ∧ (∀ j, ∀ h : j < ws.length,
        (∀ k, ∀ h' : k < ws.length, j < k → wrPlace s x ws[k] ≠ wrPlace s x ws[j]) →
        (match wrPlace s x ws[j] with
          | .scratch k => (t.cx c).scratch.rd k = ws[j].2.2
          | .frame k => ∀ p, c = .press p → (t.frame p.val x.frame).mem.rd k = ws[j].2.2
          | .fabric bar => ∃ b ∈ (t.cx c).buf, (bar, ws[j].2.2) ∈ b.bytes
          | .ctl k => byteOf (t.cx c).bind (k - 0x20) = ws[j].2.2
          | _ => True))
    ∧ (∀ k, (∀ q ∈ ws, wrPlace s x q ≠ .scratch k) → (t.cx c).scratch.rd k = x.scratch.rd k)
    ∧ t.cx c = { x with
        lanes := (t.cx c).lanes, pc := (t.cx c).pc, clkUsed := (t.cx c).clkUsed, scratch := (t.cx c).scratch, buf := (t.cx c).buf
        released := (t.cx c).released, bind := (t.cx c).bind, held := (t.cx c).held, granules := (t.cx c).granules
        cmdLanes := (t.cx c).cmdLanes, ltNow := (s.readCtx x (x.accsBy all accs)).ltNow }
    ∧ (∀ j k, (∀ p, c = .press p → j ≠ 2 * p.val + x.frame ∨ ∀ q ∈ ws, wrPlace s x q ≠ .frame k) →
        (SMap.get frame0 t.frames j).mem.rd k = (SMap.get frame0 s.frames j).mem.rd k)
    ∧ (∀ v ∈ (t.cx c).buf, v ∈ x.buf ∨ ∀ b ∈ v.bytes, ∃ q ∈ ws, wrPlace s x q = .fabric b.1 ∧ q.2.2 = b.2)
    ∧ (∀ v ∈ x.buf, v ∈ (t.cx c).buf ∨ ∃ r ∈ t.inflight, r.cx = some (cxIdx c) ∧ r.bytes = v.bytes)
    ∧ (∀ r ∈ s.inflight, r ∈ t.inflight)
    ∧ (∀ r ∈ t.inflight, r ∈ s.inflight ∨ (r.write = true ∧ r.cx = some (cxIdx c) ∧ ∃ v ∈ x.buf, r.bytes = v.bytes))
    ∧ t = { s with ctxs := t.ctxs, regs := t.regs, busyAcc := t.busyAcc, free := t.free, ecc := t.ecc, evLatch := t.evLatch
                   frames := t.frames, inflight := t.inflight, scalarCmds := t.scalarCmds }
    ∧ OtherCxs c s t ∧ RegsBut (clockRegs c ++ corrRegs ++ [fFAB_TAGS_IN_USE.off]) s t

/-- The pair's compare buffer has room for another instruction's fabric writes (spec/12_twin_presses.md R380). -/
def BufRoom (c : Cx) (s : State) : Prop := (s.cx c).bufInstrs < 8

/-- The instruction is read, and then `p` stands between the state so read and the state after. -/
def Reads (c : Cx) (p : State → State → Prop) (s t : State) : Prop := ∃ u, Fetches c s u ∧ p u t

/-- No failed posted write and no TIMEOUT of the context waits for the end of an instruction (spec/04_judin_model.md R151). -/
def Settled (c : Cx) (s : State) : Prop := (s.cx c).busPend = none ∧ (s.cx c).toPend = false

/-- The instruction's stores to BIND leave a channel that exists (spec/04_judin_model.md R140). -/
def BindOk (c : Cx) (all : Bool) (accs : Nat → Lane → List Access) (w : Writes) (s : State) : Prop :=
  ∀ e ∈ (s.cx c).acting all, bindTrap (s.cx c) (w e.1 (s.reader c all accs e.1) e.2) = none

/-- The context goes on at `pc` after `n` clocks, and nothing else changes. -/
def Goto (c : Cx) (pc : BitVec 16) (n : Nat) (s t : State) : Prop :=
  t.cx c = { s.cx c with pc := pc, clkUsed := (s.cx c).clkUsed + n } ∧ OnlyCx c s t

/-- The context can push: its return stack's parity is good and entry 63 is free (spec/04_judin_model.md R145). -/
def CanPush (c : Cx) (s : State) : Prop := (s.cx c).rspGood = true ∧ (s.cx c).rsFull = false

/-- The return stack after a push of `e` (R145). -/
def pushed (x : Ctx) (e : StackEnt) : Ctx :=
  let full := decide (x.rsp = 63)
  let rsp := if x.rsp = 63 then 63 else x.rsp + 1
  { x with stack := SMap.put ent0 x.rsp.toNat e x.stack, rsp := rsp, rsFull := full, rsPar := rspParity rsp full }

/-- An exception is entered (R145, R152): what EXC shows, the entry with PC `ret`, every lane's F and LM pushed, and PC at the fault entry
of the version the context runs; the counters of the pair and the cause advance. -/
def Enters (c : Cx) (cause addr bar : Nat) (lanes : BitVec 256) (excPc ret : BitVec 16) (s t : State) : Prop :=
  let x := s.cx c
  let pg := cxPage c
  let cmn := match c with | .press _ => fPRESS_CMN_EXC_COUNT cause | .scalar _ => fSCALAR_CMN_EXC_COUNT cause
  t.cx c = { pushed x { pc := ret, fs := x.lanes.map (fun l => l.f), lm := x.lm, exc := true } with
      excCause := cause, excLane := lowestLane lanes, excPc := excPc, excAddr := addr, excBar := bar, excLanes := lanes
      pc := BitVec.ofNat 16 x.ver.entry, stall := none, clkUsed := x.clkUsed + 6 }
    ∧ t.fget (fPAIR_LAST_EXC_CAUSE pg) = cause ∧ t.fget (fPAIR_LAST_EXC_PARTITION pg) = x.part % 256
    ∧ t.fget (fPAIR_LAST_EXC_PC pg) = excPc.toNat ∧ t.fget (fPAIR_STAT_STATE pg) = stExec
    ∧ t.fget (fPAIR_CNT_EXC_COUNT pg) = min (s.fget (fPAIR_CNT_EXC_COUNT pg) + 1) 0xFFFFFFFF
    ∧ t.fget cmn = min (s.fget cmn + 1) 0xFFFFFFFF
    ∧ ∃ u, Fetches c s u ∧ t = { u with ctxs := t.ctxs, regs := t.regs, busyAcc := t.busyAcc } ∧ OtherCxs c u t
        ∧ RegsBut (clockRegs c ++ [(fPAIR_LAST_EXC_CAUSE pg).off, (fPAIR_STAT_STATE pg).off, (fPAIR_CNT_EXC_COUNT pg).off, cmn.off]) u t

/-! ### The flag rules of spec/05_judin_reference.md R168, as worded there -/

/-- Add kind. -/
def addFlags {n : Nat} (a b : BitVec n) (cin : Bool) (l : Bool) : Flags :=
  let r := a + b + BitVec.ofNat n (b2n cin)
  mkFlags (a.msb == b.msb && r.msb != a.msb) r.msb (decide (2 ^ n ≤ a.toNat + b.toNat + b2n cin)) (decide (r = 0)) l

/-- Subtract kind; `z` is the old Z where it is sticky, else true. -/
def subFlags {n : Nat} (a b : BitVec n) (bin : Bool) (z l : Bool) : Flags :=
  let r := a - b - BitVec.ofNat n (b2n bin)
  mkFlags (a.msb != b.msb && r.msb == b.msb) r.msb (decide (a.toNat < b.toNat + b2n bin)) (z && decide (r = 0)) l

/-- Logic kind, and loads: C unchanged. -/
def logFlags {n : Nat} (r : BitVec n) (f : Flags) : Flags := mkFlags false r.msb (fC f) (decide (r = 0)) (fL f)

end Sys2Proof.Safety
end

