-- ==== Sys2Proof/WellFormed.lean ====
section
/-! DEFINITION. Commands that the hardware's encodings and media can carry: the reserved Judin combinations (spec/05_judin_reference.md R165, R166, R171, R186), master identities (spec/03_partitions_fabric.md), and fields within the widths of their frames. -/

namespace Sys2Proof

/-- The master identities that reach the register space: a VF 0x100 + n, the PF 0x200, management 0x201, the standby peer 0x202, the
engineering service 0x203. -/
def isMaster (m : Nat) : Bool := decide (0x100 ≤ m) && decide (m ≤ 0x203)

/-- Fields of a Trellis header within their widths (spec/10_trellis_link.md R307). -/
def TrHdr.wf (h : TrHdr) : Bool :=
  decide (h.gen < 2 ^ 16) && decide (h.cycle < 2 ^ 32) && decide (h.lt < 2 ^ 64) && decide (h.row < 2 ^ 16) && decide (h.src < 256)
    && decide (h.flags < 256) && decide (h.len < 2 ^ 16) && decide (h.port < 256)

/-- Fields of a racking header within their widths (spec/14_racking_standby.md R424). -/
def RackHdr.wf (h : RackHdr) : Bool :=
  decide (h.gen < 2 ^ 16) && decide (h.cycle < 2 ^ 32) && decide (h.lt < 2 ^ 64) && decide (h.seq < 2 ^ 32)

/-- Fields of an engineering request within their widths (spec/16_engineering_time.md R481). -/
def EngReq.wf (e : EngReq) : Bool :=
  decide (e.ip < 2 ^ 32) && decide (e.port < 2 ^ 16) && decide (e.magic < 2 ^ 16) && decide (e.version < 256) && decide (e.flags < 256)
    && decide (e.seq < 2 ^ 16) && decide (e.status < 2 ^ 16) && decide (e.detail < 2 ^ 16) && decide (e.len < 2 ^ 16)
    && decide (e.zero < 2 ^ 16) && decide (e.crc < 2 ^ 32)

/-- A vector of a function has a number below 1,024; a message has a 64-bit address and 32 bits of data (spec/06_time_events.md R212). -/
def MsixWr.wf (w : MsixWr) : Bool :=
  match w with
  | .entry v addr data _ => decide (v < 1024) && decide (addr < 2 ^ 64) && decide (data < 2 ^ 32)
  | .control _ _ => true
  | .sriov n => decide (n ≤ 256)

/-- A CAN frame carries at most 64 data bytes, and a standard identifier has 11 bits (spec/17_service_bus.md). -/
def CanFrame.wf (f : CanFrame) : Bool := decide (f.data.length ≤ 64) && (f.xtd || decide (f.id.toNat < 2048))

/-- Well-formed commands. -/
def Instr.wf (i : Instr) : Bool :=
  match i with
  | .cycleBoundary => true
  | .lioMapOutDone _ => true
  | .harvestFrame _ h _ => h.wf
  | .rowRipe _ => true
  | .tasteEstimate _ => true
  | .latestRipe _ => true
  | .stepPass _ => true
  | .placementDecision => true
  | .frameLoadDone _ _ => true
  | .executionStart _ => true
  | .scalarStart _ => true
  | .writeBack _ => true
  | .pourCutoff _ => true
  | .pourWindow _ _ => true
  | .controlPeriod _ => true
  | .helloResp _ h _ => h.wf
  | .delayResp _ h _ t4 => h.wf && decide (t4 < 2 ^ 64)
  | .delayReqLineEnd _ h _ => h.wf
  | .mgmtResp _ h _ => h.wf
  | .discoveryRoundMiss _ _ => true
  | .linkUp _ => true
  | .linkLoss _ _ _ => true
  | .trainingTimeout _ => true
  | .portResetEnd _ => true
  | .trlPortHello m _ _ => isMaster m
  | .trlPortDelay m _ _ => isMaster m
  | .trlPortRetrain m _ _ => isMaster m
  | .trlPortReset m _ _ => isMaster m
  | .trlSchedCommit m _ => isMaster m
  | .trlMgmtTxGo m _ _ => isMaster m
  | .trlMgmtRxRelease m _ _ => isMaster m
  | .syncMissed _ => true
  | .splitLeave _ => true
  | .reflexDecode _ => true
  | .twinMismatch _ _ => true
  | .scalarMismatch _ _ => true
  | .pressTwinProof m _ _ => isMaster m
  | .proofDone _ _ _ => true
  | .pressTwinFence m _ _ => isMaster m
  | .jLd _ r o => ldLegal r o
  | .jSt _ _ _ => true
  | .jLea _ _ o => leaLegal o
  | .jLdiI8 _ r i => decide (r ≠ .f) || decide (i.toNat < 32)
  | .jLdiI16 _ _ _ => true
  | .jTfr _ p q => tfrLegal p q
  | .jMulu _ => true
  | .jMuls _ => true
  | .jAdd _ _ _ => true
  | .jAdc _ _ _ => true
  | .jSub _ _ _ => true
  | .jSbc _ _ _ => true
  | .jAnd _ _ _ => true
  | .jOr _ _ _ => true
  | .jXor _ _ _ => true
  | .jCmp _ _ _ => true
  | .jCpc _ _ _ => true
  | .jBit _ _ _ => true
  | .jInc _ _ => true
  | .jDec _ _ => true
  | .jNeg _ _ => true
  | .jNot _ _ => true
  | .jShl _ _ => true
  | .jShr _ _ => true
  | .jAsr _ _ => true
  | .jRol _ _ => true
  | .jRor _ _ => true
  | .jClr _ _ => true
  | .jTst _ _ => true
  | .jAddw _ r q => match q with | .mem o => addwLegal r o | _ => true
  | .jSubw _ r q => match q with | .mem o => addwLegal r o | _ => true
  | .jCmpw _ _ _ => true
  | .jCpcw _ _ _ => true
  | .jAdcw _ _ _ => true
  | .jSbcw _ _ _ => true
  | .jAddws _ _ => true
  | .jLcc _ _ => true
  | .jLccAnd _ _ => true
  | .jLccOr _ _ => true
  | .jLdb _ _ => true
  | .jLdbn _ _ => true
  | .jAndb _ _ => true
  | .jAndbn _ _ => true
  | .jOrb _ _ => true
  | .jOrbn _ _ => true
  | .jXorb _ _ => true
  | .jXorbn _ _ => true
  | .jOut _ _ => true
  | .jOutn _ _ => true
  | .jSetb _ _ => true
  | .jRstb _ _ => true
  | .jTglb _ _ => true
  | .jNotl _ => true
  | .jSetl _ => true
  | .jClrl _ => true
  | .jBr _ _ _ => true
  | .jBrl _ _ _ => true
  | .jBany _ _ => true
  | .jBall _ _ => true
  | .jBnone _ _ => true
  | .jBanyl _ _ => true
  | .jBalll _ _ => true
  | .jBnonel _ _ => true
  | .jJmps _ _ => true
  | .jJmp _ _ => true
  | .jJmpx _ _ => true
  | .jCall _ _ => true
  | .jCallx _ _ => true
  | .jRet _ => true
  | .jRte _ => true
  | .jPush _ _ => true
  | .jPop _ _ => true
  | .jTon _ _ _ => true
  | .jTof _ _ _ => true
  | .jTp _ _ _ => true
  | .jCtu _ _ => true
  | .jCtd _ _ => true
  | .jCres _ _ => true
  | .jCld _ _ => true
  | .jRedge _ _ => true
  | .jFedge _ _ => true
  | .jNop _ => true
  | .jEnd _ => true
  | .jFence _ => true
  | .jBrk _ => true
  | .jLmall _ => true
  | .jLmand _ => true
  | .jLmandn _ => true
  | .jLmor _ => true
  | .jLmsave _ _ => true
  | .jLmload _ _ => true
  | .jSev _ e => decide (e.toNat < 768)
  | .jWfe _ e => decide (e.toNat < 768)
  | .jWuntil _ e => decide (e.toNat < 768) || decide (e.toNat = 1023)
  | .jGoSend _ _ => true
  | .jGoDone _ _ => true
  | .jMread _ _ => true
  | .jTrig _ _ => true
  | .undefinedOpcode _ _ => true
  | .instructionFetchFault _ _ => true
  | .execTimeout _ => true
  | .busPostedWrite _ addr _ => decide (addr < 2 ^ 26)
  | .fabricRequestComplete _ _ => true
  | .fabricAgePromotion _ => true
  | .mailboxRoundTripDone _ _ => true
  | .scalarMigration _ => true
  | .scalarCommandHandover _ => true
  | .cmdNone _ _ _ _ _ => true
  | .cmdStart _ _ _ _ _ => true
  | .cmdGoto _ _ _ _ _ => true
  | .cmdNext _ _ _ _ _ => true
  | .cmdAlt _ _ _ _ _ => true
  | .cmdEnd _ _ _ _ _ => true
  | .cmdFault _ _ _ _ _ => true
  | .cmdHoldStep _ _ _ _ _ => true
  | .cmdRelease _ _ _ _ _ => true
  | .cmdSetLoop _ _ _ _ _ => true
  | .cmdZero _ _ _ _ _ => true
  | .eventRaise _ => true
  | .contextWake _ => true
  | .wuntilDeadline _ => true
  | .evtSwRaise m _ => isMaster m
  | .alarmLtMatch _ => true
  | .alarmSampleDone _ _ => true
  | .alarmTargetWrite m _ _ => isMaster m
  | .grantTableWrite m _ _ _ _ => isMaster m
  | .lowWordRead m off => isMaster m && decide (off < 2 ^ 26)
  | .highWordWrite m off _ => isMaster m && decide (off < 2 ^ 26)
  | .registerWrite m off bytes => isMaster m && decide (off < 2 ^ 26) && decide (0 < bytes.length)
  | .cfgRejectClear m _ => isMaster m
  | .sysModeReqRun m => isMaster m
  | .sysModeReqStop m => isMaster m
  | .sysModeReqRecovery m => isMaster m
  | .partReqRun m _ => isMaster m
  | .partReqStop m _ => isMaster m
  | .partReqHold m _ => isMaster m
  | .storeWindowWrite m off bytes => isMaster m && decide (off < 2 ^ 26) && decide (0 < bytes.length)
  | .storeWindowRead m off n => isMaster m && decide (off < 2 ^ 26) && (decide (0 < n) && decide (n ≤ 4096))
  | .imageWindowWrite m off bytes => isMaster m && decide (off < 2 ^ 26) && decide (0 < bytes.length)
  | .schedCntClr m _ => isMaster m
  | .schedPClr m _ _ => isMaster m
  | .fabCntClr m _ => isMaster m
  | .pressCntClr m _ _ => isMaster m
  | .pressCmnClr m _ _ => isMaster m
  | .evtCntClr m _ => isMaster m
  | .stepCntClr m _ => isMaster m
  | .convCntClr m _ => isMaster m
  | .ledgCntClr m _ => isMaster m
  | .trlCntClr m _ _ => isMaster m
  | .trlRfxClr m _ => isMaster m
  | .rackCntClr m _ => isMaster m
  | .timeCntClr m _ => isMaster m
  | .convEpochReq m _ => isMaster m
  | .stageCopyDone => true
  | .convPersistSave m _ => isMaster m
  | .periodicCalSave => true
  | .calSaveDone rows => decide (rows ≤ 512)
  | .calRestoreDone => true
  | .partGrfAlloc m _ _ => isMaster m
  | .grfArm m _ _ => isMaster m
  | .graftCheckDone _ => true
  | .graftRackConfirm _ => true
  | .graftRackTimeout _ => true
  | .grfAbort m _ _ => isMaster m
  | .grfRollback m _ _ => isMaster m
  | .grfRelease m _ _ => isMaster m
  | .grfGroupGo m _ => isMaster m
  | .rollbackWindowEnd _ => true
  | .graftSweepDone _ => true
  | .rackHello h _ => h.wf
  | .rackBeat h _ => h.wf
  | .rackConfig h m addr _ _ => h.wf && decide (m < 2 ^ 16) && decide (addr < 2 ^ 26)
  | .rackCode h _ => h.wf
  | .rackStepev h _ => h.wf
  | .rackCoef h _ => h.wf
  | .rackSwap h => h.wf
  | .rackSweep h _ => h.wf
  | .rackRelay h _ => h.wf
  | .rackResend => true
  | .rackLaneUp _ _ => true
  | .pourObserved _ h _ => h.wf
  | .fillDone => true
  | .sweepEnd _ => true
  | .beatMissed => true
  | .peerActiveFall => true
  | .peerActiveRise => true
  | .settleEnd => true
  | .gateOpen => true
  | .roleDecision _ => true
  | .demotion _ => true
  | .swapYield => true
  | .rackCmdSwap m _ => isMaster m
  | .rackCmdResync m _ => isMaster m
  | .rackGenSeed m _ => isMaster m
  | .poisonedTlp m _ => isMaster m
  | .vfFlr _ => true
  | .pfFlr => true
  | .perstN _ => true
  | .ladleResultWrite => true
  | .rqTimer _ => true
  | .hostRqEnable m _ _ => isMaster m
  | .hostRqRidx m _ _ => isMaster m
  | .hostSnapGo m _ _ => isMaster m
  | .hostSnapRidx m _ _ => isMaster m
  | .snapshotRowCapture _ _ _ => true
  | .snapshotComplete _ => true
  | .hostPweClr m _ => isMaster m
  | .hostCntClr m _ => isMaster m
  | .mbxCmdGo m _ _ => isMaster m
  | .mbxCmdTake m _ _ => isMaster m
  | .mbxCmdDone m _ _ => isMaster m
  | .mbxCmdWithdraw m _ _ => isMaster m
  | .mbxMsgWrite m _ _ _ => isMaster m
  | .ident e => e.wf
  | .echo e => e.wf
  | .read32 e => e.wf
  | .write32 e => e.wf
  | .readBlock e => e.wf
  | .writeBlock e => e.wf
  | .moduleMode e => e.wf
  | .partMode e => e.wf
  | .cellarFreeze e => e.wf
  | .cellarUnfreeze e => e.wf
  | .cellarRead e => e.wf
  | .cellarStatus e => e.wf
  | .graftLoad e => e.wf
  | .graftAlloc e => e.wf
  | .graftWrite e => e.wf
  | .graftArm e => e.wf
  | .graftGo e => e.wf
  | .graftRollback e => e.wf
  | .graftRelease e => e.wf
  | .graftAbort e => e.wf
  | .graftStatus e => e.wf
  | .mbxSend e => e.wf
  | .mbxTake e => e.wf
  | .mbxDone e => e.wf
  | .mbxWithdraw e => e.wf
  | .mbxRead e => e.wf
  | .timeGet e => e.wf
  | .timeSetWall e => e.wf
  | .timeAcceptBack e => e.wf
  | .caskRead e => e.wf
  | .caskWrite e => e.wf
  | .fwWrite e => e.wf
  | .fwSelect e => e.wf
  | .restart e => e.wf
  | .arpRequest ip target => decide (ip < 2 ^ 32) && decide (target < 2 ^ 32)
  | .icmpEcho ip target _ => decide (ip < 2 ^ 32) && decide (target < 2 ^ 32)
  | .ptpSync _ _ => true
  | .ptpFollowUp _ _ => true
  | .ptpAnnounce _ _ => true
  | .announceReceiptTimeout => true
  | .ptpDelayResp _ _ => true
  | .ptpDelayReqSend => true
  | .ptpPdelayReq _ => true
  | .ptpPdelayResp _ _ _ _ => true
  | .wallStep => true
  | .holdEnd => true
  | .timeSetGo m _ => isMaster m
  | .timeSetAcceptBack m _ => isMaster m
  | .rtcSecondTick => true
  | .rtcSync => true
  | .vbatSwitch _ _ => true
  | .vbatMeasure _ => true
  | .canModeApply _ => true
  | .canIntegrated _ => true
  | .canTxReq m _ _ => isMaster m
  | .canTxAbort m _ _ => isMaster m
  | .canArbitrationStart _ => true
  | .canFrameSent _ _ sof => decide (sof < 2 ^ 64)
  | .canArbitrationLost _ => true
  | .canFrameReceived _ f => f.wf
  | .canBusError _ _ _ _ => true
  | .canRecover m _ _ => isMaster m
  | .canRecoveryDone _ => true
  | .canRateDwellEnd _ => true
  | .canRxReadWord0 m _ => isMaster m
  | .canRxReadWord19 m _ => isMaster m
  | .canCntClr m _ _ => isMaster m
  | .lioDownFrameSend => true
  | .lioUpFrameReceive _ _ => true
  | .lioDownFrameApply _ => true
  | .lioUpFrameBuild _ _ => true
  | .lioInputChange _ => true
  | .lioFieldTimeout => true
  | .lioLinkTimeout => true
  | .lioArm m _ => isMaster m
  | .lioOvercurrent _ => true
  | .lioRetry _ => true
  | .lioRetryOk _ => true
  | .lioCntClr m _ => isMaster m
  | .panelSwap m _ => isMaster m
  | .panelCrcDone => true
  | .panelFrameStart _ _ => true
  | .panelIdleTimeout => true
  | .panelEn m _ => isMaster m
  | .panelRampDone => true
  | .panelSupplyFault _ => true
  | .mgtRestartCmd m _ => isMaster m
  | .mgtWatchdogExpiry => true
  | .mgtFault => true
  | .mgtRestartEnd => true
  | .startSequence _ => true
  | .mainDieRelease => true
  | .startSetApply => true
  | .mgtFwWrite m _ => isMaster m
  | .mgtFwTrial m _ => isMaster m
  | .mgtFwConfirm m _ => isMaster m
  | .mgtFwCancel m _ => isMaster m
  | .fwOpComplete _ => true
  | .flashScrub => true
  | .scrubEnd => true
  | .mgtSetSave m _ => isMaster m
  | .lifeSave => true
  | .sensorReading _ _ => true
  | .thermalTrip => true
  | .noticePost => true
  | .cellarIntake => true
  | .mgtCbFreeze m _ => isMaster m
  | .mgtCbUnfreeze m _ => isMaster m
  | .freezeMaxExpiry => true
  | .mgtCbFfClear m _ => isMaster m
  | .mgtCbIdx m _ => isMaster m
  | .cellarCommit => true
  | .powerOn => true
  | .aux3v3Loss => true
  | .mainPowerLoss => true
  | .resetNAssert => true
  | .resetNRelease => true
  | .pwrFailNAssert => true
  | .flushStopPhase => true
  | .flushDone _ calRows => decide (calRows ≤ 512)
  | .pwrFailNRelease => true
  | .clockLoss _ => true
  | .clockReturn _ => true
  | .wdtExpiry => true
  | .rstCtrlReset m _ => isMaster m
  | .rstCtrlClrFails m _ => isMaster m
  | .startOkExpiry => true
  | .warmRestoreDone => true
  | .caskCommit m _ => isMaster m
  | .caskDiscard m _ => isMaster m
  | .caskCommitDone _ => true
  | .caskWinWrite m _ _ => isMaster m
  | .caskPwHi m _ => isMaster m
  | .caskLock m _ => isMaster m
  | .caskOptCommit m _ => isMaster m
  | .caskOptReload m _ => isMaster m
  | .fieldFrameReject _ _ => true
  | .farEndListen _ h _ => h.wf
  | .splitBreakReport _ => true
  | .rackFrameReject _ => true
  | .mainPowerGood => true
  | .fieldSupplyRise => true
  | .lioBoundaryTimeout => true
  | .engRestartDelay => true
  | .illegalStateDetection _ => true
  | .msixVectorUnmask _ w => w.wf
  | .engFrameDiscard _ => true

end Sys2Proof
end

