-- ==== Sys2Proof/Certificates/Slice0/Obligations.lean ====
section
/-! DEFINITION. The statements for the provers. Each docstring names the rules of spec/ its statement rests on. -/

open Sys2Proof Sys2Proof.Machine Sys2Proof.Safety

namespace Sys2Proof.Claims

/-! ### Judin instructions (spec/04_judin_model.md, spec/05_judin_reference.md) -/

/-- The accesses of a byte source. -/
def srcAccs (src : Src8) : Nat → Lane → List Access := fun _ l =>
  match src with
  | .imm _ => []
  | .mem o => [⟨(mopEa o l 1).1.toNat, 1, false⟩]

/-- The words of an instruction with a byte source. -/
def srcLen (src : Src8) : Nat := match src with | .imm _ => 1 | .mem o => mopLen o

/-- A byte source's value in a lane. -/
def srcVal (src : Src8) (rd : Nat → Nat → Nat) (l : Lane) : BitVec 8 :=
  match src with
  | .imm i => i
  | .mem o => BitVec.ofNat 8 (rd (mopEa o l 1).1.toNat 1)

/-- A lane after a byte source's POSTINC or PREDEC. -/
def srcLane (src : Src8) (l : Lane) : Lane := match src with | .imm _ => l | .mem o => (mopEa o l 1).2

/-- A two-operand byte instruction computes `g` of the register, the source and the flags; a result of none is discarded. -/
def byteOp (mk : Cx → R8 → Src8 → Instr) (g : BitVec 8 → BitVec 8 → Flags → Option (BitVec 8) × Flags) : Prop :=
  ∀ c r src s, Accessible c false (srcAccs src) s →
    Done (mk c r src) s (ReadOp c (srcLen src) 1 false (srcAccs src) (fun _ rd l =>
      let p := g (l.r8 r) (srcVal src rd l) l.f
      let l1 := srcLane src l
      { (match p.1 with | some v => l1.set8 r v | none => l1) with f := p.2 }))

/-- A one-operand byte instruction. -/
def unaryOp (mk : Cx → R8 → Instr) (g : BitVec 8 → Flags → Option (BitVec 8) × Flags) : Prop :=
  ∀ c r s, s.issues c = true →
    Done (mk c r) s (RegOp c 1 1 (fun l =>
      let p := g (l.r8 r) l.f
      { (match p.1 with | some v => l.set8 r v | none => l) with f := p.2 }))

/-- The flags of a shift. -/
def shiftFlags (r : BitVec 8) (c v : Bool) (f : Flags) : Flags := mkFlags v r.msb c (decide (r = 0)) (fL f)

end Sys2Proof.Claims

open Sys2Proof.Claims

/-- The two-operand byte instructions (R127, R168, R172): result and flags in every enabled lane, nothing else changed. -/
def Obligations.ByteInstructions : Prop :=
  byteOp .jAdd (fun a b f => (some (a + b), addFlags a b false (fL f)))
  ∧ byteOp .jAdc (fun a b f => (some (a + b + BitVec.ofNat 8 (b2n (fC f))), addFlags a b (fC f) (fL f)))
  ∧ byteOp .jSub (fun a b f => (some (a - b), subFlags a b false true (fL f)))
  ∧ byteOp .jSbc (fun a b f => (some (a - b - BitVec.ofNat 8 (b2n (fC f))), subFlags a b (fC f) (fZ f) (fL f)))
  ∧ byteOp .jAnd (fun a b f => (some (a &&& b), logFlags (a &&& b) f))
  ∧ byteOp .jOr (fun a b f => (some (a ||| b), logFlags (a ||| b) f))
  ∧ byteOp .jXor (fun a b f => (some (a ^^^ b), logFlags (a ^^^ b) f))
  ∧ byteOp .jCmp (fun a b f => (none, subFlags a b false true (fL f)))
  ∧ byteOp .jCpc (fun a b f => (none, subFlags a b (fC f) (fZ f) (fL f)))
  ∧ ∀ c r o s, Accessible c false (srcAccs (.mem o)) s →
      Done (.jBit c r o) s (ReadOp c (mopLen o) 1 false (srcAccs (.mem o)) (fun _ rd l =>
        { srcLane (.mem o) l with f := logFlags (l.r8 r &&& srcVal (.mem o) rd l) l.f }))

/-- The one-operand byte instructions (R168, R173). -/
def Obligations.UnaryByteInstructions : Prop :=
  unaryOp .jInc (fun a f => (some (a + 1), mkFlags (a == 0x7F) (a + 1).msb (fC f) (decide (a + 1 = 0)) (fL f)))
  ∧ unaryOp .jDec (fun a f => (some (a - 1), mkFlags (a == 0x80) (a - 1).msb (fC f) (decide (a - 1 = 0)) (fL f)))
  ∧ unaryOp .jNeg (fun a f => (some (0 - a), subFlags 0 a false true (fL f)))
  ∧ unaryOp .jNot (fun a f => (some (~~~a), logFlags (~~~a) f))
  ∧ unaryOp .jShl (fun a f => (some (a <<< 1), shiftFlags (a <<< 1) a.msb ((a <<< 1).msb != a.msb) f))
  ∧ unaryOp .jShr (fun a f => (some (a >>> 1), shiftFlags (a >>> 1) (a.getLsbD 0) false f))
  ∧ unaryOp .jAsr (fun a f => (some (a.sshiftRight 1), shiftFlags (a.sshiftRight 1) (a.getLsbD 0) false f))
  ∧ unaryOp .jRol (fun a f =>
      let r := (a <<< 1) ||| BitVec.ofNat 8 (b2n (fC f))
      (some r, shiftFlags r a.msb (r.msb != a.msb) f))
  ∧ unaryOp .jRor (fun a f =>
      let r := (a >>> 1) ||| BitVec.ofNat 8 (128 * b2n (fC f))
      (some r, shiftFlags r (a.getLsbD 0) false f))
  ∧ unaryOp .jClr (fun _ f => (some 0, mkFlags false false (fC f) true (fL f)))
  ∧ unaryOp .jTst (fun a f => (none, mkFlags false a.msb false (decide (a = 0)) (fL f)))

namespace Sys2Proof.Claims

/-- A word source: its accesses, words, value in a lane, and the lane after it. -/
structure WSrc where
  accs : Nat → Lane → List Access
  len : Nat
  val : (Nat → Nat → Nat) → Lane → BitVec 16
  lane : Lane → Lane

/-- A source in registers or the instruction. -/
def wReg (len : Nat) (v : Lane → BitVec 16) : WSrc := { accs := fun _ _ => [], len := len, val := fun _ l => v l, lane := fun l => l }

/-- A source in memory. -/
def wMem (o : MOp) : WSrc :=
  { accs := fun _ l => [⟨(mopEa o l 2).1.toNat, 2, false⟩], len := mopLen o
    val := fun rd l => BitVec.ofNat 16 (rd (mopEa o l 2).1.toNat 2), lane := fun l => (mopEa o l 2).2 }

/-- A word instruction computes `g` of the register as it stood, the source and the flags (R165, R174). -/
def wordOp (i : Cx → Instr) (r : R16) (src : WSrc) (g : BitVec 16 → BitVec 16 → Flags → Option (BitVec 16) × Flags) : Prop :=
  ∀ c s, Accessible c false src.accs s →
    Done (i c) s (ReadOp c src.len 1 false src.accs (fun _ rd l =>
      let p := g (l.r16 r) (src.val rd l) l.f
      let l1 := src.lane l
      { (match p.1 with | some v => l1.set16 r v | none => l1) with f := p.2 }))

/-- Sums, differences and compares of words. -/
def gAdd : BitVec 16 → BitVec 16 → Flags → Option (BitVec 16) × Flags := fun a b f => (some (a + b), addFlags a b false (fL f))
def gSub : BitVec 16 → BitVec 16 → Flags → Option (BitVec 16) × Flags := fun a b f => (some (a - b), subFlags a b false true (fL f))
def gCmp : BitVec 16 → BitVec 16 → Flags → Option (BitVec 16) × Flags := fun a b f => (none, subFlags a b false true (fL f))
def gCpc : BitVec 16 → BitVec 16 → Flags → Option (BitVec 16) × Flags := fun a b f => (none, subFlags a b (fC f) (fZ f) (fL f))

/-- The other index register. -/
def other (r : R16) : R16 := match r with | .x => .y | .y => .x

/-- A lane after `r` has been loaded with `v` (R168, R170). -/
def loaded (r : Rg) (v : Nat) (l : Lane) : Lane :=
  match r with
  | .a => { l with a := BitVec.ofNat 8 v, f := logFlags (BitVec.ofNat 8 v) l.f }
  | .b => { l with b := BitVec.ofNat 8 v, f := logFlags (BitVec.ofNat 8 v) l.f }
  | .x => { l with x := BitVec.ofNat 16 v, f := logFlags (BitVec.ofNat 16 v) l.f }
  | .y => { l with y := BitVec.ofNat 16 v, f := logFlags (BitVec.ofNat 16 v) l.f }
  | .f => { l with f := BitVec.ofNat 5 v }

/-- The value that a register stores (R170). -/
def storeVal (r : Rg) (l : Lane) : Nat :=
  match r with
  | .a => l.a.toNat | .b => l.b.toNat | .x => l.x.toNat | .y => l.y.toNat | .f => l.f.toNat

/-- Bytes of a register. -/
def rgBytes (r : Rg) : Nat := match r with | .x => 2 | .y => 2 | _ => 1

/-- The accesses of LD (`wr` false) and ST. -/
def rgAccs (r : Rg) (o : MOp) (wr : Bool) : Nat → Lane → List Access := fun _ l => [⟨(mopEa o l (rgBytes r)).1.toNat, rgBytes r, wr⟩]

/-- Whether the load of `r` in the operand's mode is reserved: POSTINC and PREDEC of the loaded register (R165). -/
def clash (r : Rg) (o : MOp) : Prop :=
  (r = .x ∧ (o = .postInc .x ∨ o = .preDec .x)) ∨ (r = .y ∧ (o = .postInc .y ∨ o = .preDec .y))

/-- A lane after TFR has written `v` into `d` (R171): XH and YH are bits 15:8 of X and Y. -/
def moved (d : RT) (v : BitVec 16) (l : Lane) : Lane :=
  { a := if d = .a then v.setWidth 8 else l.a
    b := if d = .b then v.setWidth 8 else l.b
    x := if d = .x then v else if d = .xh then BitVec.ofNat 16 (l.x.toNat % 256 + 256 * (v.toNat % 256)) else l.x
    y := if d = .y then v else if d = .yh then BitVec.ofNat 16 (l.y.toNat % 256 + 256 * (v.toNat % 256)) else l.y
    f := if d = .f then v.setWidth 5 else l.f }

/-- The bit operand's accesses: read, or read and written. -/
def bitAccs (o : BitArg) (wr : Bool) : Nat → Lane → List Access := fun _ l =>
  match o with
  | .reg _ _ => []
  | .mem o _ => if wr then [⟨(bopEa o l).toNat, 1, false⟩, ⟨(bopEa o l).toNat, 1, true⟩] else [⟨(bopEa o l).toNat, 1, false⟩]

/-- The bit an operand names in a lane. -/
def bitVal (o : BitArg) (rd : Nat → Nat → Nat) (l : Lane) : Bool :=
  match o with
  | .reg r b => (l.r8 r).getLsbD b.toNat
  | .mem o b => Nat.testBit (rd (bopEa o l).toNat 1) b.toNat

/-- The words of a bit instruction. -/
def bitLen (o : BitArg) : Nat := match o with | .reg _ _ => 1 | .mem o _ => bopLen o

/-- A bit instruction that writes L from L and the bit (R176). -/
def bitIn (i : Cx → BitArg → Instr) (g : Bool → Bool → Bool) : Prop :=
  ∀ c o s, Accessible c false (bitAccs o false) s →
    Done (i c o) s (ReadOp c (bitLen o) 1 false (bitAccs o false) (fun _ rd l => { l with f := withL l.f (g (fL l.f) (bitVal o rd l)) }))

/-- A byte with one bit replaced. -/
def withBit (v : BitVec 8) (i : Nat) (b : Bool) : BitVec 8 :=
  BitVec.ofNat 8 ((List.range 8).foldl (fun a j => a + (if (if j = i then b else v.getLsbD j) then 2 ^ j else 0)) 0)

/-- An output instruction on a register (R176): where `acts` holds of L, the bit becomes `g` of L and its old value. -/
def bitOutReg (i : Cx → BitArg → Instr) (acts : Bool → Bool) (g : Bool → Bool → Bool) : Prop :=
  ∀ c r b s, s.issues c = true →
    Done (i c (.reg r b)) s (RegOp c 1 1 (fun l =>
      if acts (fL l.f) then l.set8 r (withBit (l.r8 r) b.toNat (g (fL l.f) ((l.r8 r).getLsbD b.toNat))) else l))

/-- An output instruction on memory (R176, R177): a lane in which it does not act makes no access. -/
def bitOutMem (i : Cx → BitArg → Instr) (acts : Bool → Bool) (g : Bool → Bool → Bool) : Prop :=
  ∀ c o b s,
    let accs : Nat → Lane → List Access := fun k l => if acts (fL l.f) then bitAccs (.mem o b) true k l else []
    let w : Writes := fun _ rd l => if acts (fL l.f) then
        [((bopEa o l).toNat, 1, (withBit (BitVec.ofNat 8 (rd (bopEa o l).toNat 1)) b.toNat (g (fL l.f) (bitVal (.mem o b) rd l))).toNat)]
      else []
    Accessible c false accs s → BufRoom c s → BindOk c false accs w s →
      Done (i c (.mem o b)) s (StoreOp c (bopLen o) 1 false accs (fun _ _ l => l) w)

/-- The enabled lanes of a context. -/
def live (x : Ctx) : List (Nat × Lane) := x.acting false

/-- A conditional branch to `t` of `len` words (R130, R179). -/
def condBranch (i : Cx → State → Instr) (cc : CC) (len : Nat) (t : Cx → State → BitVec 16) : Prop :=
  ∀ c s, s.issues c = true →
    let yes := (live (s.cx c)).filter (fun e => ccHolds cc e.2.f)
    (yes = [] → Done (i c s) s (Goto c ((s.cx c).pc + BitVec.ofNat 16 len) 1))
    ∧ (yes ≠ [] → (∀ e ∈ live (s.cx c), ccHolds cc e.2.f = true) → Done (i c s) s (Goto c (t c s) 2))
    ∧ (yes ≠ [] → (∃ e ∈ live (s.cx c), ccHolds cc e.2.f = false) → CanPush c s →
        Done (i c s) s (Enters c cIllegal 0 0 (laneSet (yes.map (fun e => e.1))) (s.cx c).pc (s.cx c).pc))

/-- A reduction branch (R131, R179). -/
def redBranch (i : Cx → Instr) (len : Nat) (t : Cx → State → BitVec 16) (p : List (Nat × Lane) → Prop) : Prop :=
  ∀ c s, s.issues c = true →
    (p (live (s.cx c)) → Done (i c) s (Goto c (t c s) 2))
    ∧ (¬ p (live (s.cx c)) → Done (i c) s (Goto c ((s.cx c).pc + BitVec.ofNat 16 len) 1))

/-- The target of a relative branch of one word (R178). -/
def rel {n : Nat} (d : BitVec n) : Cx → State → BitVec 16 := fun c s => (s.cx c).pc + 1 + d.signExtend 16

/-- What BANY, BALL and BNONE test (R131). -/
def anyL (l : List (Nat × Lane)) : Prop := ∃ e ∈ l, fL e.2.f = true
def allL (l : List (Nat × Lane)) : Prop := l ≠ [] ∧ ∀ e ∈ l, fL e.2.f = true

/-- The enabled lanes hold one value in `r`. -/
def agree (x : Ctx) (r : R16) : Prop := ∀ e ∈ live x, e.2.r16 r = x.lead.r16 r

/-- A call goes to `t` with the address after its `len` words pushed (R146, R179). -/
def Calls (c : Cx) (len : Nat) (t : BitVec 16) (s u : State) : Prop :=
  let x := s.cx c
  u.cx c = { pushed x { pc := x.pc + BitVec.ofNat 16 len, fs := x.lanes.map (fun l => l.f), lm := x.lm, exc := false } with
      pc := t, clkUsed := x.clkUsed + 2 } ∧ OnlyCx c s u

/-- The entry that a pop takes and the stack index after it (R145). -/
def popped (x : Ctx) : StackEnt × Ctx :=
  let rsp := if x.rsFull then x.rsp else x.rsp - 1
  (SMap.get ent0 x.stack (if x.rsFull then 63 else (x.rsp - 1).toNat), { x with rsp := rsp, rsFull := false, rsPar := rspParity rsp false })

/-- The stack instructions find an entry. -/
def canPop (x : Ctx) : Prop := x.rspGood = true ∧ (x.rsFull = true ∨ x.rsp ≠ 0)

/-- A scalar context issues, and its one lane is enabled (R140). -/
def scalarLane (c : Cx) (s : State) : Prop :=
  s.issues c = true ∧ (s.cx c).scalar = true ∧ (s.cx c).lanes.length = 1 ∧ (s.cx c).enabled 0 = true

/-- Bytes a … a + n − 1 lie in the partition's data stack (R149). -/
def inData (s : State) (part : Nat) (a : BitVec 16) (n : Nat) : Prop :=
  s.fget (fPART_STACK_LO part) ≤ a.toNat ∧ a.toNat + n ≤ s.fget (fPART_STACK_HI part)

end Sys2Proof.Claims

/-- Word arithmetic and compares (R165, R168, R174), every source form. -/
def Obligations.WordInstructions : Prop :=
  (∀ r i, wordOp (fun c => .jAddw c r (.imm i)) r (wReg 2 (fun _ => i)) gAdd)
  ∧ (∀ r, wordOp (fun c => .jAddw c r .a) r (wReg 1 (fun l => l.a.setWidth 16)) gAdd)
  ∧ (∀ r, wordOp (fun c => .jAddw c r .b) r (wReg 1 (fun l => l.b.setWidth 16)) gAdd)
  ∧ (∀ r, wordOp (fun c => .jAddw c r .other) r (wReg 1 (fun l => l.r16 (other r))) gAdd)
  ∧ (∀ r o, o ≠ .postInc r → o ≠ .preDec r → wordOp (fun c => .jAddw c r (.mem o)) r (wMem o) gAdd)
  ∧ (∀ r i, wordOp (fun c => .jSubw c r (.imm i)) r (wReg 2 (fun _ => i)) gSub)
  ∧ (∀ r, wordOp (fun c => .jSubw c r .a) r (wReg 1 (fun l => l.a.setWidth 16)) gSub)
  ∧ (∀ r, wordOp (fun c => .jSubw c r .b) r (wReg 1 (fun l => l.b.setWidth 16)) gSub)
  ∧ (∀ r, wordOp (fun c => .jSubw c r .other) r (wReg 1 (fun l => l.r16 (other r))) gSub)
  ∧ (∀ r o, o ≠ .postInc r → o ≠ .preDec r → wordOp (fun c => .jSubw c r (.mem o)) r (wMem o) gSub)
  ∧ (∀ r i, wordOp (fun c => .jCmpw c r (.imm i)) r (wReg 2 (fun _ => i)) gCmp)
  ∧ (∀ r, wordOp (fun c => .jCmpw c r .other) r (wReg 1 (fun l => l.r16 (other r))) gCmp)
  ∧ (∀ r o, wordOp (fun c => .jCmpw c r (.mem o)) r (wMem o) gCmp)
  ∧ (∀ r i, wordOp (fun c => .jCpcw c r (.imm i)) r (wReg 2 (fun _ => i)) gCpc)
  ∧ (∀ r o, wordOp (fun c => .jCpcw c r (.mem o)) r (wMem o) gCpc)
  ∧ (∀ r i, wordOp (fun c => .jAdcw c r i) r (wReg 2 (fun _ => i)) (fun a b f =>
      (some (a + b + BitVec.ofNat 16 (b2n (fC f))), addFlags a b (fC f) (fL f))))
  ∧ (∀ r i, wordOp (fun c => .jSbcw c r i) r (wReg 2 (fun _ => i)) (fun a b f =>
      (some (a - b - BitVec.ofNat 16 (b2n (fC f))), subFlags a b (fC f) (fZ f) (fL f))))
  ∧ (∀ r, wordOp (fun c => .jAddws c r) r (wReg 1 (fun l => l.a.signExtend 16)) gAdd)

/-- Loads, stores, moves and products (R165, R168, R170, R171). -/
def Obligations.MoveInstructions : Prop :=
  (∀ c r o s, ¬ clash r o → Accessible c false (rgAccs r o false) s →
    Done (.jLd c r o) s (ReadOp c (mopLen o) 1 false (rgAccs r o false) (fun _ rd l =>
      loaded r (rd (mopEa o l (rgBytes r)).1.toNat (rgBytes r)) (mopEa o l (rgBytes r)).2)))
  ∧ (∀ c r o s,
      let w : Writes := fun _ _ l => [((mopEa o l (rgBytes r)).1.toNat, rgBytes r, storeVal r l)]
      Accessible c false (rgAccs r o true) s → BufRoom c s → BindOk c false (rgAccs r o true) w s →
        Done (.jSt c r o) s (StoreOp c (mopLen o) 1 false (rgAccs r o true) (fun _ _ l => (mopEa o l (rgBytes r)).2) w))
  ∧ (∀ c r o s, (∀ b, o ≠ .postInc b ∧ o ≠ .preDec b) → s.issues c = true →
      Done (.jLea c r o) s (RegOp c (mopLen o) 1 (fun l => l.set16 r (mopEa o l 2).1)))
  ∧ (∀ c i s, s.issues c = true →
      Done (.jLdiI8 c .a i) s (RegOp c 1 1 (loaded .a i.toNat)) ∧ Done (.jLdiI8 c .b i) s (RegOp c 1 1 (loaded .b i.toNat))
      ∧ (i.toNat < 32 → Done (.jLdiI8 c .f i) s (RegOp c 1 1 (loaded .f i.toNat))))
  ∧ (∀ c i s, s.issues c = true →
      Done (.jLdiI16 c .x i) s (RegOp c 2 1 (loaded .x i.toNat)) ∧ Done (.jLdiI16 c .y i) s (RegOp c 2 1 (loaded .y i.toNat)))
  ∧ (∀ c src dst s, tfrLegal src dst = true → s.issues c = true →
      (dst ≠ .dp → Done (.jTfr c src dst) s (RegOp c 1 1 (fun l => moved dst (rtValue src (s.cx c).dp l) l)))
      ∧ (dst = .dp → Done (.jTfr c src dst) s (fun s t =>
          t.cx c = { s.cx c with dp := rtValue src (s.cx c).dp (s.cx c).lead, pc := (s.cx c).pc + 1, clkUsed := (s.cx c).clkUsed + 1 }
            ∧ OnlyCx c s t)))
  ∧ (∀ c s, s.issues c = true →
      Done (.jMulu c) s (RegOp c 1 2 (fun l =>
        let p := l.a.setWidth 16 * l.b.setWidth 16
        { l with x := p, f := mkFlags false p.msb false (decide (p = 0)) (fL l.f) }))
      ∧ Done (.jMuls c) s (RegOp c 1 2 (fun l =>
        let p := l.a.signExtend 16 * l.b.signExtend 16
        { l with x := p, f := mkFlags false p.msb false (decide (p = 0)) (fL l.f) })))

/-- LCC and its forms, and the instructions on L alone (R167, R175, R186). -/
def Obligations.LogicBitInstructions : Prop :=
  ∀ c s, s.issues c = true →
    (∀ cc, Done (.jLcc c cc) s (RegOp c 1 1 (fun l => { l with f := withL l.f (ccHolds cc l.f) })))
    ∧ (∀ cc, Done (.jLccAnd c cc) s (RegOp c 1 1 (fun l => { l with f := withL l.f (fL l.f && ccHolds cc l.f) })))
    ∧ (∀ cc, Done (.jLccOr c cc) s (RegOp c 1 1 (fun l => { l with f := withL l.f (fL l.f || ccHolds cc l.f) })))
    ∧ Done (.jNotl c) s (RegOp c 1 1 (fun l => { l with f := withL l.f (!fL l.f) }))
    ∧ Done (.jSetl c) s (RegOp c 1 1 (fun l => { l with f := withL l.f true }))
    ∧ Done (.jClrl c) s (RegOp c 1 1 (fun l => { l with f := withL l.f false }))

/-- The bit instructions into L (R176). -/
def Obligations.BitLogicInstructions : Prop :=
  bitIn .jLdb (fun _ b => b) ∧ bitIn .jLdbn (fun _ b => !b) ∧ bitIn .jAndb (fun l b => l && b) ∧ bitIn .jAndbn (fun l b => l && !b)
  ∧ bitIn .jOrb (fun l b => l || b) ∧ bitIn .jOrbn (fun l b => l || !b) ∧ bitIn .jXorb (fun l b => xor l b)
  ∧ bitIn .jXorbn (fun l b => xor l (!b))

/-- The output instructions on registers and on memory (R176, R177). -/
def Obligations.BitOutputInstructions : Prop :=
  (bitOutReg .jOut (fun _ => true) (fun l _ => l) ∧ bitOutReg .jOutn (fun _ => true) (fun l _ => !l)
    ∧ bitOutReg .jSetb (fun l => l) (fun _ _ => true) ∧ bitOutReg .jRstb (fun l => l) (fun _ _ => false)
    ∧ bitOutReg .jTglb (fun l => l) (fun _ b => !b))
  ∧ bitOutMem .jOut (fun _ => true) (fun l _ => l) ∧ bitOutMem .jOutn (fun _ => true) (fun l _ => !l)
  ∧ bitOutMem .jSetb (fun l => l) (fun _ _ => true) ∧ bitOutMem .jRstb (fun l => l) (fun _ _ => false)
  ∧ bitOutMem .jTglb (fun l => l) (fun _ b => !b)

/-- Conditional branches (R130): taken, not taken, or ILLEGAL where the enabled lanes disagree. -/
def Obligations.ConditionalBranches : Prop :=
  (∀ cc (d : BitVec 6), condBranch (fun c _ => .jBr c cc d) cc 1 (rel d)) ∧ (∀ cc t, condBranch (fun c _ => .jBrl c cc t) cc 2 (fun _ _ => t))

/-- Reduction branches test L over the enabled lanes (R131). -/
def Obligations.ReductionBranches : Prop :=
  (∀ d : BitVec 8, redBranch (fun c => .jBany c d) 1 (rel d) anyL ∧ redBranch (fun c => .jBall c d) 1 (rel d) allL
    ∧ redBranch (fun c => .jBnone c d) 1 (rel d) (fun l => ¬ anyL l))
  ∧ (∀ t, redBranch (fun c => .jBanyl c t) 2 (fun _ _ => t) anyL ∧ redBranch (fun c => .jBalll c t) 2 (fun _ _ => t) allL
    ∧ redBranch (fun c => .jBnonel c t) 2 (fun _ _ => t) (fun l => ¬ anyL l))

/-- Jumps and calls (R146, R178 … R180): the target, the return entry, and RSTACK and ILLEGAL where they are raised; with no enabled lane the
value of JMPX and CALLX is lane 0's. -/
def Obligations.JumpsAndCalls : Prop :=
  ∀ c s, s.issues c = true →
    (∀ d : BitVec 10, Done (.jJmps c d) s (Goto c (rel d c s) 2)) ∧ (∀ t, Done (.jJmp c t) s (Goto c t 2))
    ∧ (∀ r, agree (s.cx c) r → Done (.jJmpx c r) s (Goto c ((s.cx c).lead.r16 r) 2))
    ∧ (∀ r, ¬ agree (s.cx c) r → CanPush c s → Done (.jJmpx c r) s (Enters c cIllegal 0 0
        (laneSet (((live (s.cx c)).filter (fun e => decide (e.2.r16 r ≠ (s.cx c).lead.r16 r))).map (fun e => e.1))) (s.cx c).pc (s.cx c).pc)
      ∧ Done (.jCallx c r) s (Enters c cIllegal 0 0
        (laneSet (((live (s.cx c)).filter (fun e => decide (e.2.r16 r ≠ (s.cx c).lead.r16 r))).map (fun e => e.1))) (s.cx c).pc (s.cx c).pc))
    ∧ (CanPush c s → (s.cx c).rsp ≠ 63 → (∀ t, Done (.jCall c t) s (Calls c 2 t))
        ∧ (∀ r, agree (s.cx c) r → Done (.jCallx c r) s (Calls c 1 ((s.cx c).lead.r16 r))))
    ∧ (CanPush c s → (s.cx c).rsp = 63 → (∀ t, Done (.jCall c t) s (Enters c cRstack 0 0 (s.cx c).enabledSet (s.cx c).pc (s.cx c).pc))
        ∧ (∀ r, agree (s.cx c) r → Done (.jCallx c r) s (Enters c cRstack 0 0 (s.cx c).enabledSet (s.cx c).pc (s.cx c).pc)))
    ∧ ((s.cx c).lm = 0 → ∀ r, agree (s.cx c) r ∧ (s.cx c).lead = (s.cx c).lanes.headD {})

/-- Returns (R145, R146): RET restores PC alone, RTE also every lane's F and LM; an empty stack raises RSTACK. -/
def Obligations.Returns : Prop :=
  ∀ c s, s.issues c = true → (s.cx c).rspGood = true →
    (canPop (s.cx c) →
      Done (.jRet c) s (fun s t => t.cx c = { (popped (s.cx c)).2 with pc := (popped (s.cx c)).1.pc, clkUsed := (s.cx c).clkUsed + 3 }
        ∧ OnlyCx c s t)
      ∧ Done (.jRte c) s (fun s t => t.cx c = { (popped (s.cx c)).2 with
            pc := (popped (s.cx c)).1.pc, lm := (popped (s.cx c)).1.lm, clkUsed := (s.cx c).clkUsed + 3
            lanes := (s.cx c).lanes.mapIdx (fun i l => { l with f := (popped (s.cx c)).1.fs.getD i l.f }) }
        ∧ OnlyCx c s t))
    ∧ ((s.cx c).rsFull = false → (s.cx c).rsp = 0 →
      Done (.jRet c) s (Enters c cRstack 0 0 (s.cx c).enabledSet (s.cx c).pc (s.cx c).pc)
      ∧ Done (.jRte c) s (Enters c cRstack 0 0 (s.cx c).enabledSet (s.cx c).pc (s.cx c).pc))

/-- PUSH and POP (R148, R149, R152, R181). In a scalar context whose lane is enabled, at a DP whose bytes lie in LO … HI − 1 and whose
access raises nothing, each answers the next state with DP moved by the bytes; with the lane disabled each moves on alone; a byte outside
the data stack raises STACK_BOUNDS, which an ADDR or PERM of the access itself outranks; in a lane context both raise ILLEGAL. -/
def Obligations.DataStack : Prop :=
  (∀ c r s, scalarLane c s → BufRoom c s →
    let a := (s.cx c).dp - BitVec.ofNat 16 (rgBytes r)
    let accs : Nat → Lane → List Access := fun _ _ => [⟨a.toNat, rgBytes r, true⟩]
    let w : Writes := fun _ _ l => [(a.toNat, rgBytes r, storeVal r l)]
    inData s (s.cx c).part a (rgBytes r) → Accessible c false accs s → BindOk c false accs w s →
      ∃ u, StoreOp c 1 1 false accs (fun _ _ l => l) w s u ∧ exec (.jPush c r) s = .next (u.setCx c { u.cx c with dp := a }))
  ∧ (∀ c r s, scalarLane c s →
    let a := (s.cx c).dp
    let accs : Nat → Lane → List Access := fun _ _ => [⟨a.toNat, rgBytes r, false⟩]
    inData s (s.cx c).part a (rgBytes r) → Accessible c false accs s →
      ∃ u, ReadOp c 1 1 false accs (fun _ rd l => loaded r (rd a.toNat (rgBytes r)) l) s u
        ∧ exec (.jPop c r) s = .next (u.setCx c { u.cx c with dp := a + BitVec.ofNat 16 (rgBytes r) }))
  ∧ (∀ c r s, s.issues c = true → (s.cx c).scalar = true → (s.cx c).enabled 0 = false →
      Done (.jPush c r) s (Goto c ((s.cx c).pc + 1) 1) ∧ Done (.jPop c r) s (Goto c ((s.cx c).pc + 1) 1))
  ∧ (∀ c r s, scalarLane c s → CanPush c s →
      let x := s.cx c
      let a := x.dp - BitVec.ofNat 16 (rgBytes r)
      (¬ inData s x.part a (rgBytes r) → s.accTrap x 0 ⟨a.toNat, rgBytes r, true⟩ = none →
        Done (.jPush c r) s (Enters c cStackBounds a.toNat 0 x.enabledSet x.pc x.pc))
      ∧ (¬ inData s x.part x.dp (rgBytes r) → s.accTrap x 0 ⟨x.dp.toNat, rgBytes r, false⟩ = none →
        Done (.jPop c r) s (Enters c cStackBounds x.dp.toNat 0 x.enabledSet x.pc x.pc))
      ∧ (∀ e bar, s.accTrap x 0 ⟨x.dp.toNat, rgBytes r, false⟩ = some (cAddr, e, bar) →
        s.needsMigration x ⟨x.dp.toNat, rgBytes r, false⟩ = false →
        Done (.jPop c r) s (Enters c cAddr e bar 1 x.pc x.pc)))
  ∧ (∀ c r s, s.issues c = true → (s.cx c).scalar = false → CanPush c s →
      let x := s.cx c
      Done (.jPush c r) s (Enters c cIllegal 0 0 x.enabledSet x.pc x.pc) ∧ Done (.jPop c r) s (Enters c cIllegal 0 0 x.enabledSet x.pc x.pc))


namespace Sys2Proof.Claims

/-! ### Records, LM, events and the system instructions -/

/-- Little-endian number of `n` bytes at `a`, the addresses modulo 2^16. -/
def at16 (a i : Nat) : Nat := (a + i) % 0x10000

/-- A timer's accesses: the record is read, and ET, STAMP and STATE are written (R182). -/
def timerAccs (o : ROp) : Nat → Lane → List Access := fun _ l =>
  [⟨(ropEa o l).toNat, 8, false⟩, ⟨at16 (ropEa o l).toNat 2, 6, true⟩]

/-- A timer's new ET and Q from PT, ET, Q and IN, the input and the units elapsed (R183). -/
abbrev TimerRule := Nat → Nat → Bool → Bool → Bool → Nat → Nat × Bool

def ton : TimerRule := fun pt et _ pin l d =>
  if l = false then (0, false) else if pin = false then (0, decide (pt = 0)) else (min pt (et + d), decide (min pt (et + d) = pt))
def tof : TimerRule := fun pt et q pin l d =>
  if l = true then (0, true) else if pin = true then (0, decide (pt ≠ 0))
  else if q = true then (min pt (et + d), decide (min pt (et + d) < pt)) else (et, q)
def tp : TimerRule := fun pt et q pin l d =>
  if q = true then (min pt (et + d), decide (min pt (et + d) < pt))
  else if l = true ∧ pin = false then (0, decide (pt ≠ 0)) else (et, q)

/-- A timer's ET, Q and base-unit count now, in a lane. -/
def timerOut (x : Ctx) (b : BitVec 2) (g : TimerRule) (o : ROp) (rd : Nat → Nat → Nat) (l : Lane) : Nat × Bool × Nat :=
  let a := (ropEa o l).toNat
  let base := [1000, 100000, 10000000, 1000000000].getD b.toNat 0
  let now := x.tSample / base % 2 ^ 24
  let d := (now + 2 ^ 24 - rd (at16 a 4) 3) % 2 ^ 24
  let p := g (rd a 2) (rd (at16 a 2) 2) (bitOf (rd (at16 a 7) 1) 0) (bitOf (rd (at16 a 7) 1) 1) (fL l.f) d
  (p.1, p.2, now)

/-- A timer instruction. -/
def timerOp (i : Cx → BitVec 2 → ROp → Instr) (g : TimerRule) : Prop :=
  ∀ c b o s,
    let w : Writes := fun _ rd l =>
      let a := (ropEa o l).toNat
      let p := timerOut (s.cx c) b g o rd l
      [(at16 a 2, 2, p.1), (at16 a 4, 3, p.2.2), (at16 a 7, 1, b2n p.2.1 + 2 * b2n (fL l.f))]
    Accessible c false (timerAccs o) s → BufRoom c s → BindOk c false (timerAccs o) w s →
      Done (i c b o) s (StoreOp c (ropLen o) 3 false (timerAccs o)
        (fun _ rd l => { l with f := withL l.f (timerOut (s.cx c) b g o rd l).2.1 }) w)

/-- A counter's accesses: the record is read, and CV and STATE are written where L lets the operation act. -/
def counterAccs (wr : Bool → Bool) (o : ROp) : Nat → Lane → List Access := fun _ l =>
  ⟨(ropEa o l).toNat, 5, false⟩ :: (if wr (fL l.f) then [⟨at16 (ropEa o l).toNat 2, 3, true⟩] else [])

/-- A counter instruction that acts where `wr` holds of L: from L, PV, CV and STATE the new CV, STATE and L (R185). -/
def counterOp (i : Cx → ROp → Instr) (wr : Bool → Bool) (g : Bool → Nat → Nat → Nat → Nat × Nat × Bool) : Prop :=
  ∀ c o s,
    let accs := counterAccs wr o
    let r (rd : Nat → Nat → Nat) (l : Lane) : Nat × Nat × Bool :=
      let a := (ropEa o l).toNat
      g (fL l.f) (rd a 2) (rd (at16 a 2) 2) (rd (at16 a 4) 1)
    let w : Writes := fun _ rd l =>
      let a := (ropEa o l).toNat
      if wr (fL l.f) then [(at16 a 2, 2, (r rd l).1), (at16 a 4, 1, (r rd l).2.1)] else []
    Accessible c false accs s → BufRoom c s → BindOk c false accs w s →
      Done (i c o) s (StoreOp c (ropLen o) 2 false accs (fun _ rd l => { l with f := withL l.f (r rd l).2.2 }) w)

/-- STATE of a counter from Q, PU, PD and OV. -/
def cst (q pu pd ov : Bool) : Nat := b2n q + 2 * b2n pu + 4 * b2n pd + 128 * b2n ov

/-- An edge instruction: L from L and PREV; PREV takes the old L (R185). -/
def edgeOp (i : Cx → ROp → Instr) (g : Bool → Bool → Bool) : Prop :=
  ∀ c o s,
    let accs : Nat → Lane → List Access := fun _ l => [⟨(ropEa o l).toNat, 1, false⟩, ⟨(ropEa o l).toNat, 1, true⟩]
    let w : Writes := fun _ _ l => [((ropEa o l).toNat, 1, b2n (fL l.f))]
    Accessible c false accs s → BufRoom c s → BindOk c false accs w s →
      Done (i c o) s (StoreOp c (ropLen o) 1 false accs
        (fun _ rd l => { l with f := withL l.f (g (fL l.f) (bitOf (rd (ropEa o l).toNat 1) 0)) }) w)

/-- An instruction on LM: the bit of each lane that exists is `g` of its old value and L; the other bits become 0 (R129). -/
def lmOp (i : Cx → Instr) (g : Bool → Bool → Bool) : Prop :=
  ∀ c s, s.issues c = true →
    Done (i c) s (fun s t => ∃ m : BitVec 256,
      (∀ k < 256, m.getLsbD k = (decide (k < (s.cx c).lanes.length) && g ((s.cx c).lm.getLsbD k) (fL ((s.cx c).lanes.getD k {}).f)))
      ∧ t.cx c = { s.cx c with lm := m, pc := (s.cx c).pc + 1, clkUsed := (s.cx c).clkUsed + 1 } ∧ OnlyCx c s t)

/-- The context stalls, and nothing else changes. -/
def Stalls (c : Cx) (st : Stall) (s t : State) : Prop :=
  t.cx c = { s.cx c with stall := some st } ∧ t = { s with ctxs := t.ctxs } ∧ OtherCxs c s t

/-- The context waits for its writes: it stalls, its buffered writes enter the fabric as far as they find tags, and none is lost
(spec/12_twin_presses.md R380). -/
def Drains (c : Cx) (k : After) (s t : State) : Prop :=
  t.cx c = { s.cx c with stall := some (.fence k s.lt.toNat), buf := (t.cx c).buf, released := (t.cx c).released }
    ∧ (∀ v ∈ (s.cx c).buf, v ∈ (t.cx c).buf ∨ ∃ r ∈ t.inflight, r.cx = some (cxIdx c) ∧ r.bytes = v.bytes)
    ∧ (∀ r ∈ s.inflight, r ∈ t.inflight) ∧ t.outstanding c = s.outstanding c
    ∧ t = { s with ctxs := t.ctxs, regs := t.regs, inflight := t.inflight } ∧ OtherCxs c s t ∧ RegsBut [fFAB_TAGS_IN_USE.off] s t

/-- An instruction that waits as FENCE does: with writes outstanding it stalls, and else `p` holds (R155, R157). -/
def Fenced (i : Cx → Instr) (k : After) (c : Cx) (s : State) (p : State → State → Prop) : Prop :=
  (s.outstanding c = 0 → Settled c s → Done (i c) s (Reads c p)) ∧ (s.outstanding c ≠ 0 → Done (i c) s (Reads c (Drains c k)))

/-- The sources a partition may send and await (R96). -/
def maySend (s : State) (n e : Nat) : Prop :=
  e = 128 + n ∨ ∃ j < 2, s.fget (fPART_SEV_BIND_SRC0 n j) = e ∨ s.fget (fPART_SEV_BIND_SRC1 n j) = e
def mayWait (s : State) (n e : Nat) : Prop :=
  e = 128 + n ∨ ∃ j < 4, s.fget (fPART_WAIT_BIND_SRC0 n j) = e ∨ s.fget (fPART_WAIT_BIND_SRC1 n j) = e

/-- Event source `e` asserted at the router: latched, or merged into one not yet served (R206, R207). -/
def Asserted (e : Nat) (s t : State) : Prop :=
  SMap.get (fun _ => false) t.evLatch e = true
  ∧ (SMap.get (fun _ => false) s.evLatch e = true → t.fget fEVT_STAT_MERGED = 1
      ∧ t.fget fEVT_CNT_MERGE_COUNT = (s.fget fEVT_CNT_MERGE_COUNT + 1) % 2 ^ 32)
  ∧ (∀ q, q ≠ e → SMap.get (fun _ => false) t.evLatch q = SMap.get (fun _ => false) s.evLatch q)

/-- The registers that asserting source `e` may change. -/
def evRegs (e : Nat) : List Nat := [fEVT_CNT_MERGE_COUNT.off, fEVT_STAT_MERGED.off, (fEVT_SRC_CNT_COUNT e).off]

/-- The context goes on after a waited instruction of one word, 4 clocks, 3 of them stalled. -/
def goesOn (c : Cx) (s t : State) : Prop :=
  t.cx c = { s.cx c with pc := (s.cx c).pc + 1, clkUsed := (s.cx c).clkUsed + 4 } ∧ OtherCxs c s t

/-- The context belongs to a partition and a row that exist. -/
def InRange (c : Cx) (s : State) : Prop := (s.cx c).part < 256 ∧ (s.cx c).row < 512

/-- A wait instruction that ends at once with the source that woke it (R209). -/
def wakes (c : Cx) (src : Nat) (s t : State) : Prop :=
  t.cx c = { s.cx c with wakeSrc := src, pc := (s.cx c).pc + 1, clkUsed := (s.cx c).clkUsed + 1 } ∧ OtherCxs c s t

/-- The source is consumed (R209). -/
def consumes (c : Cx) (e : Nat) (s t : State) : Prop :=
  wakes c e s t ∧ RegsBut (clockRegs c) s t
    ∧ (t.part (s.cx c).part) = { s.part (s.cx c).part with pend := (s.part (s.cx c).part).pend.filter (fun q => decide (q ≠ e)) }
    ∧ (∀ n, n ≠ (s.cx c).part → t.part n = s.part n)
    ∧ t = { s with ctxs := t.ctxs, regs := t.regs, busyAcc := t.busyAcc, parts := t.parts }

/-- The context waits for an event, a deadline or both. -/
def waitsFor (c : Cx) (e : Nat) (dl : Option Nat) (s t : State) : Prop :=
  t.cx c = { s.cx c with stall := some (.event e dl none) } ∧ OtherCxs c s t ∧ t.fget (fPAIR_STAT_STATE (cxPage c)) = stWait
    ∧ RegsBut [(fPAIR_STAT_STATE (cxPage c)).off] s t ∧ t = { s with ctxs := t.ctxs, regs := t.regs }

end Sys2Proof.Claims

/-- TON, TOF and TP (R182, R183): ET, STAMP, STATE and L in every enabled lane. -/
def Obligations.Timers : Prop := timerOp .jTon ton ∧ timerOp .jTof tof ∧ timerOp .jTp tp

/-- CTU, CTD, REDGE and FEDGE by R185; that CRES and CLD write nothing with L = 0 is the model's reading (log 15). -/
def Obligations.CountersAndEdges : Prop :=
  counterOp .jCtu (fun _ => true) (fun l pv cv st =>
    let up := l && !bitOf st 1
    let cv1 := if up ∧ cv ≠ 0xFFFF then cv + 1 else cv
    let q := decide (pv ≤ cv1)
    (cv1, cst q l (bitOf st 2) (bitOf st 7 || (up && decide (cv = 0xFFFF))), q))
  ∧ counterOp .jCtd (fun _ => true) (fun l _ cv st =>
    let dn := l && !bitOf st 2
    let cv1 := if dn ∧ cv ≠ 0 then cv - 1 else cv
    let q := decide (cv1 = 0)
    (cv1, cst q (bitOf st 1) l (bitOf st 7 || (dn && decide (cv = 0))), q))
  ∧ counterOp .jCres (fun l => l) (fun l _ _ st => (0, cst false (bitOf st 1) (bitOf st 2) (bitOf st 7), l))
  ∧ counterOp .jCld (fun l => l) (fun l pv _ st => (pv, cst false (bitOf st 1) (bitOf st 2) (bitOf st 7), l))
  ∧ edgeOp .jRedge (fun l p => l && !p) ∧ edgeOp .jFedge (fun l p => p && !l)

/-- NOP and the instructions on the lane mask (R129, R186); LMSAVE and LMLOAD act in every lane. -/
def Obligations.LaneMask : Prop :=
  (∀ c s, s.issues c = true → Done (.jNop c) s (Goto c ((s.cx c).pc + 1) 1))
  ∧ lmOp .jLmall (fun _ _ => true) ∧ lmOp .jLmand (fun m l => m && l) ∧ lmOp .jLmandn (fun m l => m && !l)
  ∧ lmOp .jLmor (fun m l => m || l)
  ∧ (∀ c o s, (∀ l ∈ (s.cx c).lanes, (mopEa o l 1).1.toNat < 0x100) →
      let wa : Nat → Lane → List Access := fun _ l => [⟨(mopEa o l 1).1.toNat, 1, true⟩]
      let ra : Nat → Lane → List Access := fun _ l => [⟨(mopEa o l 1).1.toNat, 1, false⟩]
      let w : Writes := fun i _ l => [((mopEa o l 1).1.toNat, 1, b2n ((s.cx c).lm.getLsbD i))]
      (Accessible c true wa s → Done (.jLmsave c o) s (StoreOp c (mopLen o) 1 true wa (fun _ _ l => (mopEa o l 1).2) w))
      ∧ (Accessible c true ra s → Done (.jLmload c o) s (fun s t =>
          (∀ k < 256, (t.cx c).lm.getLsbD k = (decide (k < (s.cx c).lanes.length)
              && bitOf (s.reader c true ra k (mopEa o ((s.cx c).lanes.getD k {}) 1).1.toNat 1) 0))
          ∧ (t.cx c).lanes = (s.cx c).lanes.map (fun l => (mopEa o l 1).2)
          ∧ (t.cx c).pc = (s.cx c).pc + BitVec.ofNat 16 (mopLen o) ∧ OnlyRead c s t)))
  ∧ (∀ c o s, s.issues c = true → CanPush c s → (∃ l ∈ (s.cx c).lanes, 0x100 ≤ (mopEa o l 1).1.toNat) →
      ∃ lanes addr, Done (.jLmsave c o) s (Enters c cAddr addr 0 lanes (s.cx c).pc (s.cx c).pc)
        ∧ Done (.jLmload c o) s (Enters c cAddr addr 0 lanes (s.cx c).pc (s.cx c).pc))

/-- END, FENCE, BRK and TRIG (R54, R155, R157, R186). -/
def Obligations.SystemInstructions : Prop :=
  (∀ c s, s.issues c = true → Fenced (fun c => .jFence c) .fence c s (Goto c ((s.cx c).pc + 1) 1))
  ∧ (∀ c s, s.issues c = true → CanPush c s →
      Done (.jBrk c) s (Enters c cBreak 0 0 (s.cx c).enabledSet (s.cx c).pc ((s.cx c).pc + 1)))
  ∧ (∀ c t s, s.issues c = true → Fenced (fun c => .jTrig c t) (.trig t.toNat) c s (fun s u =>
      let x := s.cx c
      let ls := (x.acting false).filter (fun e => fL e.2.f)
      goesOn c s u ∧ RegsBut (clockRegs c) s u
      ∧ u.triggers = s.triggers ++ (if ls = [] then [] else
          [{ kind := 1, arg := x.part * 256 + t.toNat, row := if x.scalar then x.bind / 256 else x.row
             lanes := if x.scalar then laneSet [x.bind % 256] else laneSet (ls.map (fun e => e.1)) }])
      ∧ u = { s with ctxs := u.ctxs, regs := u.regs, busyAcc := u.busyAcc, triggers := u.triggers }))
  ∧ (∀ (k : Fin 34) s, s.issues (.press k) = true → InRange (.press k) s → Fenced (fun c => .jEnd c) .finish (.press k) s (fun s t =>
      let x := s.cx (.press k)
      t.cx (.press k) = { x with running := false, ended := true, clkUsed := x.clkUsed + 1 }
      ∧ t.fget (fPAIR_STAT_STATE (pressPage k.val)) = stWb ∧ t.fget (fSCHED_ROW_STAT_CLAIM x.row) = clWb
      ∧ (t.part x.part).est = (let l := (s.part x.part).est ++ [x.clkUsed + 1]; l.drop (l.length - 16))
      ∧ ((s.row x.row).jobLate = false → (s.row x.row).counted x.cycle = false → (s.row x.row).dec x.cycle = none →
          (t.row x.row).dec x.cycle = some (if (s.row x.row).stopped = some x.cycle then 9 else 1))
      ∧ (∀ r, r ≠ x.row → t.row r = s.row r) ∧ (∀ n, n ≠ x.part → t.part n = s.part n)
      ∧ t = { s with ctxs := t.ctxs, regs := t.regs, busyAcc := t.busyAcc, rows := t.rows, parts := t.parts }
      ∧ OtherCxs (.press k) s t))
  ∧ (∀ (j : Fin 16) s, s.issues (.scalar j) = true → Fenced (fun c => .jEnd c) .finish (.scalar j) s (fun s t =>
      let x := s.cx (.scalar j)
      t.cx (.scalar j) = x.rest ∧ t.fget (fPAIR_STAT_STATE (scalarPage j.val)) = stIdle
      ∧ t.part x.part = { s.part x.part with scalarOn := none } ∧ (∀ n, n ≠ x.part → t.part n = s.part n)
      ∧ t = { s with ctxs := t.ctxs, regs := t.regs, parts := t.parts, busyAcc := t.busyAcc } ∧ OtherCxs (.scalar j) s t))

/-- SEV, WFE and WUNTIL (R96, R158, R186, R209): reserved sources raise ILLEGAL, unbound ones PERM. -/
def Obligations.EventInstructions : Prop :=
  ∀ c (e : BitVec 10) s, s.issues c = true →
    let x := s.cx c
    let v := e.toNat
    (v < 768 → maySend s x.part v → (x.scalar = true → x.part = 0 → v ≠ 128) → Fenced (fun c => .jSev c e) (.sev v) c s (fun s t =>
        goesOn c s t ∧ Asserted v s t ∧ RegsBut (clockRegs c ++ evRegs v) s t
        ∧ t = { s with ctxs := t.ctxs, regs := t.regs, busyAcc := t.busyAcc, evLatch := t.evLatch }))
    ∧ (v < 768 → mayWait s x.part v → v ∈ (s.part x.part).pend → Done (.jWfe c e) s (Reads c (consumes c v)) ∧ Done (.jWuntil c e) s (Reads c (consumes c v)))
    ∧ (v < 768 → mayWait s x.part v → v ∉ (s.part x.part).pend → Done (.jWfe c e) s (Reads c (waitsFor c v none)))
    ∧ ((v = 0x3FF ∨ (v < 768 ∧ mayWait s x.part v ∧ v ∉ (s.part x.part).pend)) →
        (x.deadline ≤ s.lt.toNat → Done (.jWuntil c e) s (fun s t => wakes c 0x3FF s t ∧ OnlyCx c s t))
        ∧ (s.lt.toNat < x.deadline → Done (.jWuntil c e) s (Reads c (waitsFor c v (some x.deadline)))))
    ∧ (CanPush c s →
        (768 ≤ v → Done (.jSev c e) s (Enters c cIllegal 0 0 x.enabledSet x.pc x.pc)
          ∧ Done (.jWfe c e) s (Enters c cIllegal 0 0 x.enabledSet x.pc x.pc)
          ∧ (v ≠ 0x3FF → Done (.jWuntil c e) s (Enters c cIllegal 0 0 x.enabledSet x.pc x.pc)))
        ∧ (v < 768 → ¬ maySend s x.part v → Done (.jSev c e) s (Enters c cPerm 0 0 x.enabledSet x.pc x.pc))
        ∧ (v < 768 → ¬ mayWait s x.part v → Done (.jWfe c e) s (Enters c cPerm 0 0 x.enabledSet x.pc x.pc)
          ∧ Done (.jWuntil c e) s (Enters c cPerm 0 0 x.enabledSet x.pc x.pc)))

/-- The mailbox instructions and their round trip (R157, R187, R471). -/
def Obligations.MailboxInstructions : Prop :=
  ∀ c (ch : BitVec 7) s, s.issues c = true →
    let x := s.cx c
    let h := ch.toNat
    let n := 4 * s.mbxWords h
    let q : Access := ⟨x.lead.x.toNat, n, false⟩
    let y := s.readCtx x [(x.leadLane, q)]
    (s.mbxSends h x.part = true → s.outstanding c = 0 → s.needsMigration x q = false → s.accTrap x x.leadLane q = none →
      Done (.jGoSend c ch) s (fun s t => ∃ msg : List Word,
        msg.length = s.mbxWords h
        ∧ (∀ i < s.mbxWords h, (msg.getD i 0).toNat = s.laneRead c y x.leadLane ((x.lead.x.toNat + 4 * i) % 0x10000) 4)
        ∧ t.cx c = { y with stall := some (.mbxSend h msg), clkUsed := (t.cx c).clkUsed }
        ∧ x.clkUsed + 4 ≤ (t.cx c).clkUsed ∧ OnlyRead c s t))
    ∧ (s.mbxSends h x.part = true → s.outstanding c ≠ 0 → s.needsMigration x q = false → s.accTrap x x.leadLane q = none →
      Done (.jGoSend c ch) s (fun s t => ∃ msg : List Word,
        msg.length = s.mbxWords h
        ∧ (∀ i < s.mbxWords h, (msg.getD i 0).toNat = s.laneRead c y x.leadLane ((x.lead.x.toNat + 4 * i) % 0x10000) 4)
        ∧ (t.cx c).stall = some (.fence (.goSend h msg) s.lt.toNat) ∧ (t.cx c).pc = x.pc ∧ (t.cx c).lanes = x.lanes
        ∧ t.outstanding c = s.outstanding c ∧ OtherCxs c s t))
    ∧ (s.mbxReceives h x.part = true → (∀ e ∈ live x, s.accTrap x e.1 ⟨e.2.x.toNat, n, true⟩ = none) →
      Done (.jMread c ch) s (Reads c (Stalls c (.mbxRead h))))
    ∧ (s.mbxReceives h x.part = true → Fenced (fun c => .jGoDone c ch) (.goDone h (x.lead.x.toNat % 256)) c s (fun s t =>
        (s.mgt.down = false → goesOn c s t
          ∧ (s.fbit (fMBX_CH_STAT_GO h) = true → t.fget (fMBX_CH_STAT_GO h) = 0 ∧ t.fget (fMBX_CH_STAT_DONE h) = 1
              ∧ t.fget (fMBX_ACK_CODE h) = 2 ∧ t.fget (fMBX_ACK_USER h) = x.lead.x.toNat % 256 ∧ t.fget (fMBX_CH_STAT_LAST h) = 3)
          ∧ (s.fbit (fMBX_CH_STAT_GO h) = false → t.fget fMBX_STAT_IGNORED = 1
              ∧ RegsBut (clockRegs c ++ [fMBX_CNT_IGNORED_COUNT.off, fMBX_STAT_IGNORED.off]) s t)
          ∧ t = { s with ctxs := t.ctxs, regs := t.regs, busyAcc := t.busyAcc, evLatch := t.evLatch })
        ∧ (s.mgt.down = true → CanPush c s → (t.cx c).excCause = cBus ∧ (t.cx c).excPc = x.pc + 1
          ∧ (t.cx c).pc = BitVec.ofNat 16 x.ver.entry ∧ t.fget (fMBX_CH_STAT_GO h) = s.fget (fMBX_CH_STAT_GO h))))
    ∧ (CanPush c s →
        (s.mbxSends h x.part = false → Done (.jGoSend c ch) s (Enters c cPerm 0 0 x.enabledSet x.pc x.pc))
        ∧ (s.mbxReceives h x.part = false → Done (.jGoDone c ch) s (Enters c cPerm 0 0 x.enabledSet x.pc x.pc)
          ∧ Done (.jMread c ch) s (Enters c cPerm 0 0 x.enabledSet x.pc x.pc)))

/-- Exceptions outside an instruction's own effect (R151 … R154, R161, R162): what is pushed, and a double fault where it cannot be. -/
def Obligations.Exceptions : Prop :=
  (∀ c w s, s.issues c = true → CanPush c s →
    Done (.undefinedOpcode c w) s (Enters c cIllegal 0 0 (s.cx c).enabledSet (s.cx c).pc (s.cx c).pc)
    ∧ Done (.instructionFetchFault c false) s (Enters c cAddr 0 0 (s.cx c).enabledSet (s.cx c).pc (s.cx c).pc))
  ∧ (∀ c s, s.issues c = true → InRange c s → (s.cx c).part ≠ 0 → Done (.instructionFetchFault c true) s (fun s t =>
      t.fget (fPART_STAT_CAUSE (s.cx c).part) = 5 ∧ t.partMode (s.cx c).part = 1 ∧ t.fget fSYS_ERR_STAT_INTEG_CRIT = 1))
  ∧ (∀ c addr lanes s, s.mainRuns = true → (s.cx c).running = true →
    ((s.cx c).defersExc = false → CanPush c s →
      Done (.busPostedWrite c addr lanes) s (Enters c cBus 0 addr lanes (s.cx c).pc (s.cx c).pc))
    ∧ ((s.cx c).defersExc = true → Done (.busPostedWrite c addr lanes) s (fun s t =>
        t.cx c = { s.cx c with busPend := some (cBus, addr, lanes) } ∧ t = { s with ctxs := t.ctxs } ∧ OtherCxs c s t)))
  ∧ (∀ (k : Fin 34) s, s.mainRuns = true → (s.cx (.press k)).running = true →
    let x := s.cx (.press k)
    (x.toSeen = false → x.defersExc = false → CanPush (.press k) s → 1250 * s.bc ≤ x.clkUsed → Done (.execTimeout k) s (fun s t =>
      (t.cx (.press k)).toSeen = true ∧ (t.cx (.press k)).excCause = cTimeout ∧ (t.cx (.press k)).excLanes = x.enabledSet
      ∧ (t.cx (.press k)).pc = BitVec.ofNat 16 x.ver.entry ∧ (t.cx (.press k)).stall = none ∧ (t.cx (.press k)).lanes = x.lanes
      ∧ OtherCxs (.press k) s t ∧ t = { s with ctxs := t.ctxs, regs := t.regs, busyAcc := t.busyAcc }))
    ∧ (x.toSeen = false → x.defersExc = true → Done (.execTimeout k) s (fun s t =>
      t.cx (.press k) = { x with clkUsed := max x.clkUsed (1250 * s.bc), toSeen := true, toPend := true }
      ∧ t = { s with ctxs := t.ctxs } ∧ OtherCxs (.press k) s t))
    ∧ (x.toSeen = true → x.rspGood = true → InRange (.press k) s → Done (.execTimeout k) s (fun _ t =>
      t.fget (fPART_STAT_CAUSE x.part) = 4 ∧ t.partMode x.part = 1)))
  ∧ (∀ c w s, s.issues c = true → (s.cx c).rspGood = true → (s.cx c).rsFull = true → InRange c s →
    Done (.undefinedOpcode c w) s (fun _ t => t.fget (fPART_STAT_CAUSE (s.cx c).part) = 4 ∧ t.partMode (s.cx c).part = 1))

namespace Sys2Proof.Claims

/-! ### The block: steps, time, the scheduler, conversion, the step sequencer -/

/-- The fields hold the values. -/
def Holds (t : State) (l : List (Fld × Nat)) : Prop := ∀ e ∈ l, t.fget e.1 = e.2

/-- A saturating field has counted one (R198). -/
def Counted (f : Fld) (s t : State) : Prop := t.fget f = min (s.fget f + 1) (2 ^ (f.hi + 1 - f.lo) - 1)

/-- Event source `e` is latched at the router. -/
def latched (t : State) (e : Nat) : Prop := SMap.get (fun _ => false) t.evLatch e = true

/-- Memory is as before outside [lo, hi). -/
def MemBut (lo hi : Nat) (s t : State) : Prop := ∀ a, (a < lo ∨ hi ≤ a) → t.rdB a = s.rdB a

/-- A command that changes nothing where a condition fails. -/
def Idle (i : Instr) (s : State) : Prop := exec i s = .next s

/-- The rows listed in the scheduler's data exist. -/
def RowsOk (s : State) : Prop := ∀ e ∈ s.rows, e.1 < 512

/-- The canonical form of the register file and of the image, table and program stores; and the rows with scheduler data exist. -/
def Canonical (s : State) : Prop := SMap.wf regReset s.regs = true ∧ SMap.wf store0 s.mem = true ∧ RowsOk s

/-- A command is applied to a channel of partition `n` (R248): the partition is not stopped, EXPECT fits and the status admits it. -/
def CmdOk (s : State) (n ch code : Nat) (expect : BitVec 16) : Prop :=
  s.owner (ch / 256) = some n ∧ s.partMode n ≠ 1 ∧ (expect.toNat = 0xFFFF ∨ (s.stepSt ch).step % 0x8000 = expect.toNat)
    ∧ cmdApplies code (s.stepSt ch).status = true

/-- Every other channel's step state stands. -/
def OtherSteps (ch : Nat) (s t : State) : Prop := ∀ d < 131072, d ≠ ch → t.stepSt d = s.stepSt d

/-- A step state that an accepted command has touched: STALE and BADCMD are clear. -/
def fresh (o : StepSt) : StepSt := (o.setFlag 3 false).setFlag 4 false

/-- The channel has entered `step` (R241). -/
def Entered (ch step : Nat) (t : State) : Prop :=
  let v := t.stepSt ch
  v.step = step ∧ v.status = 1 ∧ v.elapsed = 0 ∧ v.charge = 0 ∧ v.energy = 0 ∧ v.deb = 0 ∧ bitOf v.flags 6 = true

/-- The channel has ended with a status and REST at an open relay (R238, R249). -/
def Ended (ch status cause : Nat) (t : State) : Prop :=
  (t.stepSt ch).status = status ∧ (t.stepSt ch).lastEnd = cause ∧ t.rdList (outAddr ch) 8 = restBytes

/-- No estimate and no copy of the host's waits to be staged (R267). -/
def noneStaged (s : State) : Prop := s.estWait = [] ∧ s.copyWait = false

/-- What the start of a context keeps on its pair: the EXC fields, WAKE_SRC and the latch of LT_NOW (R123, R139). -/
def kept (x y : Ctx) : Prop :=
  y.excCause = x.excCause ∧ y.excLane = x.excLane ∧ y.excPc = x.excPc ∧ y.excAddr = x.excAddr ∧ y.excBar = x.excBar ∧ y.excLanes = x.excLanes
    ∧ y.wakeSrc = x.wakeSrc ∧ y.ltNow = x.ltNow

/-- A command of the step sequencer by its code. -/
abbrev CmdMk := Fin 131072 → CmdSrc → BitVec 8 → BitVec 16 → BitVec 16 → Instr

/-- The step index in the partition's active bank. -/
def inBank (s : State) (n i : Nat) : Nat := s.fget (fSTEP_PART_BANK_ACTIVE n) * 0x8000 + i

/-- A command that ends the step for the target `g` of the current entry, or enters it where the booking need not grow. -/
def ending (mk : CmdMk) (code : Nat) (g : StepEnt → BitVec 16 → Nat) : Prop :=
  ∀ (ch : Fin 131072) src a8 a16 ex n s, CmdOk s n ch.val code ex → (s.stepSt ch.val).live = true →
    (code ≤ 2 → s.targetOk n a16.toNat = true) →
    ∀ e u, s.readEntry n (s.stepSt ch.val).step = (.ok e, u) →
      (g e a16 = 0x7FFF → Done (mk ch src a8 a16 ex) s (fun s t => Ended ch.val 6 (cmdCause src) t ∧ OtherSteps ch.val s t
          ∧ (e.result = false → t.booked ch.val = 0)))
      ∧ (g e a16 < 0x7FFF → ∀ ne w, u.readEntry n (inBank s n (g e a16)) = (.ok ne, w) →
          raises (w.booked ch.val) (w.estimate ch.val ne (s.sample ch.val).v) = false →
          (s.stepSt ch.val).status = 1 → (∀ b, s.booking ch.val = some b → b.kind ≠ .tentative) →
          Done (mk ch src a8 a16 ex) s (fun s t => Entered ch.val (inBank s n (g e a16)) t ∧ OtherSteps ch.val s t
            ∧ (t.stepSt ch.val).lastEnd = cmdCause src ∧ (e.result = false → t.booked ch.val = w.estimate ch.val ne (s.sample ch.val).v)))

end Sys2Proof.Claims

/-- A step takes the command at the front of the queue and runs it with the queue's rest. -/
def Obligations.StepRunsFrontCommand : Prop :=
  ∀ (c : Instr) (s : State), step { s with pending := c :: s.pending } = exec c s

/-- On an empty queue one fabric clock passes: line time and its fraction advance by 1 + ADJ × 2^−32 ns (R191). That an idle step is a
fabric clock is the model's choice (log 12). -/
def Obligations.IdleStepIsAFabricClock : Prop :=
  ∀ s : State, s.pending = [] →
    let adj : Int := sgn 32 (s.reg rEVT_LT_ADJ).toNat
    ∃ t, step s = .next t
      ∧ (s.ltFrac < 2 ^ 32 → s.lt.toNat < 2 ^ 63 →
          (t.lt.toNat : Int) * 2 ^ 32 + t.ltFrac = (s.lt.toNat : Int) * 2 ^ 32 + s.ltFrac + 2 ^ 32 + adj ∧ t.ltFrac < 2 ^ 32)
      ∧ t.pending = [] ∧ t.cycle = s.cycle ∧ t.tn = s.tn
      ∧ (s.fbit fCONV_PERSIST_BUSY = false → (∀ e ∈ s.ctxs, e.2.buf = []) →
          RegsBut [fTIME_SLEW_LEFT_NS.off, fTIME_STAT_SLEWING.off] s t
          ∧ t = { s with lt := t.lt, ltFrac := t.ltFrac, wall := t.wall, regs := t.regs })

/-- The module after reset: no command waits, no cycle has run, the module and every partition are in STOP, the phase is STARTING,
every context is idle, no request is in flight, the registers and the stores are in canonical form, and no row is listed. -/
def Obligations.ResetState : Prop :=
  let s := State.reset
  s.pending = [] ∧ s.started = false ∧ s.inflight = [] ∧ (∀ c, (s.cx c).running = false) ∧ Canonical s
  ∧ Holds s [(fSYS_MODULE_MODE_CUR, 1), (fRST_START_PHASE, phStarting), (fWDT_STAT_STATE, 0), (fSCHED_STAT_OVERCOMMIT, 0)]
  ∧ (∀ n < 256, s.partMode n = 1) ∧ (∀ r < 512, s.owner r = none)

/-- Every step keeps the register file and the image, table and program stores in their canonical form, and lists no row beyond 511. -/
def Obligations.StepKeepsCanonicalForm : Prop :=
  ∀ s t : State, Canonical s → step s = .next t → Canonical t

/-- The cycle boundary on a module that executes (R44, R57, R194): once line time has reached the next T(n) the cycle number and T(n)
advance by one base cycle and CYCLE is raised, and line time is not moved; before it nothing happens. -/
def Obligations.CycleBoundary : Prop :=
  ∀ s : State, s.fget fRST_START_PHASE = phOperating → s.started = true → s.active = true → s.rack.takeAt = none →
    (s.tn.toNat + s.bc * 1000 ≤ s.lt.toNat → Done .cycleBoundary s (fun s t =>
      t.cycle = s.cycle + 1 ∧ t.tn = s.tn + BitVec.ofNat 64 (s.bc * 1000) ∧ t.started = true ∧ latched t 672
      ∧ t.lt = s.lt ∧ t.ltFrac = s.ltFrac ∧ t.pending = s.pending))
    ∧ (s.lt.toNat < s.tn.toNat + s.bc * 1000 → Idle .cycleBoundary s)

/-- Placement: a free frame takes the one ready row of class S or F and its load starts, under a tag of the pair's loader; the system
records are latched at its issue (R63, R65, R74, R108, R115). -/
def Obligations.Placement : Prop :=
  ∀ s (k i r n : Nat), s.mainRuns = true → RowsOk s → s.spareNow = [] → s.freeFrames = [(k, i)] → s.readyRows = [r] → s.owner r = some n → s.classOf r ≤ 1 →
    Done .placementDecision s (fun s t =>
      let m := (s.row r).job.getD 0
      t.frame k i = { row := some r, part := n, cycle := m, late := (s.row r).jobLate, sysrec := s.sysRecords n r m (s.row r).jobLate }
      ∧ (∃ q, t.inflight = s.inflight ++ [q] ∧ q.frm = some (k, i) ∧ q.initiator = inLoader k ∧ q.master = n ∧ q.write = false
          ∧ q.addr = rowBase r ∧ q.void = false ∧ q.ruleEpoch = s.fget fPART_RULE_EPOCH ∧ ∀ p ∈ s.inflight, p.tag ≠ q.tag)
      ∧ Holds t [(fSCHED_ROW_STAT_CLAIM r, clLoading), (fSCHED_ROW_STAT_PAIR r, k)]
      ∧ (∀ k' i', i' < 2 → (k', i') ≠ (k, i) → t.frame k' i' = s.frame k' i')
      ∧ t = { s with frames := t.frames, regs := t.regs, inflight := t.inflight, free := t.free })

/-- Frame load and the start of an execution (R53, R65, R117, R121, R123, R124, R136): a load whose claim was released completes without
filling a frame; what the press control range keeps is kept by the start. -/
def Obligations.FrameLoadAndStart : Prop :=
  (∀ (k : Fin 34) (i : Fin 2) s r, s.mainRuns = true → (s.frame k.val i.val).row = some r → r < 512 → (s.frame k.val i.val).loaded = false →
    (∀ q ∈ s.inflight, q.frm = some (k.val, i.val) → q.void = false) → (s.row r).convWait = none → noneStaged s →
    Done (.frameLoadDone k i) s (fun s t =>
      let f := t.frame k.val i.val
      f.loaded = true ∧ f.row = some r ∧ Holds t [(fSCHED_ROW_STAT_CLAIM r, clLoaded)]
      ∧ (∀ o, 0x2000 ≤ o → o < 0x3000 → f.mem.rd o = s.rdB (rowBase r + o))
      ∧ ((s.row r).old (s.frame k.val i.val).cycle = none → (∀ o < 0x2000, f.mem.rd o = s.rdB (rowBase r + o))
          ∧ (∀ o, 0x3000 ≤ o → o < 0x5000 → f.mem.rd o = if o % 32 < 0x18 then s.rdB (rowBase r + o) else 0)
          ∧ (s.arrBit (rPART_GRF_ROWMIG 0) r = true → ∀ o, 0x5000 ≤ o → o < 0x9000 → f.mem.rd o = s.rdB (rowBase r + o)))
      ∧ f.sysrec = (s.frame k.val i.val).sysrec ∧ RegsBut [(fSCHED_ROW_STAT_CLAIM r).off, fFAB_TAGS_IN_USE.off] s t
      ∧ t = { s with frames := t.frames, regs := t.regs, inflight := t.inflight, linesAcc := s.linesAcc + 288 }))
  ∧ (∀ (k : Fin 34) (i : Fin 2) s, ((s.frame k.val i.val).row = none ∨ (s.frame k.val i.val).loaded = true) →
      (∀ q ∈ s.inflight, q.frm ≠ some (k.val, i.val)) → Idle (.frameLoadDone k i) s)
  ∧ (∀ (k : Fin 34) (i : Fin 2) s, s.mainRuns = true → (∃ q ∈ s.inflight, q.frm = some (k.val, i.val)) →
      (∀ q ∈ s.inflight, q.frm = some (k.val, i.val) → q.void = true) →
      Done (.frameLoadDone k i) s (fun s t => t.inflight.length < s.inflight.length ∧ RegsBut [fFAB_TAGS_IN_USE.off] s t
        ∧ t = { s with inflight := t.inflight, regs := t.regs }))
  ∧ (∀ (k : Fin 34) (i : Fin 2) s r, s.fget (fPAIR_STAT_STATE (pressPage k.val)) = stIdle → s.fget fRST_START_PHASE < phFlush →
      (s.frame k.val i.val).row = some r → r < 512 → (s.frame k.val i.val).loaded = true → s.fget (fSCHED_ROW_STAT_CLAIM r) = clLoaded →
      (s.frame k.val (1 - i.val)).loaded = false →
      Done (.executionStart k) s (fun s t =>
        let x := t.cx (.press k)
        let f := s.frame k.val i.val
        x.running = true ∧ x.scalar = false ∧ x.part = f.part ∧ x.row = r ∧ x.cycle = f.cycle ∧ x.frame = i.val ∧ x.ver = (s.part f.part).run
        ∧ x.lanes = List.replicate 256 {} ∧ x.pc = 0 ∧ x.dp = BitVec.ofNat 16 (s.fget (fPART_STACK_HI f.part)) ∧ x.rsp = 0 ∧ x.rsFull = false ∧ x.rspGood = true ∧ x.lm = BitVec.allOnes 256
        ∧ x.clkUsed = 16 ∧ x.scratch = [] ∧ x.stall = none ∧ x.sysrec = f.sysrec
        ∧ kept (s.cx (.press k)) x
        ∧ Holds t [(fPAIR_STAT_STATE (pressPage k.val), stExec), (fSCHED_ROW_STAT_CLAIM r, clExec)] ∧ OtherCxs (.press k) s t
        ∧ t = { s with ctxs := t.ctxs, regs := t.regs, inflight := t.inflight, busyAcc := s.busyAcc + 16 }))

/-- The start of a scalar context (R121, R123, R140, R645): the pair takes the waiting partition, PC 2, DP at STACK_HI, its bound channel. -/
def Obligations.ScalarStart : Prop :=
  ∀ (j : Fin 16) s n m, s.active = true → s.fget (fPAIR_STAT_STATE (scalarPage j.val)) = stIdle → (s.cx (.scalar j)).running = false →
    s.fget fRST_START_PHASE < phFlush → (s.part n).scalarWait = some m →
    s.fget (fPART_CFG_SCALAR_PAIR n) = j.val → (∀ e ∈ s.parts, e.2.scalarWait.isSome = true → s.fget (fPART_CFG_SCALAR_PAIR e.1) = j.val → e.1 = n) →
    Done (.scalarStart j) s (fun s t =>
      let x := t.cx (.scalar j)
      x.running = true ∧ x.scalar = true ∧ x.part = n ∧ x.cycle = m ∧ x.ver = (s.part n).run ∧ x.lanes = [{}] ∧ x.pc = 2
      ∧ x.dp = BitVec.ofNat 16 (s.fget (fPART_STACK_HI n)) ∧ x.bind = s.fget (fPART_BIND_CH_CH n) ∧ x.lm = 1 ∧ x.rspGood = true ∧ x.clkUsed = 16
      ∧ kept (s.cx (.scalar j)) x ∧ (t.part n).scalarWait = none ∧ (t.part n).scalarOn = some m ∧ (∀ q, q ≠ n → t.part q = s.part q) ∧ OtherCxs (.scalar j) s t
      ∧ t = { s with ctxs := t.ctxs, regs := t.regs, parts := t.parts, inflight := t.inflight, free := t.free })

/-- Write-back of an execution that wrote no command (R54, R136): the output section and the written granules reach the image store, and
nothing else of the stores changes; the pair is idle again. -/
def Obligations.WriteBack : Prop :=
  ∀ (k : Fin 34) s, s.mainRuns = true → (s.cx (.press k)).ended = true → (s.cx (.press k)).row < 512 → (s.cx (.press k)).cmdLanes = 0 →
    (s.cx (.press k)).migrated = false → (∀ g ∈ (s.cx (.press k)).granules, 0x500 ≤ g ∧ g < 0x900) →
    Done (.writeBack k) s (fun s t =>
      let x := s.cx (.press k)
      let f := (s.frame k.val x.frame).mem
      (∀ o, 0x2000 ≤ o → o < 0x3000 → t.rdB (rowBase x.row + o) = f.rd o)
      ∧ (∀ o, 0x5000 ≤ o → o < 0x9000 → t.rdB (rowBase x.row + o) = if o / 16 ∈ x.granules then f.rd o else s.rdB (rowBase x.row + o))
      ∧ (∀ a, (∀ o, (0x2000 ≤ o ∧ o < 0x3000) ∨ (0x5000 ≤ o ∧ o < 0x9000) → a ≠ rowBase x.row + o) → t.rdB a = s.rdB a)
      ∧ t.cx (.press k) = x.rest ∧ (t.frame k.val x.frame).row = none ∧ Holds t [(fPAIR_STAT_STATE (pressPage k.val), stIdle)]
      ∧ ((s.row x.row).next = [] → (t.row x.row).job = none ∧ (s.migrating x.row = false → t.fget (fSCHED_ROW_STAT_CLAIM x.row) = clNone))
      ∧ (∀ m late l, (s.row x.row).next = (m, late) :: l → (t.row x.row).job = some m ∧ (t.row x.row).jobLate = late ∧ (t.row x.row).next = l
          ∧ (s.migrating x.row = false → t.fget (fSCHED_ROW_STAT_CLAIM x.row) = clReady))
      ∧ (∀ r, r ≠ x.row → t.row r = s.row r) ∧ OtherCxs (.press k) s t)

/-- Cut-offs, the latest ripe instant and the pour slot (R51, R54, R64, R67, R68, R71). -/
def Obligations.CutoffsAndPour : Prop :=
  (∀ (r : Fin 512) s m, s.mainRuns = true → s.cutoffCycle r.val = some m → (s.row r.val).job = some m → (s.row r.val).dec m = none → (s.row r.val).stretched ≠ some m →
    (s.classOf r.val ≤ 1 → Done (.pourCutoff r) s (fun s t =>
      (t.row r.val).dec m = some 2 ∧ (t.row r.val).stretched = some m ∧ (t.row r.val).jobLate = true ∧ (t.row r.val).next = []
      ∧ Holds t [(fSCHED_STAT_STRETCH, 1), (fSCHED_ROW_STAT_LATE r.val, 1)]
      ∧ (s.classOf r.val = 0 → t.fget fSCHED_STAT_S_LATE = 1 ∧ latched t 676)
      ∧ (∀ q, q ≠ r.val → t.row q = s.row q)))
    ∧ (2 ≤ s.classOf r.val → s.fget (fSCHED_ROW_STAT_CLAIM r.val) = clReady → (s.row r.val).counted m = false → s.migrating r.val = false →
      Done (.pourCutoff r) s (fun s t =>
      (t.row r.val).dec m = some 3 ∧ Holds t [(fSCHED_STAT_SKIP_LOAD, 1)]
      ∧ ((s.row r.val).next = [] → (t.row r.val).job = none ∧ t.fget (fSCHED_ROW_STAT_CLAIM r.val) = clNone)
      ∧ (∀ q late l, (s.row r.val).next = (q, late) :: l → (t.row r.val).job = some q ∧ t.fget (fSCHED_ROW_STAT_CLAIM r.val) = clReady)
      ∧ (∀ q, q ≠ r.val → t.row q = s.row q)))
    ∧ (2 ≤ s.classOf r.val → s.fget (fSCHED_ROW_STAT_CLAIM r.val) ≠ clReady → s.migrating r.val = false → Done (.pourCutoff r) s (fun s t =>
      (t.row r.val).dec m = some 4 ∧ (t.row r.val).job = some m ∧ Holds t [(fSCHED_STAT_SKIP_LOAD, 1)]
      ∧ (∀ q, q ≠ r.val → t.row q = s.row q))))
  ∧ (∀ (r : Fin 512) s p k, s.mainRuns = true → s.posOf r.val = some (p, k) → (s.row r.val).convWait = none → noneStaged s →
      let n := s.ripeCycle r.val
      (s.row r.val).ripe ≠ some n → (s.row r.val).noHarvest ≠ some n → s.planAt p n = none →
      Done (.latestRipe r) s (fun s t =>
        (t.row r.val).noHarvest = some n ∧ Counted (fSCHED_ROW_STAT_NOHARV_RUN r.val) s t ∧ (∀ q, q ≠ r.val → t.row q = s.row q) ∧ t.mem = s.mem
        ∧ (∀ o, s.owner r.val = some o → s.partMode o = 0 → s.rowDue o r.val n = true →
            Holds t [(fSCHED_STAT_NO_HARVEST, 1)] ∧ latched t (384 + 4 * p + 1))
        ∧ (∀ o, s.owner r.val = some o → s.partMode o = 1 → t.fget fSCHED_STAT_NO_HARVEST = s.fget fSCHED_STAT_NO_HARVEST)))
  ∧ (∀ (p : Fin 32) (k : Fin 16) s r out,
      s.mainRuns = true → s.rowAt p.val k.val = r → r < 512 → s.portEn p.val = true → k.val < s.boards p.val → s.cycle.toNat ≠ 0 → s.active = true →
      s.tn.toNat + s.slotOfs p.val k.val ≤ s.lt.toNat → (s.row r).poured ≠ some (s.cycle.toNat - 1) →
      (s.row r).dec (s.cycle.toNat - 1) = some 1 → (s.row r).pours.find? (fun e => decide (e.1 = s.cycle.toNat - 1)) = some (s.cycle.toNat - 1, some out) →
      (s.row r).stretched = none → out.length = 4096 → s.fget fRST_START_PHASE = phOperating → s.fget (fTRL_POS_STAT_STATE p.val k.val) = 3 → s.portSends p.val = true →
      Done (.pourWindow p k) s (fun s t =>
        (∃ d, t.out = { medium := .trellis, dst := p.val, kind := 2, data := d } :: s.out
          ∧ d.take 14 = [3, 0, 0, 0, 0, 1] ++ nats (s.macAddr p.val) ++ [0x88, 0xB5]
          ∧ (d.drop 46).take 2048 = (List.range 256).flatMap (fun l => ((out.drop (16 * l)).take 8).map (fun b => b.toNat)))
        ∧ (t.row r).outcome = 1 ∧ (t.row r).poured = some (s.cycle.toNat - 1) ∧ t.fget (fSCHED_ROW_STAT_OUTCOME r) = 1
        ∧ (∀ q, q ≠ r → t.row q = s.row q) ∧ t.mem = s.mem))

/-- Ripening and the step pass of a row (R49, R241, R253): every lane's input record is stamped with the cycle; STEP_ROW_PASS takes it; with
no owner, or a stopped one, every channel rests at an open relay and a live step ends with STOPPED. -/
def Obligations.RipeningAndStepPass : Prop :=
  (∀ (r : Fin 512) s p k n, s.mainRuns = true → (s.row r.val).harv = some n → s.cycle.toNat ≤ n + 1 → (s.row r.val).ripe ≠ some n →
      (s.row r.val).noHarvest ≠ some n → s.posOf r.val = some (p, k) → (s.row r.val).convWait = none → noneStaged s →
      (s.loadWaits r.val = false → Done (.rowRipe r) s (fun s t =>
        (t.row r.val).ripe = some n ∧ Holds t [(fSCHED_ROW_STAT_NOHARV_RUN r.val, 0)]
        ∧ (∀ l < 256, leAt (t.rdList (rowBase r.val + 32 * l) 32) 0x18 4 = n % 2 ^ 32)
        ∧ (∀ q, q ≠ r.val → t.row q = s.row q)))
      ∧ (s.loadWaits r.val = true → Done (.rowRipe r) s (fun s t =>
        t.row r.val = { s.row r.val with convWait := some n } ∧ Holds t [(fSCHED_STAT_RIPE_DELAY, 1)]
        ∧ Counted fSCHED_CNT_RIPEDLY_COUNT s t ∧ (∀ q, q ≠ r.val → t.row q = s.row q) ∧ t = { s with rows := t.rows, regs := t.regs })))
  ∧ (∀ (r : Fin 512) s c, s.mainRuns = true → (s.row r.val).ripe = some c → (s.row r.val).passed ≠ some c → s.cycle.toNat ≤ c + 1 →
      (∀ n, s.owner r.val = some n → s.partMode n = 1) →
      Done (.stepPass r) s (fun s t =>
        (t.row r.val).passed = some c ∧ (t.reg (rSTEP_ROW_PASS r.val)).toNat = c % 2 ^ 32
        ∧ (∀ l < 256, let ch := r.val * 256 + l
            t.rdList (outAddr ch) 8 = restBytes
            ∧ ((s.stepSt ch).live = true → (t.stepSt ch).status = 0 ∧ (t.stepSt ch).lastEnd = 8))
        ∧ (∀ q, q ≠ r.val → t.row q = s.row q)))

/-- Step commands that change a running or held step in place (R248): HOLD_STEP, RELEASE, SET_LOOP, ZERO; NONE does nothing. -/
def Obligations.StepCommandsInPlace : Prop :=
  ∀ (ch : Fin 131072) src (a8 : BitVec 8) (a16 ex : BitVec 16) s,
    let o := fresh (s.stepSt ch.val)
    let p (v : StepSt) (s t : State) : Prop :=
      t.stepSt ch.val = v ∧ MemBut (stepAddr ch.val) (stepAddr ch.val + 32) s t
        ∧ t = { s with mem := t.mem, stepMap := t.stepMap, ledgQ := t.ledgQ }
    Idle (.cmdNone ch src a8 a16 ex) s
    ∧ (∀ n, CmdOk s n ch.val 7 ex → Done (.cmdHoldStep ch src a8 a16 ex) s (p ({ o with status := 4 }.setFlag 2 false)))
    ∧ (∀ n, CmdOk s n ch.val 8 ex → Done (.cmdRelease ch src a8 a16 ex) s (p { o with status := 1, deb := 0 }))
    ∧ (∀ n, CmdOk s n ch.val 9 ex → Done (.cmdSetLoop ch src a8 a16 ex) s (p { o with loop := a8.toNat }))
    ∧ (∀ n, CmdOk s n ch.val 10 ex → Done (.cmdZero ch src a8 a16 ex) s (p { o with charge := 0, energy := 0, qFrac := 0, eFrac := 0 }))

/-- Step commands that end or start a step (R245, R248, R249, R287): END and FAULT rest the channel; NEXT, ALT and GOTO enter the target
where the booking need not grow; START starts an idle channel with LOOP 0. -/
def Obligations.StepCommandsThatMove : Prop :=
  ending .cmdEnd 5 (fun _ _ => 0x7FFF) ∧ ending .cmdNext 3 (fun e _ => e.next) ∧ ending .cmdAlt 4 (fun e _ => e.alt)
  ∧ ending .cmdGoto 2 (fun _ a => a.toNat)
  ∧ (∀ (ch : Fin 131072) src a8 a16 ex n s, CmdOk s n ch.val 6 ex → (s.stepSt ch.val).live = true →
      ∀ e u, s.readEntry n (s.stepSt ch.val).step = (.ok e, u) →
        Done (.cmdFault ch src a8 a16 ex) s (fun s t => Ended ch.val 5 (cmdCause src) t ∧ OtherSteps ch.val s t))
  ∧ (∀ (ch : Fin 131072) src a8 (a16 ex : BitVec 16) n s, CmdOk s n ch.val 1 ex → (s.stepSt ch.val).live = false →
      s.targetOk n a16.toNat = true → a16.toNat < 0x7FFF →
      ∀ ne w, s.readEntry n (inBank s n a16.toNat) = (.ok ne, w) → raises (w.booked ch.val) (w.estimate ch.val ne (s.sample ch.val).v) = false →
        Done (.cmdStart ch src a8 a16 ex) s (fun s t => Entered ch.val (inBank s n a16.toNat) t ∧ (t.stepSt ch.val).loop = 0
          ∧ t.booked ch.val = w.estimate ch.val ne (s.sample ch.val).v ∧ OtherSteps ch.val s t))

/-- Step commands that are discarded (R248): STALE with no owner, in STOP, at another step or in another status; BADCMD at a target out
of range. A command of a scalar pair acts on arrival (R646). -/
def Obligations.StepCommandsDiscarded : Prop :=
  (∀ (ch : Fin 131072) src a8 a16 ex s (mk : CmdMk) (code : Nat),
    (mk, code) ∈ [((.cmdStart : CmdMk), 1), (.cmdGoto, 2), (.cmdNext, 3), (.cmdAlt, 4), (.cmdEnd, 5), (.cmdFault, 6), (.cmdHoldStep, 7),
      (.cmdRelease, 8), (.cmdSetLoop, 9), (.cmdZero, 10)] →
    (∀ n, ¬ CmdOk s n ch.val code ex) →
    Done (mk ch src a8 a16 ex) s (fun s t =>
      t.stepSt ch.val = (s.stepSt ch.val).setFlag 3 true ∧ MemBut (stepAddr ch.val) (stepAddr ch.val + 32) s t
      ∧ Holds t [(fSTEP_STAT_STALE, 1)] ∧ Counted fSTEP_CNT_STALE_COUNT s t ∧ RegsBut [fSTEP_STAT_STALE.off, fSTEP_CNT_STALE_COUNT.off] s t
      ∧ t = { s with mem := t.mem, regs := t.regs }))
  ∧ (∀ (ch : Fin 131072) src a8 (a16 ex : BitVec 16) n s, s.targetOk n a16.toNat = false →
      let p (s t : State) : Prop := t.stepSt ch.val = (s.stepSt ch.val).setFlag 4 true ∧ Holds t [(fSTEP_STAT_BADCMD, 1)]
        ∧ Counted fSTEP_CNT_BADCMD_COUNT s t ∧ MemBut (stepAddr ch.val) (stepAddr ch.val + 32) s t
      (CmdOk s n ch.val 1 ex → Done (.cmdStart ch src a8 a16 ex) s p) ∧ (CmdOk s n ch.val 2 ex → Done (.cmdGoto ch src a8 a16 ex) s p))
  ∧ (∀ (j : Fin 16) (ch : Fin 131072) s q, s.scalarCmds.find? (fun q => decide (q.cx = 64 + j.val)) = some q → q.ch = ch.val →
      s.mainRuns = true → (s.cx (.scalar j)).stall = none →
      let u : State := { s with scalarCmds := s.scalarCmds.erase q }
      let a8 : BitVec 8 := BitVec.ofNat 8 (leAt q.bytes 1 1)
      let a16 : BitVec 16 := BitVec.ofNat 16 (leAt q.bytes 2 2)
      let ex : BitVec 16 := BitVec.ofNat 16 (leAt q.bytes 4 2)
      ∀ (mk : CmdMk) (code : Nat), (mk, code) ∈ [((.cmdNone : CmdMk), 0), (.cmdStart, 1), (.cmdGoto, 2), (.cmdNext, 3), (.cmdAlt, 4),
          (.cmdEnd, 5), (.cmdFault, 6), (.cmdHoldStep, 7), (.cmdRelease, 8), (.cmdSetLoop, 9), (.cmdZero, 10)] →
        leAt q.bytes 0 1 = code → ∃ t, exec (mk ch .prog a8 a16 ex) u = .next t ∧ exec (.scalarCommandHandover j) s = .next t
          ∧ t.scalarCmds = s.scalarCmds.erase q)

/-- The calibration engine (R269, R276, R277, R280, R281): a taste's deviations and HAVE bit enter the entry; a staged set waits for the
next epoch; saves and the restore. -/
def Obligations.Calibration : Prop :=
  (∀ (ch : Fin 131072) s q l u, s.mainRuns = true → s.tastes.find? (fun t => decide (t.ch = ch.val)) = some q → (q.point = 0 ∨ q.point = 1) →
      ({ s with tastes := s.tastes.erase q }).coefRd ch.val = (some l, u) → bitsOf (leAt l 0 1) 3 2 = 0 →
      Done (.tasteEstimate ch) s (fun s t =>
        let m := t.rdList (t.coefAddr ch.val) 32
        t.tastes = s.tastes.erase q ∧ leAt m (0x18 + 2 * q.point) 2 = unsgn 16 q.dv ∧ leAt m (0x1C + 2 * q.point) 2 = unsgn 16 q.di
        ∧ bitOf (leAt m 0 1) (2 + q.point) = true
        ∧ (∀ o < 32, o ≠ 0 → (o < 0x18 + 2 * q.point ∨ 0x1A + 2 * q.point ≤ o) → (o < 0x1C + 2 * q.point ∨ 0x1E + 2 * q.point ≤ o) → m.getD o 0 = l.getD o 0)
        ∧ MemBut (s.coefAddr ch.val) (s.coefAddr ch.val + 32) s t))
  ∧ (∀ s, s.mainRuns = true → s.fbit fCONV_EPOCH_REQ = true → s.stageHeld = true → Done .stageCopyDone s (fun s t => t = { s with copyWait := true }))
  ∧ (∀ s, s.mainRuns = true → s.fbit fCONV_EPOCH_REQ = true → s.stageHeld = false → s.fget fCONV_STAGE_CNT_COUNT = 0 → s.calHost = false →
      Done .stageCopyDone s (fun s t => Holds t [(fCONV_EPOCH_REQ, 0), (fCONV_EPOCH_BUSY, 0)] ∧ t = { s with regs := t.regs }))
  ∧ (∀ s q u v l ch, s.mainRuns = true → s.fbit fCONV_EPOCH_REQ = true → s.stageHeld = false → s.fget fCONV_STAGE_CNT_COUNT = 1 →
      s.tblRd (tblAt (s.fget fCONV_TBL_STAGE_BASE * 4096)) 16 = (some q, u) → leAt q 0 4 = ch → ch < 131072 → leAt q 0x0E 1 = 0 → leAt q 0x0F 1 = 0 →
      u.coefRd ch = (some l, v) →
      Done .stageCopyDone s (fun s t =>
        let m := t.rdList (t.coefAddr ch) 32
        t.calStaged = true ∧ t.calHost = true ∧ leAt m 2 2 = (s.fget fCONV_EPOCH_CUR + 1) % 65536 ∧ bitOf (leAt m 0 1) 6 = true
        ∧ bitsOf (leAt m 0 1) 3 2 = 0 ∧ t.fget fCONV_EPOCH_REQ = 1))
  ∧ (∀ s, s.lt.toNat < s.calSince + 60000000000 * s.fget fCONV_PERSIST_PERIOD → Idle .periodicCalSave s)
  ∧ (∀ s, s.mainRuns = true → s.fget fSYS_MODULE_MODE_CUR = 0 → s.fget fCONV_PERSIST_PERIOD ≠ 0 →
      s.calSince + 60000000000 * s.fget fCONV_PERSIST_PERIOD ≤ s.lt.toNat →
      (s.fbit fCONV_PERSIST_BUSY = false → Done .periodicCalSave s (fun s t => Holds t [(fCONV_PERSIST_BUSY, 1)]
        ∧ RegsBut [fCONV_PERSIST_BUSY.off] s t ∧ t = { s with regs := t.regs, calSince := s.lt.toNat, calRows := 0, calBad := 0 }))
      ∧ (s.fbit fCONV_PERSIST_BUSY = true → Idle .periodicCalSave s))
  ∧ (∀ s rows, s.fbit fCONV_PERSIST_BUSY = true → s.fbit fCONV_PERSIST_RESTORED = true →
      Done (.calSaveDone rows) s (fun s t => Holds t [(fCONV_PERSIST_BUSY, 0), (fCONV_PERSIST_SAVE, 0),
        (fCONV_PERSIST_STAT_EPOCH, s.fget fCONV_EPOCH_CUR), (fCONV_PERSIST_STAT_RESULT, if 512 ≤ rows then 1 else 3)]))
  ∧ (∀ s, s.fbit fCONV_PERSIST_BUSY = true → s.fbit fCONV_PERSIST_RESTORED = false →
      Done .calRestoreDone s (fun _ t => Holds t [(fCONV_PERSIST_BUSY, 0), (fCONV_PERSIST_RESTORED, 1)]))

namespace Sys2Proof.Claims

/-! ### Fabric, twins, reflexes, grafts, events, the field link -/

/-- No pair holds a write in its compare buffer. -/
def NoneBuffered (s : State) : Prop := ∀ e ∈ s.ctxs, e.2.buf = []

/-- The cycle of the second boundary from now: T(0) begins cycle 0 (R44, R398). -/
def secondNext (s : State) : Nat := s.cycle.toNat + if s.started || s.rack.beat.isSome then 2 else 1

/-- The version slots and graft state of every other partition stand. -/
def OtherParts (n : Nat) (s t : State) : Prop := ∀ q, q ≠ n → t.part q = s.part q

/-- A mailbox round trip ends: the context goes on at the next instruction with L set in its enabled lanes (R187, R188). -/
def answered (c : Cx) (l : Bool) (s t : State) : Prop :=
  ∃ n, 335 ≤ n ∧ (t.cx c).lanes = (s.cx c).lanes.mapIdx (fun i e => if (s.cx c).enabled i then { e with f := withL e.f l } else e)
    ∧ (t.cx c).pc = (s.cx c).pc + 1 ∧ (t.cx c).stall = none ∧ (t.cx c).clkUsed = (s.cx c).clkUsed + n ∧ OtherCxs c s t

/-- A field frame passes the checks of header, link and generation (R311) on an active module. -/
def HdrOk (s : State) (p : Fin 32) (h : TrHdr) : Prop := s.portHears p.val = true ∧ h.port = p.val ∧ h.gen = s.fget fTRL_GEN_GEN

/-- A HARVEST frame that R313 takes: its position and state, row, cycle, instant. -/
def Harvested (s : State) (p : Fin 32) (h : TrHdr) : Prop :=
  h.src < s.boards p.val ∧ h.src < 16 ∧ s.fget (fTRL_POS_STAT_STATE p.val h.src) ∈ [posMeasured, posReady, posLost]
    ∧ s.rowAt p.val h.src = h.row ∧ h.row < 512 ∧ h.cycle = s.cycle.toNat % 2 ^ 32 ∧ (s.row h.row).harv ≠ some s.cycle.toNat
    ∧ s.lt.toNat < s.latestRipeAt p.val h.src s.cycle.toNat ∧ (s.row h.row).noHarvest ≠ some s.cycle.toNat

/-- Where the harvest of a row in cycle `n` is kept. -/
def harvestAt (n r : Nat) : Nat := 0x3200000 + n % 2 * 0x200000 + r * 0x1000

/-- Reserved bytes of a payload are 0. -/
def zeros (pay : List Byte) (l : List (Nat × Nat)) : Prop := ∀ e ∈ l, leAt pay e.1 e.2 = 0

end Sys2Proof.Claims

/-- The image fabric (R111, R112, R117 … R119): a posted write that ends OK puts its bytes into the store, one that ends VOID none; a failed
read is the exception of its response, and of an earlier tag epoch it is discarded and counted; a request that has waited AGE clocks is
promoted once. Where a pair holds writes in its compare buffer, those that have matched enter the fabric first (R380). -/
def Obligations.Fabric : Prop :=
  (∀ tag s q r, s.mainRuns = true → NoneBuffered s → s.inflight.find? (fun p => decide (p.tag = tag)) = some q → q.frm = none →
      (∀ p ∈ s.inflight, p.initiator = q.initiator → p.addr / 128 = q.addr / 128 → p.tag = tag) →
      SMap.get (fun _ => 0) s.tagEpochs q.initiator = q.tagEpoch → (∀ c, (s.cx c).stall = none) → (r = .ok ∨ r = .void) →
      (q.bytes.map (fun b => b.1)).Nodup →
      Done (.fabricRequestComplete (.write tag) r) s (fun s t =>
        (∀ b ∈ q.bytes, t.rdB b.1 = if r = .ok then b.2 else s.rdB b.1)
        ∧ (∀ a, (∀ b ∈ q.bytes, b.1 ≠ a) → t.rdB a = s.rdB a)
        ∧ t.inflight = s.inflight.filter (fun p => decide (p.tag ≠ tag)) ∧ (∀ c, t.cx c = s.cx c)))
  ∧ (∀ c (g : TagFields) lanes a bar r s, s.mainRuns = true → NoneBuffered s → g.epoch.val = s.tagEpoch (cxIdx c) → (s.cx c).running = true → respErr r = true →
      r ≠ .parity → CanPush c s → Done (.fabricRequestComplete (.read c g lanes a bar) r) s (fun s t =>
        (t.cx c).excCause = respCause r ∧ (t.cx c).excLanes = lanes ∧ (t.cx c).excAddr = a ∧ (t.cx c).excBar = bar
        ∧ (t.cx c).pc = BitVec.ofNat 16 (s.cx c).ver.entry ∧ (t.cx c).lanes = (s.cx c).lanes ∧ OtherCxs c s t
        ∧ (t.reg rFAB_ERR_ADDR).toNat = bar % 2 ^ 26 ∧ latched t 684))
  ∧ (∀ c (g : TagFields) lanes a bar r s, s.mainRuns = true → NoneBuffered s → g.epoch.val ≠ s.tagEpoch (cxIdx c) →
      Done (.fabricRequestComplete (.read c g lanes a bar) r) s (fun s t =>
        Holds t [(fFAB_STAT_STALE, 1)] ∧ Counted fFAB_CNT_STALE_COUNT s t ∧ t = { s with regs := t.regs }))
  ∧ (∀ k i bar s, NoneBuffered s → Idle (.fabricRequestComplete (.frame k i bar) .ok) s)
  ∧ (∀ i s, NoneBuffered s → (0 < tagsReserved i ∧ ¬ (192 ≤ i ∧ i < 224)) → Done (.fabricAgePromotion (.passing i)) s (fun s t =>
      Holds t [(fFAB_STAT_AGED, 1)] ∧ Counted fFAB_CNT_AGED_COUNT s t ∧ t = { s with regs := t.regs }))
  ∧ (∀ tag s q, NoneBuffered s → s.inflight.find? (fun p => decide (p.tag = tag)) = some q → q.waited = 0 →
      Done (.fabricAgePromotion (.held tag)) s (fun s t =>
        Holds t [(fFAB_STAT_AGED, 1)] ∧ Counted fFAB_CNT_AGED_COUNT s t
        ∧ t.inflight = s.inflight.map (fun p => if p.tag = tag then { p with waited := s.fget fFAB_CTRL_AGE } else p)
        ∧ RegsBut [fFAB_STAT_AGED.off, fFAB_CNT_AGED_COUNT.off] s t ∧ t = { s with inflight := t.inflight, regs := t.regs }))

/-- The mailbox answers a program (R187, R188, R471): GO.SEND fills an EMPTY channel and posts it, and changes no POSTED one; MREAD copies and
shows GO. With the channel's island restarted the answer is an error, and the instruction takes BUS (R118, R120). -/
def Obligations.MailboxRoundTrip : Prop :=
  ∀ c s ch, s.mainRuns = true → ch < 128 → (s.cx c).busPend = none → (s.cx c).toPend = false → (s.cx c).buf = [] →
    (s.mgt.down = true → (s.cx c).running = true → CanPush c s →
      ((s.cx c).stall = some (.mbxRead ch) ∨ ∃ msg, (s.cx c).stall = some (.mbxSend ch msg)) →
      Done (.mailboxRoundTripDone c .ok) s (fun s t => (t.cx c).excCause = cBus ∧ (t.cx c).stall = none ∧ t.mem = s.mem
        ∧ t.fget (fMBX_CH_STAT_GO ch) = s.fget (fMBX_CH_STAT_GO ch) ∧ OtherCxs c s t)) ∧
    (s.mgt.down = false → (∀ msg, (s.cx c).stall = some (.mbxSend ch msg) → msg.length = s.mbxWords ch →
      (s.fbit (fMBX_CH_STAT_GO ch) = false → Done (.mailboxRoundTripDone c .ok) s (fun s t =>
        answered c true s t ∧ (∀ i < msg.length, t.reg (rMBX_MSG ch i) = msg.getD i 0)
        ∧ Holds t [(fMBX_CH_STAT_GO ch, 1), (fMBX_CH_STAT_DONE ch, 0), (fMBX_CH_STAT_LAST ch, 1), (fMBX_ACK_CODE ch, 0)]))
      ∧ (s.fbit (fMBX_CH_STAT_GO ch) = true → Done (.mailboxRoundTripDone c .ok) s (fun s t =>
        answered c false s t ∧ RegsBut (clockRegs c) s t)))
    ∧ ((s.cx c).stall = some (.mbxRead ch) → (∀ e ∈ live (s.cx c), e.2.x.toNat + 4 * s.mbxWords ch ≤ 0x100) →
      Done (.mailboxRoundTripDone c .ok) s (answered c (s.fbit (fMBX_CH_STAT_GO ch)))))

/-- Twin comparison (R377, R382 … R390): a difference that the comparator sees fences a pair and empties it, in a scalar pair it resets the
module; a proof passes a spare or fences it. A difference in lane bit `b` shows its lanes and the lowest of them, and every pattern of the test
but the null pattern and the fence path has an expected mismatch. -/
def Obligations.Twins : Prop :=
  (∀ (k : Fin 34) m d s, s.twinSees (.press k) m = some d → s.fget (fPAIR_STAT_STATE (pressPage k.val)) ≠ stTest →
      s.fget (fPAIR_STAT_STATE (pressPage k.val)) ≠ stFenced → InRange (.press k) s → Done (.twinMismatch k m) s (fun s t =>
        Holds t [(fPAIR_STAT_STATE (pressPage k.val), stFenced), (fTWIN_STAT_CAUSE (pressPage k.val), 2)]
        ∧ t.cx (.press k) = {} ∧ (∀ i < 2, (t.frame k.val i).row = none) ∧ latched t 679 ∧ OtherCxs (.press k) s t
        ∧ t.tagEpoch k.val = (s.tagEpoch k.val + 1) % 8
        ∧ (s.fbit (fTWIN_STAT_CAPTURED (pressPage k.val)) = false → Holds t [(fTWIN_MISMATCH_GROUP (pressPage k.val), d.group),
            (fTWIN_MISMATCH_BIT (pressPage k.val), d.bit), (fTWIN_MISMATCH_LANE (pressPage k.val), d.lane)])))
  ∧ (∀ (k : Fin 34) m s, (s.twinSees (.press k) m = none ∨ s.fget (fPAIR_STAT_STATE (pressPage k.val)) = stTest
      ∨ s.fget (fPAIR_STAT_STATE (pressPage k.val)) = stFenced) → Idle (.twinMismatch k m) s)
  ∧ (∀ (j : Fin 16) m d s, s.twinSees (.scalar j) m = some d → s.fget (fPAIR_STAT_STATE (scalarPage j.val)) ≠ stTest →
      s.fget (fPAIR_STAT_STATE (scalarPage j.val)) ≠ stFenced → s.fget fRST_START_PHASE ≠ phFlush → s.fget fRST_START_PHASE ≠ phHeld →
      Done (.scalarMismatch j m) s (fun _ t =>
        Holds t [(fRST_LAST_CAUSE, 7), (fRST_LAST_DETAIL, j.val), (fRST_START_PHASE, phStarting)] ∧ (∀ c, (t.cx c).running = false) ∧ t.mem = []))
  ∧ (∀ (k : Fin 34) pats gave s, s.mainRuns = true → s.fget (fPAIR_STAT_STATE (pressPage k.val)) = stTest → s.fget fRST_START_PHASE ≠ phStarting →
      InRange (.press k) s → (∀ i < 2, ∀ r, (s.frame k.val i).row = some r → r < 512) →
      (failedPatterns false (pats.zip gave) = [] → Done (.proofDone k pats gave) s (fun s t =>
        Holds t [(fPAIR_STAT_STATE (pressPage k.val), stSpare), (fTWIN_TEST_PASS (pressPage k.val), 1), (fTWIN_TEST_RAN (pressPage k.val), 1)]
        ∧ Counted (fTWIN_STAT_PROOFS (pressPage k.val)) s t ∧ t.tagEpoch k.val = (s.tagEpoch k.val + 1) % 8
        ∧ t = { s with regs := t.regs, tagEpochs := t.tagEpochs }))
      ∧ (failedPatterns false (pats.zip gave) ≠ [] → Done (.proofDone k pats gave) s (fun _ t =>
        Holds t [(fPAIR_STAT_STATE (pressPage k.val), stFenced), (fTWIN_STAT_CAUSE (pressPage k.val), 4),
          (fTWIN_TEST_PASS (pressPage k.val), 0), (fTWIN_TEST_FAILS (pressPage k.val), min (failedPatterns false (pats.zip gave)).length 1023),
          (fTWIN_TEST_FIRST_FAIL (pressPage k.val), (failedPatterns false (pats.zip gave)).headD 0x3FF)])))
  ∧ (∀ b < 100, ∀ l : BitVec 256, l ≠ 0 → ∃ d, twinCompare false [{ bit := b, lanes := l }] = some d ∧ d.lanes = l ∧ d.lane = lowestLane l)
  ∧ (∀ i < 954, (expected false i).isSome = true) ∧ (∀ i < 189, (expected true i).isSome = true)

/-- A reflex decode (R366 … R372): the oldest trigger is taken; with a readable table of which one entry is enabled, valid and met, that
entry fires. -/
def Obligations.ReflexDecode : Prop :=
  ∀ (cut : BitVec 32) s t0 ts, s.mainRuns = true → s.triggers = t0 :: ts →
    (∀ e < 256, s.eccAt (s.rfxAt e) = 0 ∧ s.eccAt (s.rfxAt e + 8) = 0 ∧ s.rfxAt e % 8 = 0) →
    ((∀ e < 256, bitOf (s.rdB (s.rfxAt e + 3)).toNat 0 = false) →
      Done (.reflexDecode cut) s (fun s t => t = { s with triggers := ts, rfxMet := t.rfxMet }))
    ∧ (∀ e < 256, (∀ q < 256, q ≠ e → bitOf (s.rdB (s.rfxAt q + 3)).toNat 0 = false) →
        let b := s.rdList (s.rfxAt e) 16
        bitOf (leAt b 3 1) 0 = true → leAt b 0 1 = t0.kind → rfxOk b = true → rfxHit b t0 = true →
        Done (.reflexDecode cut) s (fun s t =>
          t.triggers = ts ∧ Holds t [(fTRL_RFX_LAST_ENTRY, e)] ∧ Counted (fTRL_RFX_CNT_COUNT e) s t ∧ latched t 699 ∧ t.mem = s.mem))

/-- Grafts in progress (R397, R398, R404, R407, R413): C is the second cycle boundary from now, so 1 before T(0), which begins cycle 0 (R44).
A scalar context waits for a press's claim, takes the row's, and goes on when the row is migrated. -/
def Obligations.GraftProgress : Prop :=
  (∀ (n : Fin 256) s, s.grfState n.val = 3 →
      Done (.graftRackConfirm n) s (fun s t =>
        Holds t [(fPART_GRF_STAT_STATE n.val, 4)] ∧ OtherParts n.val s t
        ∧ (t.part n.val).commitAt = if s.fbit (fPART_GRF_CTRL_GROUP n.val) then (s.part n.val).commitAt else some (secondNext s))
      ∧ Done (.graftRackTimeout n) s (fun s t =>
        Holds t [(fPART_GRF_STAT_STATE n.val, 1), (fPART_GRF_STAT_RESULT n.val, 12)] ∧ RegsBut [(fPART_GRF_STAT_STATE n.val).off] s t
          ∧ t = { s with regs := t.regs }))
  ∧ (∀ (n : Fin 256) s, s.grfState n.val = 7 → (s.part n.val).commitAt = none →
      Done (.graftRackConfirm n) s (fun s t =>
        (t.part n.val).commitAt = some (secondNext s) ∧ OtherParts n.val s t))
  ∧ (∀ (n : Fin 256) s e, s.grfState n.val = 5 → (s.part n.val).windowEnd = some e → e ≤ s.lt.toNat →
      Done (.rollbackWindowEnd n) s (fun s t =>
        Holds t [(fPART_GRF_STAT_STATE n.val, 6)] ∧ (t.part n.val).windowEnd = none ∧ (t.part n.val).run = (s.part n.val).run
        ∧ (t.part n.val).other.codeKb = 0 ∧ (t.part n.val).other.constGran = 0 ∧ (t.part n.val).other.mapAt = (s.part n.val).other.mapAt
        ∧ OtherParts n.val s t ∧ t.mem = s.mem))
  ∧ (∀ (n : Fin 256) s, s.grfState n.val = 6 →
      ((∀ r ∈ s.rowsOfPart n.val, s.arrBit (rPART_GRF_ROWMIG 0) r = true) → Done (.graftSweepDone n) s (fun s t =>
        Holds t [(fPART_GRF_STAT_STATE n.val, 0)] ∧ (t.part n.val).other = {} ∧ (t.part n.val).run = (s.part n.val).run
        ∧ ((s.part n.val).rollback = false → t.fget (fPART_GRF_STAT_RESULT n.val) = 3) ∧ OtherParts n.val s t ∧ t.mem = s.mem))
      ∧ Done (.graftSweepDone n) s (fun s t => ∀ r ∈ s.rowsOfPart n.val, s.pressClaim r = false → t.arrBit (rPART_GRF_ROWMIG 0) r = true))
  ∧ (∀ (j : Fin 16) s r, s.mainRuns = true → (s.cx (.scalar j)).stall = some (.migrate r false) →
      (s.pressClaim r = true → Idle (.scalarMigration j) s)
      ∧ (r < 512 → s.pressClaim r = false → s.arrBit (rPART_GRF_ROWMIG 0) r = false → Done (.scalarMigration j) s (fun s t =>
        Holds t [(fSCHED_ROW_STAT_CLAIM r, clLoading)] ∧ RegsBut [(fSCHED_ROW_STAT_CLAIM r).off] s t
        ∧ t = { s.setCx (.scalar j) { s.cx (.scalar j) with stall := some (.migrate r true) } with regs := t.regs })))
  ∧ (∀ (j : Fin 16) s r, s.mainRuns = true → (s.cx (.scalar j)).stall = some (.migrate r true) → r < 512 → Settled (.scalar j) s →
      Done (.scalarMigration j) s (fun s t =>
        ∃ n, t.cx (.scalar j) = { s.cx (.scalar j) with stall := none, clkUsed := (s.cx (.scalar j)).clkUsed + n }
          ∧ t.arrBit (rPART_GRF_ROWMIG 0) r = true ∧ OtherCxs (.scalar j) s t
          ∧ ∀ q, (q < rowBase r + 0x5000 ∨ rowBase r + 0x9000 ≤ q) → t.rdB q = s.rdB q))

/-- The router serves a raise (R206 … R209): count, status bit, the reflex table's trigger; each partition that awaits the source and is
not stopped keeps it pending, or its waiting contexts wake, and go on with WAKE_SRC. -/
def Obligations.Events : Prop :=
  (∀ (e : Fin 768) s, s.nextServed e.val = true →
      Done (.eventRaise e) s (fun s t =>
        SMap.get (fun _ => false) t.evLatch e.val = false ∧ t.fget (fEVT_SRC_CNT_COUNT e.val) = (s.fget (fEVT_SRC_CNT_COUNT e.val) + 1) % 2 ^ 32
        ∧ t.arrBit (rEVT_SRC_STAT 0) e.val = true
        ∧ t.triggers = s.triggers ++ [{ kind := 2, arg := e.val, row := 0x3FF, lanes := 0 }]
        ∧ (∀ n < 256, s.partMode n ≠ 1 → mayWait s n e.val → (∀ c, (s.cx c).part = n → (s.cx c).waitsOn e.val = false) → e.val ∈ (t.part n).pend)
        ∧ (∀ c dl, (s.cx c).part < 256 → s.partMode (s.cx c).part ≠ 1 → mayWait s (s.cx c).part e.val → (s.cx c).running = true →
            (s.cx c).stall = some (.event e.val dl none) → t.cx c = { s.cx c with stall := some (.event e.val dl (some e.val)) })))
  ∧ (∀ (e : Fin 768) s, s.nextServed e.val = false → Idle (.eventRaise e) s)
  ∧ (∀ c s q dl e, s.mainRuns = true → (s.cx c).stall = some (.event q dl (some e)) → Done (.contextWake c) s (fun s t =>
      ∃ n, t.cx c = { s.cx c with stall := none, wakeSrc := e, pc := (s.cx c).pc + 1, clkUsed := (s.cx c).clkUsed + (1 + n) }
        ∧ Holds t [(fPAIR_STAT_STATE (cxPage c), stExec)] ∧ OtherCxs c s t ∧ RegsBut (clockRegs c ++ [(fPAIR_STAT_STATE (cxPage c)).off]) s t))
  ∧ (∀ c s q dl, s.mainRuns = true → (s.cx c).stall = some (.event q (some dl) none) →
      (dl ≤ s.lt.toNat → Done (.wuntilDeadline c) s (fun s t =>
        ∃ n, t.cx c = { s.cx c with stall := none, wakeSrc := 0x3FF, pc := (s.cx c).pc + 1, clkUsed := (s.cx c).clkUsed + (1 + n) }
          ∧ Holds t [(fPAIR_STAT_STATE (cxPage c), stExec)] ∧ OtherCxs c s t))
      ∧ (s.lt.toNat < dl → Idle (.wuntilDeadline c) s))

/-- Alarm comparators and MSI-X (R212, R217 … R220). The MSI-X state machine is PCIe's, which the spec names and does not restate (log 18). -/
def Obligations.AlarmsAndMsix : Prop :=
  (∀ (a : Fin 64) s, s.mainRuns = true → s.fbit (fEVT_ALM_CTRL_EN a.val) = true → s.almTarget a.val ≤ s.lt.toNat →
      (s.fget (fEVT_ALM_CTRL_MODE a.val) = 0 → Done (.alarmLtMatch a) s (fun s t =>
        Holds t [(fEVT_ALM_CTRL_EN a.val, 0)] ∧ latched t (608 + a.val) ∧ t.almTarget a.val = s.almTarget a.val))
      ∧ (s.fget (fEVT_ALM_CTRL_MODE a.val) = 1 → s.fget (fEVT_ALM_HYST_VALUE a.val) ≠ 0 → s.lt.toNat + 2 ^ 32 < 2 ^ 64 →
        Done (.alarmLtMatch a) s (fun s t =>
          let h := s.fget (fEVT_ALM_HYST_VALUE a.val)
          s.lt.toNat < t.almTarget a.val ∧ t.almTarget a.val ≤ s.lt.toNat + h ∧ t.almTarget a.val % h = s.almTarget a.val % h
          ∧ t.fbit (fEVT_ALM_CTRL_EN a.val) = true ∧ latched t (608 + a.val))))
  ∧ (∀ (a : Fin 64) s, s.mainRuns = true → a.val ∈ s.almIssued → s.fbit (fEVT_ALM_CTRL_EN a.val) = true → s.fget (fEVT_ALM_CTRL_MODE a.val) = 2 →
      s.fget (fEVT_ALM_CTRL_WIDTH a.val) = 2 → s.fbit (fEVT_ALM_CTRL_SIGNED a.val) = true → 0x1800000 ≤ s.fget (fEVT_ALM_ADDR_ADDR a.val) →
      let v := sgn 32 (s.rdLE (s.fget (fEVT_ALM_ADDR_ADDR a.val)) 4)
      let lim := sgn 32 (s.reg (rEVT_ALM_A a.val)).toNat
      Done (.alarmSampleDone a .ok) s (fun s t =>
        t.fget (fEVT_ALM_VALUE_V a.val) = unsgn 32 v ∧ a.val ∉ t.almIssued
        ∧ (SMap.get (fun _ => false) s.almSeen a.val = false → t.fget (fEVT_ALM_CTRL_ACTIVE a.val) = b2n (decide (lim < v)) ∧ t.evLatch = s.evLatch)
        ∧ (SMap.get (fun _ => false) s.almSeen a.val = true → s.fbit (fEVT_ALM_CTRL_ACTIVE a.val) = false → lim < v →
            t.fget (fEVT_ALM_CTRL_ACTIVE a.val) = 1 ∧ (s.fget (fEVT_ALM_CTRL_EDGE a.val) = 0 → latched t (608 + a.val))))
      ∧ Done (.alarmSampleDone a .denied) s (fun s t => Holds t [(fEVT_STAT_ALM_ERR, 1)] ∧ latched t 713
          ∧ t.fget (fEVT_ALM_VALUE_V a.val) = s.fget (fEVT_ALM_VALUE_V a.val)))
  ∧ (∀ (f : Fin 257) s v addr data, s.fnExists f.val = true → v < (if f.val = 0 then 1024 else 8) →
      let k := f.val * 1024 + v
      let e := SMap.get msix0 s.msix k
      Done (.msixVectorUnmask f (.entry v addr data true)) s (fun s t =>
        t = { s with msix := t.msix } ∧ SMap.get msix0 t.msix k = { e with addr := addr, data := data, masked := true }
        ∧ ∀ q, q ≠ k → SMap.get msix0 t.msix q = SMap.get msix0 s.msix q)
      ∧ (e.pending = true → f.val ∈ s.msixEn → f.val ∉ s.msixFmask → Done (.msixVectorUnmask f (.entry v addr data false)) s (fun s t =>
        t.out = { medium := .msix, dst := f.val, kind := v, data := [addr, data] } :: s.out
        ∧ SMap.get msix0 t.msix k = { addr := addr, data := data, masked := false, pending := false })))
  ∧ (∀ n s, Done (.msixVectorUnmask 0 (.sriov n)) s (fun s t => t.vfs = min n 256
      ∧ t = { s with vfs := t.vfs, msix := t.msix, msixEn := t.msixEn, msixFmask := t.msixFmask }))

/-- Frames received on a port (R311, R313, R317, R319, R329): a harvest is kept, an identity shown, a management answer held. -/
def Obligations.FieldFrames : Prop :=
  (∀ (p : Fin 32) h pay s, HdrOk s p h → h.len = 4096 → pay.length = 4096 → Harvested s p h →
      Done (.harvestFrame p h pay) s (fun s t =>
        (t.row h.row).harv = some s.cycle.toNat ∧ (∀ o < 4096, t.rdB (harvestAt s.cycle.toNat h.row + o) = pay.getD o 0)
        ∧ MemBut (harvestAt s.cycle.toNat h.row) (harvestAt s.cycle.toNat h.row + 4096) s t
        ∧ t.fget (fTRL_POS_STAT_STATE p.val h.src) = posReady
        ∧ (∀ q, q ≠ h.row → t.row q = s.row q)))
  ∧ (∀ (p : Fin 32) why s,
      (why = .aborted → Done (.fieldFrameReject p why) s (fun s t => Counted (fTRL_CNT_COUNT p.val 1) s t ∧ t = { s with regs := t.regs }))
      ∧ (why = .dir → s.fget fRACK_STAT_ROLE = roleStandby → Idle (.fieldFrameReject p why) s)
      ∧ (why ≠ .aborted → (why = .dir → s.fget fRACK_STAT_ROLE ≠ roleStandby) → Done (.fieldFrameReject p why) s (fun s t =>
          Counted (fTRL_CNT_COUNT p.val (fieldBadCnt why)) s t ∧ latched t (384 + 4 * p.val + 3)
          ∧ (why = .macErr ∨ why = .hcrc → Counted fSYS_INTEG_CRIT_COUNT s t ∧ latched t 683)
          ∧ (why ≠ .macErr → why ≠ .hcrc → t = { s with regs := t.regs, evLatch := t.evLatch }))))
  ∧ (∀ (p : Fin 32) h pay s, HdrOk s p h → h.len = 128 → leAt pay 0 1 = 2 → zeros pay [(2, 6), (0x27, 1), (0x2F, 1)] → leAt pay 0x2E 1 < 2 →
      let k := leAt pay 1 1
      k < 16 → k < s.boards p.val → leAt pay 0x2C 2 = 256 → (pay.drop 0x30).take 8 = s.rdList (s.tblInForce p.val + 0x10) 8 →
      Done (.helloResp p h pay) s (fun s t =>
        (∀ i < 30, (t.reg (rTRL_HELLO p.val k i)).toNat = leAt pay (8 + 4 * i) 4) ∧ (t.posn p.val k).answered = true ∧ (t.posn p.val k).miss = 0
        ∧ (s.fget (fTRL_POS_STAT_STATE p.val k) = posAbsent → t.fget (fTRL_POS_STAT_STATE p.val k) = posFound)))
  ∧ (∀ (p : Fin 32) h pay s, HdrOk s p h → leAt pay 0 1 = 2 → zeros pay [(3, 1), (6, 2)] → leAt pay 4 2 ≤ 1024 → h.len = 8 + leAt pay 4 2 →
      (s.fbit (fTRL_MGMT_RX_VALID p.val) = false → Done (.mgmtResp p h pay) s (fun s t =>
        Holds t [(fTRL_MGMT_RX_VALID p.val, 1), (fTRL_MGMT_RX_SRC p.val, leAt pay 1 1), (fTRL_MGMT_RX_TAG p.val, leAt pay 2 1),
          (fTRL_MGMT_RX_LEN p.val, leAt pay 4 2)] ∧ t = { s with regs := t.regs }))
      ∧ (s.fbit (fTRL_MGMT_RX_VALID p.val) = true → Done (.mgmtResp p h pay) s (fun s t =>
        Holds t [(fTRL_MGMT_RX_OVERRUN p.val, 1)] ∧ RegsBut [(fTRL_MGMT_RX_OVERRUN p.val).off] s t ∧ t = { s with regs := t.regs })))
  ∧ (∀ (p : Fin 32) h pay (t4 : Nat) s k q dep, HdrOk s p h → h.len = 48 → leAt pay 0 1 = 2 → zeros pay [(4, 4), (0x20, 16)] →
      leAt pay 1 1 = k → k < 16 → leAt pay 2 2 = q → (s.port p.val).stamps.find? (fun e => decide (e.1 = k) && decide (e.2.1 = q)) = some (k, q, dep) →
      (s.posn p.val k).meas = [] → s.isFar p.val k = false →
      let dn := sgn 64 (leAt pay 0x08 8)
      let up := sgn 64 (leAt pay 0x18 8)
      let rtt : Int := (t4 : Int) - (dep : Int) * 65536 - sgn 64 (leAt pay 0x10 8) - dn - up
      (0 ≤ rtt → rtt ≤ 20000 * 65536 → Done (.delayResp p h pay t4) s (fun _ t => (t.posn p.val k).meas = [(rtt, up, dn)]))
      ∧ ((rtt < 0 ∨ 20000 * 65536 < rtt) → Done (.delayResp p h pay t4) s (fun s t =>
          Holds t [(fTRL_STAT_DELAY_BAD, 1)] ∧ Counted (fTRL_CNT_COUNT p.val 23) s t ∧ t.posn p.val k = { s.posn p.val k with bad := 0 })))

/-- The field link's states and periods (R312, R318, R323, R326 … R328, R338 … R341). -/
def Obligations.FieldLink : Prop :=
  (∀ (p : Fin 32) s,
      (s.portEn p.val = true → (s.fget (fTRL_PORT_STAT_LINK p.val) = lkTraining ∨ s.fget (fTRL_PORT_STAT_LINK p.val) = lkRetrain) →
        Done (.linkUp p) s (fun _ t => Holds t [(fTRL_PORT_STAT_LINK p.val, lkUp)] ∧ latched t (384 + 4 * p.val)
          ∧ (t.port p.val).helloNow = true ∧ (t.port p.val).delayNow = true))
      ∧ (s.fget (fTRL_PORT_STAT_LINK p.val) = lkUp → ∀ co un, Done (.linkLoss p co un) s (fun s t =>
        Holds t [(fTRL_PORT_STAT_LINK p.val, lkRetrain)] ∧ latched t (384 + 4 * p.val) ∧ Counted (fTRL_CNT_COUNT p.val 22) s t
        ∧ t.fget (fTRL_CNT_COUNT p.val 20) = min (s.fget (fTRL_CNT_COUNT p.val 20) + co) 0xFFFFFFFF))
      ∧ (s.fget (fTRL_PORT_STAT_LINK p.val) = lkReset → Done (.portResetEnd p) s (fun _ t =>
        Holds t [(fTRL_PORT_STAT_LINK p.val, lkTraining)] ∧ latched t (384 + 4 * p.val)))
      ∧ Idle (.trainingTimeout p) s)
  ∧ (∀ (p : Fin 32) (k : Fin 16) s, (s.posn p.val k.val).answered = false →
      ((s.posn p.val k.val).miss < 2 → Done (.discoveryRoundMiss p k) s (fun s t =>
        t.posn p.val k.val = { s.posn p.val k.val with miss := (s.posn p.val k.val).miss + 1 } ∧ t = { s with poss := t.poss }))
      ∧ (2 ≤ (s.posn p.val k.val).miss → Done (.discoveryRoundMiss p k) s (fun _ t =>
        Holds t [(fTRL_POS_STAT_STATE p.val k.val, posAbsent)] ∧ (∀ i < 30, t.reg (rTRL_HELLO p.val k.val i) = 0) ∧ t.posn p.val k.val = {})))
  ∧ (∀ (p : Fin 32) s, s.mainRuns = true → s.portSends p.val = true → s.fget fRACK_STAT_ROLE = 1 → s.rack.takeAt = none → s.commitBits = [] → s.rack.swapW = none →
      (s.port p.val).ctlAt ≠ some s.cycle.toNat → s.tn.toNat + s.boards p.val * s.pourLen p.val ≤ s.lt.toNat →
      s.lt.toNat + 200 ≤ s.tn.toNat + s.bc * 1000 →
      Done (.controlPeriod p) s (fun s t => ∃ l d, t.out = l ++ { medium := .trellis, dst := p.val, kind := tkSync, data := d } :: s.out
        ∧ d.take 14 = nats (macHdr ([3, 0, 0, 0, 0, 1].map (BitVec.ofNat 8)) (s.macAddr p.val) 0x88B5)
        ∧ (d.drop 46).take 8 = (leBytes 8 (s.tOf (s.cycle.toNat + 1))).map (fun b => b.toNat) ∧ (t.port p.val).ctlAt = some s.cycle.toNat))
  ∧ (∀ (p : Fin 32) s, ((s.port p.val).ctlAt = some s.cycle.toNat ∨ s.lt.toNat < s.tn.toNat + s.boards p.val * s.pourLen p.val) →
      Idle (.controlPeriod p) s)
  ∧ (∀ (p : Fin 32) h pay s, s.portEn p.val = true → s.fget (fTRL_PORT_STAT_LINK p.val) = lkUp → s.fget fRACK_STAT_ROLE = roleStandby →
      leAt pay 0 1 = 1 → leAt pay 1 1 = 0xFE →
      Done (.delayReqLineEnd p h pay) s (fun s t => ∃ d, t.out = { medium := .trellis, dst := p.val, kind := tkDelay, data := d } :: s.out
        ∧ (d.drop 16).take 2 = nats (leBytes 2 (s.fget fTRL_GEN_GEN)) ∧ d.getD 32 0 = srcStandby ∧ d.getD 33 0 = 2
        ∧ t = { s with out := t.out, free := s.free + 1 }))
  ∧ (∀ (p : Fin 32) s, s.fget fRACK_STAT_ROLE = roleStandby →
      Done (.syncMissed p) s (fun s t => (t.port p.val).missed = (s.port p.val).missed + 1 ∧ (t.port p.val).heard = 0
        ∧ (∀ q, q ≠ p.val → t.port q = s.port q) ∧ t = { s with ports := t.ports, rackSent := t.rackSent, out := t.out }
        ∧ (s.fbit fTRL_CTRL_SPLIT_EN = false → t = { s with ports := t.ports })
        ∧ (s.fbit fTRL_CTRL_SPLIT_EN = true → s.rackLanes ≠ [] → s.fget fTRL_SPLIT_CFG_DETECT ≤ (s.port p.val).missed + 1 →
            (s.port p.val).far = none → s.mainRuns = true → ∃ l, t.out = l :: s.out))
      ∧ ∀ h pay, h.src = srcActive → Done (.farEndListen p h pay) s (fun s t =>
        (t.port p.val) = { s.port p.val with missed := 0, heard := (s.port p.val).heard + 1 } ∧ t = { s with ports := t.ports }))
  ∧ (∀ (p : Fin 32) h pay s, s.portHears p.val = true → Done (.farEndListen p h pay) s (fun s t =>
      Counted (fTRL_CNT_COUNT p.val 7) s t ∧ latched t (384 + 4 * p.val + 3) ∧ t = { s with regs := t.regs, evLatch := t.evLatch }))
  ∧ (∀ (p : Fin 32) s, s.fget fRACK_STAT_ROLE = 1 →
      Done (.splitBreakReport p) s (fun s t => t.port p.val = { s.port p.val with report := true } ∧ t = { s with ports := t.ports })
      ∧ ∀ f, (s.port p.val).far = some f → (s.port p.val).leaveAt = none →
        ((∀ k ∈ s.farPositions p.val f.1, 4 ≤ (s.posn p.val k).near.length) → Done (.splitLeave p) s (fun s t =>
          t.port p.val = { s.port p.val with leaveAt := some (s.cycle.toNat + 1) } ∧ t = { s with ports := t.ports }))
        ∧ ((∃ k ∈ s.farPositions p.val f.1, (s.posn p.val k).near.length < 4) → Idle (.splitLeave p) s)
        ∧ let t := s.splitEnd p.val
          (t.port p.val).far = none ∧ Holds t [(⟨rTRL_SPLIT_STAT, p.val, p.val⟩, 0), (fTRL_PORT_STAT_SPLIT p.val, 0)] ∧ latched t 698
            ∧ ∀ k < 16, k < s.boards p.val → s.isFar p.val k = true → t.fget (fTRL_POS_STAT_STATE p.val k) = posReady)
  ∧ (∀ (p : Fin 32) s f, s.fget fRACK_STAT_ROLE = roleStandby → (s.port p.val).far = some f → (s.port p.val).leaveAt = none →
      (s.fget fTRL_SPLIT_CFG_DETECT ≤ (s.port p.val).heard → Done (.splitLeave p) s (fun s t =>
        t.port p.val = { s.port p.val with leaveAt := some (s.cycle.toNat + 1) } ∧ t = { s with ports := t.ports }))
      ∧ ((s.port p.val).heard < s.fget fTRL_SPLIT_CFG_DETECT → Idle (.splitLeave p) s))

namespace Sys2Proof.Claims

/-! ### Racking and the hot standby (spec/14_racking_standby.md) -/

/-- A standby hears a frame of its peer: no claim demotes it, and an ordered frame is the next one. -/
def Hears (s : State) : Prop := s.fget fRACK_STAT_ROLE = roleStandby
def NextOrdered (s : State) (h : RackHdr) : Prop :=
  Hears s ∧ (s.rack.fresh = true ∨ h.seq % 2 ^ 32 = (s.rackApplied + 1) % 2 ^ 32)

/-- What every received frame leaves (R421, R426): the peer's generation and role; for an ordered frame its number. -/
def PeerSeen (h : RackHdr) (t : State) : Prop :=
  Holds t [(fRACK_PEER_STAT_GEN, h.gen % 65536), (fRACK_PEER_STAT_ROLE, h.role.val)]

/-- An active module's claim loses to a claim of generation `g` (R421). -/
def Yields (s : State) (g : Nat) : Prop :=
  s.fget fRACK_STAT_ROLE = roleActive
    ∧ (newerN 16 g (s.fget fTRL_GEN_GEN) = true ∨ (g = s.fget fTRL_GEN_GEN ∧ s.fbit fRACK_STAT_SLOT_ID = true))

/-- The module has reset with a cause (R584 … R588): nothing executes, RST_LAST tells why, and FAULT_N is asserted while it has power. -/
def ResetWith (cause : Nat) (t : State) : Prop :=
  Holds t [(fRST_LAST_CAUSE, cause), (fRST_START_PHASE, phStarting)] ∧ (∀ c, (t.cx c).running = false) ∧ t.inflight = [] ∧ t.mem = []
    ∧ t.faultN = t.pins.aux

/-- A module reset of cause `c` is acted on at once: outside FLUSH and HELD, and not one that a flush precedes. -/
def ResetsNow (s : State) (c : Nat) : Prop :=
  s.fget fRST_START_PHASE ≠ phFlush ∧ s.fget fRST_START_PHASE ≠ phHeld
    ∧ (s.fget fRST_START_PHASE = phOperating → flushCause c = true → s.opt.flushOnReset = false)

end Sys2Proof.Claims

/-- What a standby takes from its peer (R426 … R434): HELLO, BEAT, racked writes, code, coefficients, step events, sweeps, pours, relays. -/
def Obligations.StandbyTakes : Prop :=
  (∀ h m s, Hears s → Done (.rackHello h m) s (fun s t => PeerSeen h t
      ∧ t.reg rRACK_PEER_SERIAL_LO = BitVec.ofNat 32 m.serial ∧ t.reg rRACK_PEER_SERIAL_HI = BitVec.ofNat 32 (m.serial / 2 ^ 32)
      ∧ Holds t [(fRACK_PEER_STAT_SYNC, m.sync.val), (fRACK_PEER_STAT_SLOT_ID, b2n m.slot)]
      ∧ (h.role.val = roleActive → t.cycle = BitVec.ofNat 64 m.cycle ∧ t.fget fSCHED_BC_BC_ACTIVE = m.bcNs / 1000 % 2 ^ 10 ∧ t.ctxs = s.ctxs)))
  ∧ (∀ h m s, Hears s → h.role.val = roleActive → Done (.rackBeat h m) s (fun s t => PeerSeen h t
      ∧ t.fget fCONV_EPOCH_CUR = m.epoch.toNat ∧ t.fget fTRL_GEN_GEN = h.gen % 65536 ∧ t.fget fSYS_MODULE_MODE_CUR = (if m.run then 0 else 1)
      ∧ t.cycle = BitVec.ofNat 64 (ext32 s.cycle.toNat h.cycle) ∧ t.rack.missed = 0))
  ∧ (∀ h l s, NextOrdered s h → l.Pairwise (fun a b => a.1 ≠ b.1) → (∀ e ∈ l, e.2.length = 32) →
      Done (.rackCoef h l) s (fun s t => PeerSeen h t ∧ t.rackApplied = h.seq % 2 ^ 32
        ∧ (∀ e ∈ l, t.rdList (t.coefAddr e.1.val) 32 = e.2)
        ∧ ∀ a, (∀ e ∈ l, a < s.coefAddr e.1.val ∨ s.coefAddr e.1.val + 32 ≤ a) → t.rdB a = s.rdB a))
  ∧ (∀ h (e : StepEv) s, NextOrdered s h → (s.ch e.ch.val).rack = none → e.step.length = 32 →
      Done (.rackStepev h [e]) s (fun s t => PeerSeen h t ∧ t.rdList (stepAddr e.ch.val) 32 = e.step
        ∧ (t.ch e.ch.val).rack = some (e.stamp, e.v, e.i)
        ∧ t.rdList (rowBase (e.ch.val / 256) + 32 * (e.ch.val % 256)) 8 = leBytes 4 (unsgn 32 e.v) ++ leBytes 4 (unsgn 32 e.i)
        ∧ ∀ a, (a < stepAddr e.ch.val ∨ stepAddr e.ch.val + 32 ≤ a) →
          (a < rowBase (e.ch.val / 256) + 32 * (e.ch.val % 256) ∨ rowBase (e.ch.val / 256) + 32 * (e.ch.val % 256) + 8 ≤ a) → t.rdB a = s.rdB a))
  ∧ (∀ h s, NextOrdered s h → Done (.rackSwap h) s (fun _ t => PeerSeen h t ∧ t.rack.swapNotice = true ∧ t.rackApplied = h.seq % 2 ^ 32))
  ∧ (∀ h n c s, NextOrdered s h → (s.grfState n = 3 ∨ s.grfState n = 4) → n < 256 → Done (.rackCode h (.commit ⟨n % 256, Nat.mod_lt _ (by decide)⟩ c)) s
      (fun _ t => PeerSeen h t ∧ (t.part n).commitAt = some c ∧ t.fget (fPART_GRF_STAT_STATE n) = 4))
  ∧ (∀ h m addr bytes cyc s, NextOrdered s h → 0x1400000 ≤ addr → addr + bytes.length ≤ 0x1800000 →
      (∀ p < 32, ∀ k < 2, s.schedTbl p k + 256 ≤ addr) →
      Done (.rackConfig h m addr bytes cyc) s (fun s t => PeerSeen h t ∧ (∀ i < bytes.length, t.rdB (addr + i) = bytes.getD i 0)
        ∧ MemBut addr (addr + bytes.length) s t))
  ∧ (∀ h a b s, Hears s → Done (.rackSweep h (.data a b)) s (fun s t => PeerSeen h t
        ∧ (∀ i < b.length, t.rdB (a + i) = b.getD i 0) ∧ MemBut a (a + b.length) s t))
  ∧ (∀ (p : Fin 32) h pay s, Hears s → s.portEn p.val = true → h.gen = s.fget fTRL_GEN_GEN → h.row < 512 → pay.length = 2048 →
      SMap.get (fun _ => none) s.rack.pours h.row = none →
      Done (.pourObserved p h pay) s (fun s t =>
        (∀ l < 256, ∀ i < 8, t.rdB (rowBase h.row + 0x2000 + 16 * l + i) = pay.getD (8 * l + i) 0
          ∧ t.rdB (rowBase h.row + 0x2008 + 16 * l + i) = s.rdB (rowBase h.row + 0x2008 + 16 * l + i))
        ∧ SMap.get (fun _ => none) t.rack.pours h.row = some h.cycle ∧ MemBut (rowBase h.row + 0x2000) (rowBase h.row + 0x3000) s t))
  ∧ (∀ h (p : Fin 32) kind b s, Hears s → (s.port p.val).far.isSome = true →
      (s.portEn p.val = true → s.fget (fTRL_PORT_STAT_LINK p.val) = lkUp → Done (.rackRelay h (.frame p kind b)) s (fun s t => PeerSeen h t
        ∧ t.out = { medium := .trellis, dst := p.val, kind := kind
                    data := nats (macHdr ([3, 0, 0, 0, 0, 1].map (BitVec.ofNat 8)) (s.macAddr p.val) 0x88B5 ++ b) } :: s.out ∧ t.mem = s.mem))
      ∧ ((s.portEn p.val = false ∨ s.fget (fTRL_PORT_STAT_LINK p.val) ≠ lkUp) → kind = tkPour →
        Done (.rackRelay h (.frame p kind b)) s (fun s t => PeerSeen h t ∧ t.out = s.out ∧ Counted (fTRL_CNT_COUNT p.val 15) s t ∧ t.mem = s.mem)))

/-- The active side of racking (R421, R423, R425 … R427, R434 … R437): rejects, lanes, resends, the sweep, the end of a fill, a demotion. -/
def Obligations.RackingActive : Prop :=
  (∀ why s, Done (.rackFrameReject why) s (fun s t => t = { s with regs := t.regs } ∧ ∃ i < 5, Counted (fRACK_CNT_COUNT i) s t
      ∧ RegsBut [(fRACK_CNT_COUNT i).off] s t))
  ∧ (∀ (l : Fin 4) s, Done (.rackLaneUp l true) s (fun s t => bitOf (t.fget fRACK_STAT_LANES) l.val = true
        ∧ t.rackLane l.val = (lkUp, (s.rackLane l.val).2)
        ∧ (s.mainRuns = true → ∃ d, t.out = { medium := .rack, dst := l.val, kind := 1, data := d } :: s.out
            ∧ d.take 14 = nats (macHdr ([3, 0, 0, 0, 0, 3].map (BitVec.ofNat 8)) (s.macAddr (0x20 + l.val)) 0x88B6))
        ∧ t = { s with regs := t.regs, rack := t.rack, out := t.out, rackSent := t.rackSent })
      ∧ Done (.rackLaneUp l false) s (fun s t => bitOf (t.fget fRACK_STAT_LANES) l.val = false
        ∧ t.rackLane l.val = (lkRetrain, s.fget fRACK_CTRL_MEDIA) ∧ t.rack.laneLost = (s.rack.laneLost || decide (s.rackLanes.head? = some l.val)) ∧ t = { s with regs := t.regs, rack := t.rack }))
  ∧ (∀ s, s.rackUnacked ≠ [] → s.rackLanes ≠ [] → s.rackProgress + 4 ≤ s.cycle.toNat → Done .rackResend s (fun s t => Holds t [(fRACK_ERR_RESEND, 1)]
        ∧ t.fget (fRACK_CNT_COUNT 6) = min (s.fget (fRACK_CNT_COUNT 6) + s.rackUnacked.length) 0xFFFFFFFF
        ∧ t.rackUnacked = s.rackUnacked ∧ t.rackProgress = s.cycle.toNat ∧ t.rack.laneLost = false))
  ∧ (∀ us s, s.racks = true → us < 2 ^ 32 → Done (.sweepEnd us) s (fun s t => t.fget fRACK_SWEEP_LAST_US = us ∧ Counted (fRACK_CNT_COUNT 7) s t
        ∧ t.fget fRACK_SWEEP_WORST_US = max us (s.fget fRACK_SWEEP_WORST_US) ∧ t.rack.sweeps = s.rack.sweeps + 1
        ∧ (s.fget fRACK_CFG_SWEEP_MAX < us → t.fget fRACK_ERR_SWEEP_LONG = 1 ∧ latched t 695) ∧ t.mem = s.mem))
  ∧ (∀ s, s.fget fRACK_STAT_SYNC = 2 → s.fget fRACK_FILL_PHASE = 2 → Done .fillDone s (fun s t =>
        Holds t [(fRACK_STAT_SYNC, 3), (fRACK_FILL_PHASE, 3), (fRACK_FILL_PERCENT, 100)] ∧ Counted (fRACK_CNT_COUNT 11) s t ∧ t = { s with regs := t.regs }))
  ∧ (∀ (g : BitVec 16) s, Yields s g.toNat → ResetsNow s 8 → Done (.demotion g) s (fun _ t => ResetWith 8 t))
  ∧ (∀ (g : BitVec 16) s, ¬ Yields s g.toNat → Idle (.demotion g) s)

/-- Roles, the interlock and takeover (R417 … R420, R436, R440, R442, R447). -/
def Obligations.RolesAndTakeover : Prop :=
  (∀ slot s, s.fget fRST_START_PHASE = phStarting → s.fget fRACK_STAT_ROLE = 0 → s.rack.settle = none →
      (s.rack.peer = none → s.fbit fRACK_STAT_PEER_IN = false → Done (.roleDecision slot) s (fun s t =>
        Holds t [(fRACK_STAT_ROLE, 0), (fRACK_STAT_SLOT_ID, b2n slot)] ∧ t.rack = { s.rack with settle := some 0 } ∧ t = { s with regs := t.regs, rack := t.rack }))
      ∧ (s.rack.peer = none → s.fbit fRACK_STAT_PEER_IN = true → Done (.roleDecision slot) s (fun s t =>
        Holds t [(fRACK_STAT_ROLE, 2), (fRACK_STAT_SLOT_ID, b2n slot)] ∧ t = { s with regs := t.regs }))
      ∧ (∀ r, s.rack.peer = some (slot, r) → Done (.roleDecision slot) s (fun s t =>
        Holds t [(fRACK_ERR_SLOT_CLASH, 1), (fRACK_STAT_ROLE, 0)] ∧ t = { s with regs := t.regs }))
      ∧ (s.rack.peer = some (!slot, 1) → Done (.roleDecision slot) s (fun s t => Holds t [(fRACK_STAT_ROLE, 2)] ∧ t = { s with regs := t.regs })))
  ∧ (∀ s, s.rack.settle.isSome = true → s.fbit fRACK_STAT_PEER_IN = false → s.fget fRST_START_PHASE = phOperating →
      Done .settleEnd s (fun s t => Holds t [(fRACK_STAT_ACTIVE_OUT, 1)] ∧ RegsBut [fRACK_STAT_ACTIVE_OUT.off] s t ∧ t = { s with regs := t.regs }))
  ∧ (∀ s c, s.rack.settle = some c → s.fbit fRACK_STAT_ACTIVE_OUT = true → s.fbit fRACK_STAT_GATE = false → s.fbit fRACK_STAT_PEER_IN = false →
      Done .gateOpen s (fun s t => t.fget fRACK_STAT_GATE = 1 ∧ t.rack.settle = none ∧ t.active = true
        ∧ (c ≠ 0 → c < 8 → Holds t [(fRACK_STAT_ROLE, 1), (fRACK_TAKE_CAUSE, c)] ∧ latched t 696
            ∧ t.rack.takeAt = some (if s.lt.toNat + 500 ≤ s.tOf (s.cycle.toNat + 1) then s.cycle.toNat + 1 else s.cycle.toNat + 2))))
  ∧ (∀ s, s.fget fRACK_STAT_ROLE = roleStandby → s.rack.beat ≠ some s.cycle.toNat → s.rack.missAt ≠ some s.cycle.toNat →
      s.tn.toNat + 2000 ≤ s.lt.toNat → s.fget fRACK_STAT_SYNC ≠ 0 →
      (s.rack.missed + 1 ≠ s.fget fRACK_CFG_BEAT_LOSS → Done .beatMissed s (fun s t => t.rack = { s.rack with missed := s.rack.missed + 1, missAt := some s.cycle.toNat }
        ∧ Counted (fRACK_CNT_COUNT 5) s t ∧ RegsBut [(fRACK_CNT_COUNT 5).off] s t ∧ t = { s with rack := t.rack, regs := t.regs }))
      ∧ (s.rack.missed + 1 = s.fget fRACK_CFG_BEAT_LOSS → s.fbit fRACK_STAT_PEER_IN = true → s.fget fRACK_STAT_SYNC ≠ 4 →
          Done .beatMissed s (fun _ t => Holds t [(fRACK_STAT_SYNC, 4), (fRACK_ERR_PEER_LOST, 1)] ∧ latched t 694))
      ∧ (s.rack.missed + 1 = s.fget fRACK_CFG_BEAT_LOSS → s.fbit fRACK_STAT_PEER_IN = false → s.fget fRACK_STAT_SYNC = 3 → s.rack.settle = none →
          Done .beatMissed s (fun _ t => t.rack.settle = some 2 ∧ latched t 694 ∧ Holds t [(fRACK_STAT_SYNC, 3)])))
  ∧ (∀ s, s.fget fRACK_STAT_ROLE = roleStandby → s.fbit fRACK_STAT_PEER_IN = true → s.fget fRST_START_PHASE = phOperating → s.rack.yielded = false →
      (s.fget fRACK_STAT_SYNC = 3 → s.rack.settle = none → Done .peerActiveFall s (fun s t =>
        Holds t [(fRACK_STAT_PEER_IN, 0)] ∧ t.rack = { s.rack with settle := some 1 } ∧ t = { s with regs := t.regs, rack := t.rack }))
      ∧ (s.fget fRACK_STAT_SYNC ≠ 3 → Done .peerActiveFall s (fun s t =>
        Holds t [(fRACK_STAT_PEER_IN, 0), (fRACK_ERR_NOT_SYNCED, 1)] ∧ t = { s with regs := t.regs })))
  ∧ (∀ s, s.fget fRACK_STAT_ROLE = roleStandby → s.fbit fRACK_STAT_ACTIVE_OUT = false → Done .peerActiveRise s (fun s t =>
      Holds t [(fRACK_STAT_PEER_IN, 1)] ∧ t.rack = { s.rack with settle := none } ∧ t = { s with regs := t.regs, rack := t.rack }))
  ∧ (∀ s, s.fbit fRACK_STAT_ACTIVE_OUT = true → s.fbit fRACK_STAT_SLOT_ID = true → s.fbit fRACK_STAT_GATE = true → ResetsNow s 8 →
      Done .peerActiveRise s (fun _ t => ResetWith 8 t))
  ∧ (∀ s, s.fget fRACK_STAT_ROLE = roleActive → s.rack.swapW = some s.cycle.toNat → s.pourEnd ≤ s.lt.toNat → Done .swapYield s (fun s t =>
      Holds t [(fRACK_STAT_ROLE, 2), (fRACK_STAT_ACTIVE_OUT, 0), (fRACK_STAT_GATE, 0), (fRACK_STAT_SYNC, 2), (fWDT_STAT_STATE, 0)]
      ∧ (∀ c, (t.cx c).running = false) ∧ (∀ n, (t.part n).scalarWait = none) ∧ t.frames = [] ∧ (∀ q ∈ t.inflight, q.frm.isSome = true → q.void = true)
      ∧ t.rack.swapW = none ∧ Counted (fRACK_CNT_COUNT 10) s t))


namespace Sys2Proof.Claims

/-! ### The register space (spec/00_scope.md R10 … R16, R638; spec/15_host_mailboxes.md R452 … R456) -/

/-- A master's write of `raw` reaches the register at `off`: nothing on the way drops it (R452, R456, R592), and the racking buffer has room
for a racked write (R426). -/
def Reach (s : State) (m off raw : Nat) : Prop := s.busMaster m = true ∧ s.regGate m off raw = none ∧ s.rackHeld + 50 ≤ 262144

/-- Registers that the record of a write (R579) and its racking (R431) may change. -/
def sideRegs : List Nat := [fMGT_CB_LOST_COUNT.off, fMGT_CB_STAT_LOST.off, fRACK_ERR_WR_HOLD.off, (fRACK_CNT_COUNT 8).off]

/-- Registers that a raise of source `e` may change (R207). -/
def raiseRegs (e : Nat) : List Nat := [fEVT_CNT_MERGE_COUNT.off, fEVT_STAT_MERGED.off, (fEVT_SRC_CNT_COUNT e).off]

/-- A write has changed the registers listed, and has been recorded and racked; nothing else has changed. -/
def Written (l : List Nat) (s t : State) : Prop :=
  RegsBut (l ++ sideRegs) s t
    ∧ t = { s with regs := t.regs, cellarQ := t.cellarQ, cb := t.cb, rackSeq := t.rackSeq, rackUnacked := t.rackUnacked
                   rackProgress := t.rackProgress, rackSent := t.rackSent, out := t.out }

/-- As `Written`, and sources of `es` may have been raised. -/
def WrittenEv (l es : List Nat) (s t : State) : Prop :=
  RegsBut (l ++ sideRegs ++ es.flatMap raiseRegs) s t
    ∧ t = { s with regs := t.regs, cellarQ := t.cellarQ, cb := t.cb, rackSeq := t.rackSeq, rackUnacked := t.rackUnacked
                   rackProgress := t.rackProgress, rackSent := t.rackSent, out := t.out, evLatch := t.evLatch }

/-- A write was dropped and entered in the posted-write error log with reason `r` (R455, R456). -/
def Dropped (m off r : Nat) (s t : State) : Prop :=
  let e := s.fget fHOST_PWE_STAT_NEXT
  Holds t [(fHOST_PWE_ADDR_ADDR e, off % 2 ^ 26), (fHOST_PWE_INFO_REASON e, r), (fHOST_PWE_INFO_MASTER e, m), (fHOST_PWE_INFO_VALID e, 1),
      (fHOST_STAT_PWE, 1), (fHOST_PWE_STAT_NEXT, (e + 1) % 16)]
    ∧ Counted fHOST_PWE_STAT_COUNT s t ∧ latched t 681
    ∧ RegsBut ([rHOST_PWE_ADDR e, rHOST_PWE_INFO e, rHOST_PWE_LT_LO e, rHOST_PWE_LT_HI e, rHOST_PWE_STAT, fHOST_STAT_PWE.off] ++ raiseRegs 681) s t
    ∧ t = { s with regs := t.regs, evLatch := t.evLatch, out := t.out }

/-- A write was rejected under R12: CFG_REJECT shows the first such write (R13); nothing else changes. -/
def Rejected (m off : Nat) (s t : State) : Prop :=
  (s.fbit fSYS_ERR_STAT_CFG_REJECT = false → Holds t [(fSYS_ERR_STAT_CFG_REJECT, 1), (fSYS_CFG_REJECT_OFFSET, off % 2 ^ 24), (fSYS_CFG_REJECT_SRC_MASTER, m)])
    ∧ (s.fbit fSYS_ERR_STAT_CFG_REJECT = true → Holds t [(fSYS_CFG_REJECT_OVF, 1), (fSYS_CFG_REJECT_OFFSET, s.fget fSYS_CFG_REJECT_OFFSET)])
    ∧ latched t 680 ∧ RegsBut ([fSYS_ERR_STAT_CFG_REJECT.off, fSYS_CFG_REJECT_OVF.off, fSYS_CFG_REJECT_SRC_MASTER.off] ++ raiseRegs 680) s t
    ∧ t = { s with regs := t.regs, evLatch := t.evLatch }

/-- `n` offsets from `base`, `stride` apart. -/
def span (base stride n : Nat) : List Nat := (List.range n).map (fun i => base + i * stride)

/-- A clear command zeroes the registers listed and sets the fields listed (R197). -/
def clears (mk : Nat → Word → Instr) (off : Nat) (cells : List Nat) (l : List (Fld × Nat)) : Prop :=
  ∀ m v s, Reach s m off (setBits v.toNat 0 0 1) → Done (mk m v) s (fun s t =>
    (∀ o ∈ cells, t.reg o = 0) ∧ Holds t l ∧ Written (off :: cells ++ l.map (fun e => e.1.off)) s t)

/-- Registers whose write does nothing but set their fields. -/
def plainRegs : List Nat := [rTIME_SLEW, rTIME_STEP_THRESH, rTIME_PTP_SERVO, rMGT_FW_OFS, rSTEP_HOST_ARG, rSCHED_RIPE_GRACE]

/-- The answer of a read: kind 0 with the bytes. -/
def replied (m : Nat) (l : List Byte) (s t : State) : Prop := t.out = { medium := .reply, dst := m, kind := 0, data := nats l } :: s.out

/-- An address of the table or the program store. -/
def inStores (a : Nat) : Bool := isTable a || isProgram a

end Sys2Proof.Claims

/-- Decoding and encoding agree for every Judin instruction (R160 … R189): the words of a well-formed instruction decode to it, with every
operand; and every word that decodes is the one that its instruction encodes to. -/
def Obligations.JudinRoundTrip : Prop :=
  (∀ i w e, i.wf = true → judinEncode i = some (w, e) →
      judinLong w = e.isSome ∧ ∃ c, ∀ x, (e = none ∨ e = some x) → judinDecode? c w x = some i)
  ∧ (∀ c w x i, judinDecode? c w x = some i → i.wf = true ∧ judinEncode i = some (w, if judinLong w = true then some x else none))

/-- Accesses of a master (R10 … R16, R195, R196, R452 … R456, R640, R641): accepted, rejected, dropped; 64-bit pairs; the windows; a
read of a register block at another size or alignment is an Unsupported Request. -/
def Obligations.RegisterAccess : Prop :=
  (∀ m off bytes s row, off ∈ plainRegs → bytes.length = 4 → Reach s m off (ofLE bytes) → isVf m = false →
      regRow? off = some row →
      ((∀ f ∈ row.fields, f.takes (bitsOf (ofLE bytes) f.hi f.lo) = true) → Done (.registerWrite m off bytes) s (fun s t =>
        (∀ f ∈ row.fields, f.acc = .rw ∨ f.acc = .rwl → bitsOf (t.reg off).toNat f.hi f.lo = bitsOf (ofLE bytes) f.hi f.lo)
        ∧ (∀ f ∈ row.fields, f.acc = .ro → bitsOf (t.reg off).toNat f.hi f.lo = bitsOf (s.reg off).toNat f.hi f.lo) ∧ Written [off] s t))
      ∧ ((∃ f ∈ row.fields, f.acc ≠ .ro ∧ f.takes (bitsOf (ofLE bytes) f.hi f.lo) = false) → Done (.registerWrite m off bytes) s (Rejected m off)))
  ∧ (∀ m off bytes s, s.busMaster m = true → off < 0x1000000 → ¬ (bytes.length = 4 ∧ off % 4 = 0) →
      Done (.registerWrite m off bytes) s (Dropped m off pwSize))
  ∧ (∀ m off bytes s r, s.busMaster m = true → off < 0x1000000 → bytes.length = 4 → off % 4 = 0 → s.regGate m off (ofLE bytes) = some r →
      (r ≠ pwFabric → Done (.registerWrite m off bytes) s (Dropped m off r))
      ∧ (r = pwFabric → Done (.registerWrite m off bytes) s (fun s t =>
          Holds t [(fHOST_PWE_INFO_REASON (s.fget fHOST_PWE_STAT_NEXT), pwFabric), (fHOST_STAT_PWE, 1)] ∧ Counted fHOST_PWE_STAT_COUNT s t
          ∧ (t.reg rFAB_ERR_ADDR).toNat = off ∧ latched t 681 ∧ latched t 684
          ∧ t = { s with regs := t.regs, evLatch := t.evLatch, out := t.out })))
  ∧ (∀ m s, s.busMaster m = true → isVf m = false → s.fget fSYS_MODULE_MODE_CUR ≠ 2 →
      (Done (.lowWordRead m rEVT_LT_LO) s (fun s t => replied m (leBytes 4 s.lt.toNat) s t
        ∧ SMap.get word0 t.latHi (fnKey m rEVT_LT_HI) = BitVec.ofNat 32 (s.lt.toNat / 2 ^ 32)
        ∧ (∀ k, k ≠ fnKey m rEVT_LT_HI → SMap.get word0 t.latHi k = SMap.get word0 s.latHi k) ∧ t = { s with out := t.out, latHi := t.latHi }))
      ∧ Done (.lowWordRead m rEVT_LT_HI) s (fun s t => replied m (leBytes 4 (SMap.get word0 s.latHi (fnKey m rEVT_LT_HI)).toNat) s t
        ∧ t = { s with out := t.out }))
  ∧ (∀ m v (q : Fin 257) s, Reach s m (rHOST_RQ_BASE_HI q.val) v.toNat → s.fbit (fHOST_RQ_CFG_EN q.val) = false →
      Done (.highWordWrite m (rHOST_RQ_BASE_HI q.val) v) s (fun s t =>
        t.reg (rHOST_RQ_BASE_HI q.val) = v ∧ t.reg (rHOST_RQ_BASE_LO q.val) = SMap.get word0 s.heldLo (rHOST_RQ_BASE_LO q.val)
        ∧ SMap.get word0 t.heldLo (rHOST_RQ_BASE_LO q.val) = 0
        ∧ Written [rHOST_RQ_BASE_HI q.val, rHOST_RQ_BASE_LO q.val, (fHOST_RQ_STAT_FULL q.val).off] s { t with heldLo := s.heldLo }))
  ∧ (∀ m a bytes s, s.busMaster m = true → isVf m = false → 0 < bytes.length → (∀ i < bytes.length, inStores (a + i) = true) →
      s.fget fSYS_MODULE_MODE_CUR ≠ 2 →
      ((∀ i < bytes.length, s.winDrop m (a + i) = none) → Done (.storeWindowWrite m a bytes) s (fun s t =>
        (∀ i < bytes.length, t.rdB (a + i) = bytes.getD i 0) ∧ MemBut a (a + bytes.length) s t))
      ∧ (∀ r, s.winDrop m a = some r → Done (.storeWindowWrite m a bytes) s (Dropped m a r)))
  ∧ (∀ m a n s, s.busMaster m = true → isVf m = false → 0 < n → (∀ i < n, inStores (a + i) = true ∧ s.eccAt (a + i) = 0) →
      s.fget fSYS_MODULE_MODE_CUR ≠ 2 → Done (.storeWindowRead m a n) s (fun s t => replied m (s.rdList a n) s t ∧ t = { s with out := t.out }))
  ∧ (∀ m off n s, s.busMaster m = true → off < 0x1000000 → ¬ (n = 4 ∧ off % 4 = 0) →
      Done (.storeWindowRead m off n) s (fun s t => t = { s with out := { medium := .reply, dst := m, kind := 1, data := [] } :: s.out }))
  ∧ (∀ m a bytes s, s.busMaster m = true → 0 < bytes.length → (∀ i < bytes.length, isImage (a + i) = true) → s.fget fSYS_MODULE_MODE_CUR ≠ 2 →
      (isVf m = false → Done (.imageWindowWrite m a bytes) s (fun s t =>
        (∀ i < bytes.length, t.rdB (a + i) = bytes.getD i 0) ∧ MemBut a (a + bytes.length) s t ∧ RegsBut [fFAB_TAGS_HWM.off] s t
        ∧ t = { s with mem := t.mem, regs := t.regs }))
      ∧ (isVf m = true → s.vfReach (m - 0xFF) a true = false → Done (.imageWindowWrite m a bytes) s (Dropped m a pwNotVisible)))

/-- The clear commands (R197): every counter that the register's description names is 0, or at its extreme, and nothing else changes. -/
def Obligations.CounterClears : Prop :=
  clears .schedCntClr rSCHED_CNT_CLR (span rSCHED_CNT_STRETCH 4 5) []
  ∧ (∀ n : Fin 256, clears (.schedPClr · n ·) (rSCHED_P_CLR n.val) (span (rSCHED_P_SERVED n.val) 4 4) [(fSCHED_P_SLACK_MIN_NS n.val, 0x7FFFFFFF)])
  ∧ clears .fabCntClr rFAB_CNT_CLR (span rFAB_CNT_DENIED 4 6) [(fFAB_TAGS_HWM, 0)]
  ∧ (∀ c : Cx, clears (.pressCntClr · c ·) (rPAIR_CNT_CLR (cxPage c)) (span (rPAIR_CNT_EXEC (cxPage c)) 4 4) [])
  ∧ clears (.pressCmnClr · false ·) rPRESS_CMN_CLR (span (rPRESS_CMN_EXC 0) 4 16) []
  ∧ clears (.pressCmnClr · true ·) rSCALAR_CMN_CLR (span (rSCALAR_CMN_EXC 0) 4 16) []
  ∧ clears .evtCntClr rEVT_CNT_CLR ([rEVT_CNT_MERGE] ++ span (rEVT_SRC_CNT 0) 4 768 ++ span (rEVT_ALM_CNT 0) 0x20 64) []
  ∧ clears .stepCntClr rSTEP_CNT_CLR (span rSTEP_CNT_FAULT 4 5) []
  ∧ clears .convCntClr rCONV_CNT_CLR (span rCONV_CNT_TASTE 4 11) []
  ∧ clears .ledgCntClr rLEDG_CNT_CLR (span rLEDG_CNT_ADMIT 4 7 ++ span (rLEDG_BUS_CNT_SHED 0) 0x40 64) [(fLEDG_QUEUE_HWM, 0)]
  ∧ (∀ p : Fin 32, clears (.trlCntClr · p ·) (rTRL_CNT_CLR p.val) (span (rTRL_CNT p.val 0) 4 24) [])
  ∧ clears .trlRfxClr rTRL_RFX_CLR (span (rTRL_RFX_CNT 0) 4 256) []
  ∧ clears .rackCntClr rRACK_CNT_CLR (span (rRACK_CNT 0) 4 12 ++ [rRACK_SWEEP_WORST]) []
  ∧ clears .timeCntClr rTIME_CNT_CLR (span (rTIME_CNT 0) 4 14) []
  ∧ clears .hostPweClr rHOST_PWE_CLR [rHOST_PWE_STAT] ((List.range 16).map (fun i => (fHOST_PWE_INFO_VALID i, 0)))
  ∧ clears .hostCntClr rHOST_CNT_CLR (span (rHOST_RQ_LOST 0) 4 256 ++ [rHOST_CNT_RETRY])
      ((fHOST_STAGE_USE_HWM, 0) :: (List.range 16).map (fun k => (fHOST_SNAP_STAT_SKIP k, 0)))
  ∧ (∀ c : Fin 4, clears (.canCntClr · c ·) (rCAN_CNT_CLR c.val) (span (rCAN_CNT c.val 0) 4 6) [])
  ∧ clears .lioCntClr rLIO_CNT_CLR (span (rLIO_CNT 0) 4 4) []


namespace Sys2Proof.Claims

/-- A mailbox command with bit `b` of MBX_CMD, by the endpoint `party`, on a channel whose GO is `go`: the fields it leaves, its signal
and the enable of its event; in another state, or by another master, it is dropped (R471, R473). -/
def mbxCmd (mk : Nat → Fin 128 → Word → Instr) (b : Nat) (party : State → Nat → Nat → Bool) (go : Bool)
    (l : State → Nat → Nat → List (Fld × Nat)) (sig : Nat) (en : Nat → Fld) : Prop :=
  ∀ m (c : Fin 128) v s, Reach s m (fMBX_CMD_GO c.val).off (setBits v.toNat b b 1) → (∀ i < 4, i ≠ b → bitOf v.toNat i = false) →
    (party s c.val m = true → s.fbit (fMBX_CH_STAT_GO c.val) = go → Done (mk m c v) s (fun s t =>
      Holds t ((fMBX_CH_STAT_LAST c.val, sig) :: l s c.val v.toNat) ∧ (s.fbit (en c.val) = true → latched t c.val)
      ∧ (s.fbit (en c.val) = false → t.evLatch = s.evLatch)
      ∧ WrittenEv [(fMBX_CMD_GO c.val).off, (fMBX_CH_STAT_GO c.val).off, (fMBX_ACK_CODE c.val).off] [c.val] s t))
    ∧ (party s c.val m = true → s.fbit (fMBX_CH_STAT_GO c.val) ≠ go → Done (mk m c v) s (Dropped m (fMBX_CMD_GO c.val).off pwState))
    ∧ (party s c.val m = false → Done (mk m c v) s (Dropped m (fMBX_CMD_GO c.val).off pwNotEndpoint))

/-- Registers that show a partition's version slots. -/
def slotRegs (n : Nat) : List Nat :=
  [fPART_GRF_FREE_TOTAL.off, fPART_GRF_FREE_LARGEST.off, (fPART_CODE_SIZE n).off, (fPART_FAULT_ENTRY_ENTRY n).off, (fPART_GRF_VAR_VALUE n).off
   , (fPART_GRF_PEND_CODE_SIZE n).off, (fPART_GRF_PEND_TBL_MAP_V n).off, (fPART_GRF_STAT_STATE n).off, rPART_GRF_CTRL n, rPART_GRF_ALLOC n]

/-- As `Written`, and partition `n`'s slots may have changed. -/
def WrittenPart (n : Nat) (l : List Nat) (s t : State) : Prop := OtherParts n s t ∧ Written l s { t with parts := s.parts }

/-- `len` granules from `a` lie below `hi` and beside the runs held (R394). -/
def Free (runs : List (Nat × Nat)) (hi len a : Nat) : Prop := a + len ≤ hi ∧ ∀ r ∈ runs, a + len ≤ r.1 ∨ r.1 + r.2 ≤ a

/-- A graft command on an active module, its options as they stand; bit `b` of PART_GRF_CTRL is the command. -/
def grfCmd (mk : Nat → Fin 256 → Word → Instr) (b : Nat) (p : Nat → Fin 256 → State → (State → State → Prop) → Prop) : Prop :=
  ∀ m (n : Fin 256) v s, Reach s m (rPART_GRF_CTRL n.val) (setBits v.toNat b b 1) → v = s.reg (rPART_GRF_CTRL n.val) → v.toNat < 2 ^ 28 →
    (s.standby = true → Done (mk m n v) s (fun s t => Holds t [(fPART_GRF_STAT_RESULT n.val, 15)]
      ∧ Written [rPART_GRF_CTRL n.val, (fPART_GRF_STAT_RESULT n.val).off] s t))
    ∧ (s.standby = false → ∀ q, p m n s q → Done (mk m n v) s q)

/-- A graft command answers with a RESULT and changes nothing else. -/
def grfSays (n r : Nat) (s t : State) : Prop :=
  Holds t [(fPART_GRF_STAT_RESULT n, r), (fPART_GRF_STAT_STATE n, s.grfState n)] ∧ Written [rPART_GRF_CTRL n, (fPART_GRF_STAT_RESULT n).off] s t

end Sys2Proof.Claims

/-- Mailbox commands and message words by their endpoints (R471 … R473). -/
def Obligations.MailboxCommands : Prop :=
  mbxCmd .mbxCmdGo 0 (fun s c m => s.mbxSends c m) false (fun s c _ =>
    [(fMBX_CH_STAT_GO c, 1), (fMBX_CH_STAT_DONE c, 0), (fMBX_ACK_CODE c, 0), (fMBX_ACK_USER c, 0)
     , (fMBX_CH_STAT_POSTS c, (s.fget (fMBX_CH_STAT_POSTS c) + 1) % 2 ^ ((fMBX_CH_STAT_POSTS c).hi + 1 - (fMBX_CH_STAT_POSTS c).lo))])
    1 fMBX_BIND_POSTED_EV
  ∧ mbxCmd .mbxCmdWithdraw 1 (fun s c m => s.mbxSends c m) true (fun _ c _ => [(fMBX_CH_STAT_GO c, 0), (fMBX_ACK_CODE c, 3)]) 3 fMBX_BIND_EMPTY_EV
  ∧ mbxCmd .mbxCmdTake 2 (fun s c m => s.mbxReceives c m) true (fun _ c _ => [(fMBX_CH_STAT_GO c, 1), (fMBX_ACK_CODE c, 1)]) 2 fMBX_BIND_TAKEN_EV
  ∧ mbxCmd .mbxCmdDone 3 (fun s c m => s.mbxReceives c m) true (fun _ c v =>
      [(fMBX_CH_STAT_GO c, 0), (fMBX_CH_STAT_DONE c, 1), (fMBX_ACK_CODE c, 2), (fMBX_ACK_USER c, bitsOf v 15 8)]) 3 fMBX_BIND_EMPTY_EV
  ∧ (∀ m (c : Fin 128) (j : Fin 16) v s, Reach s m (rMBX_MSG c.val j.val) v.toNat →
      (j.val < s.mbxWords c.val → s.mbxSends c.val m = true → s.fbit (fMBX_CH_STAT_GO c.val) = false →
        Done (.mbxMsgWrite m c j v) s (fun s t => t.reg (rMBX_MSG c.val j.val) = v ∧ Written [rMBX_MSG c.val j.val] s t))
      ∧ (j.val < s.mbxWords c.val → s.mbxSends c.val m = true → s.fbit (fMBX_CH_STAT_GO c.val) = true →
        Done (.mbxMsgWrite m c j v) s (Dropped m (rMBX_MSG c.val j.val) pwState))
      ∧ (j.val < s.mbxWords c.val → s.mbxSends c.val m = false → Done (.mbxMsgWrite m c j v) s (Dropped m (rMBX_MSG c.val j.val) pwNotEndpoint))
      ∧ (s.mbxWords c.val ≤ j.val → Done (.mbxMsgWrite m c j v) s (Written [])))

/-- Graft commands (R394, R396, R398, R412 … R414): each in the state it needs, and what it answers elsewhere. -/
def Obligations.GraftCommands : Prop :=
  (∀ m (n : Fin 256) (v : Word) s, Reach s m (rPART_GRF_CTRL n.val) (setBits v.toNat 31 31 1) → v.toNat < 2 ^ 28 → s.grfState n.val = 1 → s.standby = false →
      Done (.grfArm m n v) s (fun s t =>
        Holds t [(fPART_GRF_STAT_STATE n.val, 2), (fPART_GRF_CTRL_WIN n.val, bitsOf v.toNat 11 0), (fPART_GRF_CTRL_GROUP n.val, bitsOf v.toNat
          (fPART_GRF_CTRL_GROUP n.val).hi (fPART_GRF_CTRL_GROUP n.val).lo)]
        ∧ t.part n.val = { s.part n.val with armer := m } ∧ WrittenPart n.val [rPART_GRF_CTRL n.val, (fPART_GRF_STAT_STATE n.val).off] s t))
  ∧ grfCmd .grfArm 31 (fun _ n s q => s.grfState n.val ≠ 1 ∧ q = grfSays n.val 10)
  ∧ grfCmd .grfAbort 30 (fun _ n s q =>
      ((s.grfState n.val ∈ [1, 2, 3] ∨ (s.grfState n.val = 4 ∧ (s.part n.val).commitAt = none)) ∧ q = fun s t =>
        Holds t [(fPART_GRF_STAT_STATE n.val, 0), (fPART_GRF_STAT_RESULT n.val, 4)] ∧ (t.part n.val).other = {} ∧ (t.part n.val).run = (s.part n.val).run
        ∧ (t.part n.val).commitAt = none ∧ WrittenPart n.val (slotRegs n.val) s t)
      ∨ (s.grfState n.val = 4 ∧ (s.part n.val).commitAt ≠ none ∧ q = grfSays n.val 13)
      ∨ (s.grfState n.val ∈ [0, 5, 6, 7] ∧ q = grfSays n.val 10))
  ∧ grfCmd .grfRollback 29 (fun m n s q =>
      (s.grfState n.val = 5 ∧ (s.part n.val).other.maps ≠ 1 ∧ q = fun s t =>
        Holds t [(fPART_GRF_STAT_STATE n.val, 7)] ∧ t.part n.val = { s.part n.val with
          rollback := true, armer := m, windowEnd := none, commitAt := if s.peerInSync = true then none else some (secondNext s) }
        ∧ WrittenPart n.val [rPART_GRF_CTRL n.val, (fPART_GRF_STAT_STATE n.val).off] s t)
      ∨ (s.grfState n.val = 5 ∧ (s.part n.val).other.maps = 1 ∧ q = grfSays n.val 14) ∨ (s.grfState n.val ≠ 5 ∧ q = grfSays n.val 10))
  ∧ grfCmd .grfRelease 28 (fun _ n s q =>
      (s.grfState n.val = 5 ∧ q = fun s t =>
        Holds t [(fPART_GRF_STAT_STATE n.val, 6)] ∧ (t.part n.val).other = { mapAt := (s.part n.val).other.mapAt, maps := (s.part n.val).other.maps }
        ∧ (t.part n.val).run = (s.part n.val).run ∧ (t.part n.val).windowEnd = none ∧ WrittenPart n.val (slotRegs n.val) s t)
      ∨ (s.grfState n.val ≠ 5 ∧ q = grfSays n.val 10))
  ∧ (∀ m v s, Reach s m rPART_GRF_GROUP (setBits v.toNat 0 0 1) →
      let waits (n : Nat) : Prop := n < 256 ∧ s.fbit (fPART_GRF_CTRL_GROUP n) = true
      ((∀ n, waits n → s.grfState n ≠ 2 ∧ s.grfState n ≠ 3) → s.standby = false → Done (.grfGroupGo m v) s (fun s t =>
        (∀ n, waits n → s.grfState n = 4 → (s.part n).commitAt = none → t.part n = { s.part n with commitAt := some (secondNext s) })
        ∧ (∀ n, ¬ (waits n ∧ s.grfState n = 4 ∧ (s.part n).commitAt = none) → t.part n = s.part n)
        ∧ WrittenEv [rPART_GRF_GROUP, fRACK_STAT_SYNC.off, fRACK_ERR_PEER_LOST.off] [694] s { t with parts := s.parts }))
      ∧ ((∀ n, waits n → s.grfState n ≠ 2 ∧ s.grfState n ≠ 3) → s.standby = true → Done (.grfGroupGo m v) s (Written [rPART_GRF_GROUP]))
      ∧ ((∃ n, waits n ∧ (s.grfState n = 2 ∨ s.grfState n = 3)) → Done (.grfGroupGo m v) s (Rejected m rPART_GRF_GROUP)))
  ∧ (∀ m (n : Fin 256) (v : Word) s, Reach s m (rPART_GRF_ALLOC n.val) v.toNat →
      let kb := bitsOf v.toNat 31 24
      let gran := bitsOf v.toNat 23 18
      let maps := bitsOf v.toNat 17 16
      let f := s.codeRuns
      kb ≤ 128 → gran ≤ 47 → maps ≤ 2 → (kb = 0 → gran = 0 ∧ maps = 0) →
      (s.standby = false → s.grfState n.val = 0 →
        Done (.partGrfAlloc m n v) s (fun s t =>
          WrittenPart n.val (slotRegs n.val) s { t with mem := s.mem, ecc := s.ecc } ∧ (t.part n.val).run = (s.part n.val).run
          ∧ ((t.grfState n.val = 1 ∧ (t.part n.val).other.codeKb = kb ∧ (t.part n.val).other.constGran = gran ∧ (t.part n.val).other.maps = maps
                ∧ ((t.part n.val).other.mapAt.isSome = true ↔ maps ≠ 0))
              ∨ (t.grfState n.val = 0 ∧ t.fget (fPART_GRF_STAT_RESULT n.val) = 5 ∧ t.part n.val = s.part n.val ∧ t.mem = s.mem)))
        ∧ (gran = 0 → maps = 0 → 0 < kb →
          (∀ a, Free f 6144 kb a → (∀ b, Free f 6144 kb b → a ≤ b) → Done (.partGrfAlloc m n v) s (fun _ t =>
            t.grfState n.val = 1 ∧ (t.part n.val).other = { codeKb := kb, codeAt := a } ∧ ∀ o < kb * 1024, t.rdB (0x1800000 + a * 1024 + o) = 0xFF))
          ∧ ((∀ a, ¬ Free f 6144 kb a) → Done (.partGrfAlloc m n v) s (fun s t =>
            Holds t [(fPART_GRF_STAT_RESULT n.val, 5)] ∧ Written [rPART_GRF_ALLOC n.val, (fPART_GRF_STAT_RESULT n.val).off] s t))))
      ∧ (s.standby = false → s.grfState n.val ≠ 0 → Done (.partGrfAlloc m n v) s (fun s t =>
          Holds t [(fPART_GRF_STAT_RESULT n.val, 10)] ∧ Written [rPART_GRF_ALLOC n.val, (fPART_GRF_STAT_RESULT n.val).off] s t))
      ∧ (s.standby = true → Done (.partGrfAlloc m n v) s (fun s t =>
          Holds t [(fPART_GRF_STAT_RESULT n.val, 15)] ∧ Written [rPART_GRF_ALLOC n.val, (fPART_GRF_STAT_RESULT n.val).off] s t)))


namespace Sys2Proof.Claims

/-- A port command with bit `b` of TRL_PORT_CTRL, written with no other command bit: on an enabled port whose MEDIA it repeats, `q`; with EN 0
the port is disabled (R326). -/
def portCmd (mk : Nat → Fin 32 → Word → Instr) (b : Nat) (q : Fin 32 → State → State → Prop) : Prop :=
  ∀ m (p : Fin 32) v s, Reach s m (rTRL_PORT_CTRL p.val) (setBits v.toNat b b 1) → (∀ i, 1 ≤ i → i ≤ 4 → i ≠ b → bitOf v.toNat i = false) →
    bitsOf v.toNat 9 8 = s.fget (fTRL_PORT_CTRL_MEDIA p.val) → bitsOf v.toNat 9 8 ≤ 2 →
    (bitOf v.toNat 0 = true → s.portEn p.val = true → Done (mk m p v) s (q p))
    ∧ (bitOf v.toNat 0 = false → Done (mk m p v) s (fun s t => Holds t [(fTRL_PORT_CTRL_EN p.val, 0), (fTRL_PORT_STAT_LINK p.val, lkDisabled)]
        ∧ WrittenEv [rTRL_PORT_CTRL p.val, (fTRL_PORT_STAT_LINK p.val).off] [384 + 4 * p.val] s { t with ports := s.ports }))

/-- A request for a partition's mode. -/
def partReq (mk : Nat → Fin 256 → Instr) (q : Nat) : Prop :=
  ∀ m (n : Fin 256) s, Reach s m (rPART_CTRL n.val) q →
    (n.val ≠ 0 → s.fbit (fPART_CTRL_LOCK n.val) = false → ¬ (q = 2 ∧ s.partMode n.val = 1) → Done (mk m n) s (fun s t =>
        Holds t [(fPART_CTRL_REQ n.val, q), (fPART_STAT_BUSY n.val, 1), (fPART_STAT_CUR n.val, s.partMode n.val)]
        ∧ t.part n.val = { s.part n.val with pendReq := true } ∧ WrittenPart n.val [rPART_CTRL n.val, (fPART_STAT_BUSY n.val).off] s t))
    ∧ (n.val ≠ 0 → s.fbit (fPART_CTRL_LOCK n.val) = false → q = 2 → s.partMode n.val = 1 → Done (mk m n) s (Rejected m (rPART_CTRL n.val)))
    ∧ (n.val ≠ 0 → s.fbit (fPART_CTRL_LOCK n.val) = true → s.fget (fPART_CTRL_REQ n.val) ≠ q → Done (mk m n) s (Dropped m (rPART_CTRL n.val) pwLocked))
    ∧ (n.val = 0 → s.fbit (fPART_CTRL_LOCK 0) = false → Done (mk m n) s (Written [rPART_CTRL 0]))

/-- A request for a module mode other than RECOVERY waits for its boundary; in RECOVERY it resets the module. -/
def modeReq (mk : Nat → Instr) (q : Nat) : Prop :=
  ∀ m s, Reach s m rSYS_MODULE_MODE (q * 16) →
    (s.fget fSYS_MODULE_MODE_CUR ≠ 2 → Done (mk m) s (fun s t =>
      Holds t [(fSYS_MODULE_MODE_REQ, q), (fSYS_MODULE_MODE_BUSY, 1), (fSYS_MODULE_MODE_CUR, s.fget fSYS_MODULE_MODE_CUR)] ∧ t.modeReqPend = true
      ∧ Written [rSYS_MODULE_MODE] s { t with modeReqPend := s.modeReqPend }))
    ∧ (s.fget fSYS_MODULE_MODE_CUR = 2 → ResetsNow s 11 → Done (mk m) s (fun _ t => ResetWith 11 t ∧ t.fget fRST_START_FAIL_COUNT = 0))

end Sys2Proof.Claims

/-- Requests for module and partition modes, and the reset commands (R77, R79, R85 … R87, R585, R592, R593). -/
def Obligations.ModeAndResetCommands : Prop :=
  modeReq .sysModeReqRun 0 ∧ modeReq .sysModeReqStop 1
  ∧ (∀ m s, Reach s m rSYS_MODULE_MODE 32 → ResetsNow s 11 → Done (.sysModeReqRecovery m) s (fun _ t => ResetWith 11 t ∧ t.recReq = true))
  ∧ partReq .partReqRun 0 ∧ partReq .partReqStop 1 ∧ partReq .partReqHold 2
  ∧ (∀ m (v : Word) s, Reach s m rRST_CTRL (setBits v.toNat 0 0 1) →
      (bitsOf v.toNat 15 8 = 0xA5 → ResetsNow s 11 → Done (.rstCtrlReset m v) s (fun _ t => ResetWith 11 t))
      ∧ (bitsOf v.toNat 15 8 ≠ 0xA5 → Done (.rstCtrlReset m v) s (Rejected m rRST_CTRL)))
  ∧ (∀ m v s, Reach s m rRST_CTRL (setBits v.toNat 1 1 1) → bitOf v.toNat 0 = false → Done (.rstCtrlClrFails m v) s (fun s t =>
      Holds t [(fRST_START_FAIL_COUNT, 0)] ∧ Written [rRST_CTRL, fRST_START_FAIL_COUNT.off] s t))
  ∧ (∀ m v s, Reach s m rSYS_ERR_STAT (setBits v.toNat 0 0 1) → Done (.cfgRejectClear m v) s (fun s t =>
      Holds t [(fSYS_ERR_STAT_CFG_REJECT, 0)] ∧ (s.fbit fSYS_ERR_STAT_CFG_REJECT = true → t.reg rSYS_CFG_REJECT = 0 ∧ t.reg rSYS_CFG_REJECT_SRC = 0)
      ∧ (s.fbit fSYS_ERR_STAT_CFG_REJECT = false → t.reg rSYS_CFG_REJECT = s.reg rSYS_CFG_REJECT)
      ∧ (∀ i, 1 ≤ i → i ≤ 2 → bitOf (t.reg rSYS_ERR_STAT).toNat i = (bitOf (s.reg rSYS_ERR_STAT).toNat i && !bitOf v.toNat i))
      ∧ Written [rSYS_ERR_STAT, rSYS_CFG_REJECT, rSYS_CFG_REJECT_SRC] s t))

/-- Commands to the fabric's grants, the presses, the router, the conversion unit, the field link and racking (R104, R106, R211, R218, R269,
R280, R319, R325 … R329, R342, R382, R390, R422, R438, R447). -/
def Obligations.UnitCommands : Prop :=
  (∀ m (n : Fin 256) (w : Fin 4) ctrl (v : Word) s,
      let off := if ctrl = true then rPART_WIN_CTRL n.val w.val else rPART_WIN_BASE n.val w.val
      Reach s m off v.toNat → isVf m = false → s.fbit (fPART_CTRL_LOCK n.val) = false → s.heldGrants = [] →
      (ctrl = true → 1 ≤ bitsOf v.toNat 12 8 ∧ bitsOf v.toNat 12 8 ≤ 16
        ∧ (bitOf v.toNat 0 = true → winOk (s.fget (fPART_WIN_BASE_BASE n.val w.val) * 4096) (bitsOf v.toNat 12 8 * 256) (bitOf v.toNat 2) = true)) →
      (ctrl = false → s.fbit (fPART_WIN_CTRL_EN n.val w.val) = false) →
      let e := (s.fget fPART_RULE_EPOCH + 1) % 16
      (s.epochsOut = [] → Done (.grantTableWrite m n w ctrl v) s (fun s t =>
        Holds t [(fPART_RULE_EPOCH, e), (fPART_WIN_CTRL_EPOCH n.val w.val, e), (fPART_WIN_CTRL_DONE n.val w.val, 1)]
        ∧ (ctrl = true → Holds t [(fPART_WIN_CTRL_LIMIT n.val w.val, bitsOf v.toNat 12 8), (fPART_WIN_CTRL_WR n.val w.val, bitsOf v.toNat 2 2),
            (fPART_WIN_CTRL_RD n.val w.val, bitsOf v.toNat 1 1), (fPART_WIN_CTRL_EN n.val w.val, bitsOf v.toNat 0 0)])
        ∧ (ctrl = false → t.fget (fPART_WIN_BASE_BASE n.val w.val) = bitsOf v.toNat 25 12)
        ∧ Written ([rPART_WIN_CTRL n.val w.val, rPART_WIN_BASE n.val w.val, rPART_RULE] ++ s.undone.map (fun u => rPART_WIN_CTRL u.1 u.2)) s
            { t with undone := s.undone }))
      ∧ (e ∈ s.epochsOut → Done (.grantTableWrite m n w ctrl v) s (fun s t =>
        (∃ x, t.heldGrants = [{ off := off, value := x }]) ∧ Written [] s { t with heldGrants := [] })))
  ∧ (∀ m (k : Fin 34) (v : Word) s, Reach s m (rTWIN_CMD (pressPage k.val)) (setBits v.toNat 0 0 1) → bitsOf v.toNat 13 8 = k.val → bitOf v.toNat 1 = false →
      (s.fget (fPAIR_STAT_STATE (pressPage k.val)) = stSpare → Done (.pressTwinProof m k v) s (fun s t =>
        Holds t [(fPAIR_STAT_STATE (pressPage k.val), stTest)]
        ∧ Written [rTWIN_CMD (pressPage k.val), (fPAIR_STAT_STATE (pressPage k.val)).off] s t))
      ∧ (s.fget (fPAIR_STAT_STATE (pressPage k.val)) ≠ stSpare → Done (.pressTwinProof m k v) s (Rejected m (rTWIN_CMD (pressPage k.val)))))
  ∧ (∀ m (k : Fin 34) (v : Word) s, Reach s m (rTWIN_CMD (pressPage k.val)) (setBits v.toNat 1 1 1) → bitsOf v.toNat 13 8 = k.val → bitOf v.toNat 0 = false →
      (s.fget (fPAIR_STAT_STATE (pressPage k.val)) ≠ stFenced → InRange (.press k) s → Done (.pressTwinFence m k v) s (fun s t =>
        Holds t [(fPAIR_STAT_STATE (pressPage k.val), stFenced), (fTWIN_STAT_CAUSE (pressPage k.val), 3)] ∧ t.cx (.press k) = {}
        ∧ (∀ i < 2, (t.frame k.val i).row = none) ∧ latched t 679 ∧ OtherCxs (.press k) s t))
      ∧ (s.fget (fPAIR_STAT_STATE (pressPage k.val)) = stFenced → Done (.pressTwinFence m k v) s (Rejected m (rTWIN_CMD (pressPage k.val)))))
  ∧ (∀ m (v : Word) s, Reach s m rEVT_SW_RAISE v.toNat → let e := bitsOf v.toNat 9 0
      (e < 768 → Done (.evtSwRaise m v) s (fun s t => latched t e ∧ WrittenEv [rEVT_SW_RAISE] [e] s t))
      ∧ (768 ≤ e → Done (.evtSwRaise m v) s (Rejected m rEVT_SW_RAISE)))
  ∧ (∀ m (a : Fin 64) v s, Reach s m (rEVT_ALM_B a.val) v.toNat → isVf m = false →
      (s.fget (fEVT_ALM_CTRL_MODE a.val) ≤ 1 → Done (.alarmTargetWrite m a v) s (fun s t =>
        t.reg (rEVT_ALM_A a.val) = SMap.get word0 s.heldLo (rEVT_ALM_A a.val) ∧ t.reg (rEVT_ALM_B a.val) = v
        ∧ Written [rEVT_ALM_A a.val, rEVT_ALM_B a.val] s { t with heldLo := s.heldLo }))
      ∧ (2 ≤ s.fget (fEVT_ALM_CTRL_MODE a.val) → Done (.alarmTargetWrite m a v) s (fun s t =>
        t.reg (rEVT_ALM_B a.val) = v ∧ Written [rEVT_ALM_B a.val] s t)))
  ∧ (∀ m v s, Reach s m rCONV_EPOCH (setBits v.toNat 31 31 1) → Done (.convEpochReq m v) s (fun s t =>
      Holds t [(fCONV_EPOCH_REQ, 1), (fCONV_EPOCH_BUSY, 1), (fCONV_EPOCH_CUR, s.fget fCONV_EPOCH_CUR)] ∧ Written [rCONV_EPOCH] s t))
  ∧ (∀ m (v : Word) s, Reach s m rCONV_PERSIST (setBits v.toNat 31 31 1) → bitsOf v.toNat 15 0 ≤ 1440 → Done (.convPersistSave m v) s (fun s t =>
      Holds t [(fCONV_PERSIST_BUSY, 1), (fCONV_PERSIST_PERIOD, bitsOf v.toNat 15 0), (fCONV_PERSIST_RESTORED, s.fget fCONV_PERSIST_RESTORED)]
      ∧ (s.fbit fCONV_PERSIST_BUSY = true → t.calRows = s.calRows ∧ t.calSince = s.calSince)
      ∧ (s.fbit fCONV_PERSIST_BUSY = false → t.calRows = 0 ∧ t.calSince = s.lt.toNat)
      ∧ Written [rCONV_PERSIST] s { t with calSince := s.calSince, calRows := s.calRows, calBad := s.calBad }))
  ∧ portCmd .trlPortHello 4 (fun p s t => t.port p.val = { s.port p.val with helloNow := true }
      ∧ Written [rTRL_PORT_CTRL p.val] s { t with ports := s.ports })
  ∧ portCmd .trlPortDelay 3 (fun p s t => t.port p.val = { s.port p.val with delayNow := true }
      ∧ Written [rTRL_PORT_CTRL p.val] s { t with ports := s.ports })
  ∧ portCmd .trlPortRetrain 2 (fun p s t => Holds t [(fTRL_PORT_STAT_LINK p.val, lkRetrain)]
      ∧ WrittenEv [rTRL_PORT_CTRL p.val, (fTRL_PORT_STAT_LINK p.val).off] [384 + 4 * p.val] s { t with ports := s.ports })
  ∧ portCmd .trlPortReset 1 (fun p s t => Holds t [(fTRL_PORT_STAT_LINK p.val, lkReset)]
      ∧ WrittenEv [rTRL_PORT_CTRL p.val, (fTRL_PORT_STAT_LINK p.val).off] [384 + 4 * p.val] s { t with ports := s.ports })
  ∧ (∀ m v s, Reach s m rTRL_SCHED_COMMIT v.toNat → Done (.trlSchedCommit m v) s (fun s t =>
      t.reg rTRL_SCHED_COMMIT = (s.reg rTRL_SCHED_COMMIT ||| v) ∧ Written [rTRL_SCHED_COMMIT] s t))
  ∧ (∀ m (p : Fin 32) (v : Word) s, Reach s m (rTRL_MGMT_TX p.val) (setBits v.toNat 30 30 1) → bitsOf v.toNat 10 0 ≤ 1024 →
      (s.fbit (fTRL_MGMT_TX_BUSY p.val) = false → Done (.trlMgmtTxGo m p v) s (fun s t =>
        Holds t [(fTRL_MGMT_TX_BUSY p.val, 1), (fTRL_MGMT_TX_TARGET p.val, bitsOf v.toNat 27 24), (fTRL_MGMT_TX_TAG p.val, bitsOf v.toNat 23 16),
          (fTRL_MGMT_TX_LEN p.val, bitsOf v.toNat 10 0)] ∧ Written [rTRL_MGMT_TX p.val] s t))
      ∧ (s.fbit (fTRL_MGMT_TX_BUSY p.val) = true → Done (.trlMgmtTxGo m p v) s (Dropped m (rTRL_MGMT_TX p.val) pwState)))
  ∧ (∀ m (p : Fin 32) v s, Reach s m (rTRL_MGMT_RX p.val) (setBits v.toNat 31 31 1) → Done (.trlMgmtRxRelease m p v) s (fun s t =>
      Holds t [(fTRL_MGMT_RX_VALID p.val, 0), (fTRL_MGMT_RX_LEN p.val, s.fget (fTRL_MGMT_RX_LEN p.val))] ∧ Written [rTRL_MGMT_RX p.val] s t))
  ∧ (∀ m v s, Reach s m rRACK_CMD (setBits v.toNat 0 0 1) → bitOf v.toNat 1 = false →
      let tells (r : Nat) (s t : State) : Prop := Holds t [(fRACK_CMD_RESULT_RESULT, r)] ∧ Written [rRACK_CMD, rRACK_CMD_RESULT] s t
      let busy : Prop := s.rack.swapSeq.isSome = true ∨ s.rack.swapW.isSome = true
      (s.active = false → Done (.rackCmdSwap m v) s (tells 5)) ∧ (s.active = true → busy → Done (.rackCmdSwap m v) s (tells 3))
      ∧ (s.active = true → ¬ busy → s.fget fRACK_STAT_SYNC ≠ 3 → Done (.rackCmdSwap m v) s (tells 2))
      ∧ (s.active = true → ¬ busy → s.fget fRACK_STAT_SYNC = 3 → s.fget fTRL_SPLIT_STAT_SPLIT ≠ 0 → Done (.rackCmdSwap m v) s (tells 4))
      ∧ (s.active = true → ¬ busy → s.fget fRACK_STAT_SYNC = 3 → s.fget fTRL_SPLIT_STAT_SPLIT = 0 → Done (.rackCmdSwap m v) s (fun s t =>
          Holds t [(fRACK_CMD_RESULT_RESULT, 1)] ∧ t.rack = { s.rack with swapSeq := some ((s.rackSeq + 1) % 2 ^ 32) }
          ∧ t.rackUnacked = s.rackUnacked ++ [{ kind := 7, seq := (s.rackSeq + 1) % 2 ^ 32, data := [] }]
          ∧ Written [rRACK_CMD, rRACK_CMD_RESULT] s { t with rack := s.rack })))
  ∧ (∀ m v s, Reach s m rRACK_CMD (setBits v.toNat 1 1 1) → bitOf v.toNat 0 = false →
      (s.standby = true → Done (.rackCmdResync m v) s (fun s t =>
        Holds t [(fRACK_STAT_SYNC, 2), (fRACK_FILL_PHASE, 1), (fRACK_FILL_PERCENT, 0)]
        ∧ Written [rRACK_CMD, rRACK_STAT, fRACK_FILL_PHASE.off] s { t with rack := s.rack }))
      ∧ (s.standby = false → Done (.rackCmdResync m v) s (Written [rRACK_CMD])))
  ∧ (∀ m (v : Word) s, Reach s m rRACK_GEN_SEED v.toNat →
      (s.active = true → s.fget fSYS_MODULE_MODE_CUR = 1 → s.fget fRACK_STAT_SYNC ≠ 3 → Done (.rackGenSeed m v) s (fun s t =>
        Holds t [(fTRL_GEN_GEN, bitsOf v.toNat 15 0)] ∧ latched t 697
        ∧ t.mem = s.mem ∧ t.parts = s.parts ∧ t.ctxs = s.ctxs))
      ∧ (¬ (s.active = true ∧ s.fget fSYS_MODULE_MODE_CUR = 1 ∧ s.fget fRACK_STAT_SYNC ≠ 3) →
        Done (.rackGenSeed m v) s (Dropped m rRACK_GEN_SEED pwState)))


namespace Sys2Proof.Claims

/-- As `Written`, and the controllers' state beside their registers may have changed. -/
def WrittenCan (l es : List Nat) (s t : State) : Prop := WrittenEv l es s { t with can := s.can }

/-- The controller `c` is as `v` and every other as before. -/
def CanIs (c : Nat) (v : CanSt) (s t : State) : Prop := t.canOf c = v ∧ ∀ d, d ≠ c → t.canOf d = s.canOf d

end Sys2Proof.Claims

/-- Commands to queues, snapshots, wall time, CAN, local IO and the panel (R459, R464, R467, R469, R494, R496, R520, R523, R524, R526, R528,
R539, R551, R553). -/
def Obligations.DeviceCommands : Prop :=
  (∀ m (q : Fin 257) (v : Word) s, Reach s m (rHOST_RQ_CFG q.val) (setBits v.toNat 31 31 1) → 6 ≤ bitsOf v.toNat 3 0 →
      (s.fbit (fHOST_RQ_CFG_EN q.val) = false → Done (.hostRqEnable m q v) s (fun s t =>
        Holds t [(fHOST_RQ_CFG_EN q.val, 1), (fHOST_RQ_CFG_LOG2SIZE q.val, bitsOf v.toNat 3 0)]
        ∧ t.reg (rHOST_RQ_RIDX q.val) = s.reg (rHOST_RQ_WIDX q.val) ∧ t.rq q.val = {} ∧ (∀ k, k ≠ q.val → t.rq k = s.rq k)
        ∧ Written [rHOST_RQ_CFG q.val, rHOST_RQ_RIDX q.val, rHOST_RQ_STAT q.val] s { t with hq := s.hq }))
      ∧ (s.fbit (fHOST_RQ_CFG_EN q.val) = true → bitsOf v.toNat 3 0 = s.fget (fHOST_RQ_CFG_LOG2SIZE q.val) →
        Done (.hostRqEnable m q v) s (Written [rHOST_RQ_CFG q.val, rHOST_RQ_STAT q.val]))
      ∧ (s.fbit (fHOST_RQ_CFG_EN q.val) = true → bitsOf v.toNat 3 0 ≠ s.fget (fHOST_RQ_CFG_LOG2SIZE q.val) →
        Done (.hostRqEnable m q v) s (Rejected m (rHOST_RQ_CFG q.val))))
  ∧ (∀ m (q : Fin 257) (v : Word) s, Reach s m (rHOST_RQ_RIDX q.val) v.toNat →
      let d := (v.toNat + 2 ^ 32 - (s.reg (rHOST_RQ_RIDX q.val)).toNat) % 2 ^ 32
      (d ≤ s.rqUsed q.val → Done (.hostRqRidx m q v) s (fun s t => t.reg (rHOST_RQ_RIDX q.val) = v
        ∧ Written [rHOST_RQ_RIDX q.val, rHOST_RQ_STAT q.val] s t))
      ∧ (s.rqUsed q.val < d → Done (.hostRqRidx m q v) s (Rejected m (rHOST_RQ_RIDX q.val))))
  ∧ (∀ m (k : Fin 16) v s, Reach s m (rHOST_SNAP_CTRL k.val) (setBits v.toNat 30 30 1) → v = s.reg (rHOST_SNAP_CTRL k.val) →
      (s.fbit (fHOST_SNAP_CTRL_EN k.val) = true → Done (.hostSnapGo m k v) s (fun s t =>
        t.snapSet k.val = { s.snapSet k.val with go := true } ∧ (∀ i, i ≠ k.val → t.snapSet i = s.snapSet i)
        ∧ Written [rHOST_SNAP_CTRL k.val] s { t with snaps := s.snaps }))
      ∧ (s.fbit (fHOST_SNAP_CTRL_EN k.val) = false → Done (.hostSnapGo m k v) s (Dropped m (rHOST_SNAP_CTRL k.val) pwState)))
  ∧ (∀ m (k : Fin 16) (v : Word) s, Reach s m (rHOST_SNAP_RIDX k.val) v.toNat →
      let r := (s.reg (rHOST_SNAP_RIDX k.val)).toNat
      let ok : Prop := (v.toNat + 2 ^ 32 - r) % 2 ^ 32 ≤ ((s.reg (rHOST_SNAP_WIDX k.val)).toNat + 2 ^ 32 - r) % 2 ^ 32
      (ok → Done (.hostSnapRidx m k v) s (fun s t => t.reg (rHOST_SNAP_RIDX k.val) = v ∧ Written [rHOST_SNAP_RIDX k.val] s t))
      ∧ (¬ ok → Done (.hostSnapRidx m k v) s (Rejected m (rHOST_SNAP_RIDX k.val))))
  ∧ (∀ m (v : Word) s, Reach s m rTIME_SET_CMD (setBits v.toNat 0 0 1) → bitOf v.toNat 2 = false →
      let e : Int := s.setValue - s.wallTarget
      let step := bitOf v.toNat 1 || s.stepSize e
      (s.fget fTIME_PTP_STAT_PORT_STATE ≠ psSlave → step = true → Done (.timeSetGo m v) s (fun s t =>
        t.wall = { s.wall with step := some (e, s.lt.toNat) } ∧ Written [rTIME_SET_CMD] s { t with wall := s.wall }))
      ∧ (s.fget fTIME_PTP_STAT_PORT_STATE ≠ psSlave → step = false → Done (.timeSetGo m v) s (fun s t =>
        t.wall = { s.wall with slewLeft := e } ∧ Holds t [(fTIME_STAT_WALL_UNSET, 0)] ∧ t.mem = s.mem ∧ t.lt = s.lt))
      ∧ (s.fget fTIME_PTP_STAT_PORT_STATE = psSlave → Done (.timeSetGo m v) s (Dropped m rTIME_SET_CMD pwState)))
  ∧ (∀ m (v : Word) s, Reach s m rTIME_SET_CMD (setBits v.toNat 2 2 1) → bitOf v.toNat 0 = false →
      (s.wall.hold.isSome = true → Done (.timeSetAcceptBack m v) s (fun s t => t.wall = { s.wall with acceptBack := true }
        ∧ Written [rTIME_SET_CMD] s { t with wall := s.wall }))
      ∧ (s.wall.hold = none → Done (.timeSetAcceptBack m v) s (Dropped m rTIME_SET_CMD pwState)))
  ∧ (∀ m (c : Fin 4) (v : Word) s, Reach s m (rCAN_TX_CMD c.val) v.toNat → (∀ b < 3, bitOf v.toNat b = true → bitOf v.toNat (8 + b) = false) →
      ((∀ b < 3, bitOf v.toNat (8 + b) = false) → (∀ b < 3, bitOf v.toNat b = true → s.canReqOk c.val b = true ∧ s.canPend c.val b = false) →
        Done (.canTxReq m c v) s (fun s t => (∀ b < 3, t.canPend c.val b = (s.canPend c.val b || bitOf v.toNat b))
          ∧ Written [rCAN_TX_CMD c.val, rCAN_TX_STAT c.val] s t))
      ∧ ((∃ b < 3, bitOf v.toNat b = true ∧ s.canReqOk c.val b = false ∧ s.canPend c.val b = false) →
        Done (.canTxReq m c v) s (Rejected m (rCAN_TX_CMD c.val)))
      ∧ ((∀ b < 3, bitOf v.toNat b = false) → Done (.canTxAbort m c v) s (fun s t =>
          (∀ b < 3, s.canPend c.val b = true → bitOf v.toNat (8 + b) = true →
            (s.canOnBus c.val b = false → t.canPend c.val b = false ∧ t.arrBit (rCAN_TX_STAT c.val) (8 + b) = true ∧ latched t (576 + 8 * c.val + 3))
            ∧ (s.canOnBus c.val b = true → t.canPend c.val b = true ∧ b ∈ (t.canOf c.val).abort))
          ∧ (∀ b < 3, bitOf v.toNat (8 + b) = false → t.canPend c.val b = s.canPend c.val b)
          ∧ WrittenCan [rCAN_TX_CMD c.val, rCAN_TX_STAT c.val, rCAN_FLAGS c.val] [576 + 8 * c.val + 3] s t)))
  ∧ (∀ m (c : Fin 4) (v : Word) s, Reach s m (rCAN_CTRL c.val) (setBits v.toNat 8 8 1) → bitsOf v.toNat 2 0 = s.fget (fCAN_CTRL_MODE c.val) →
      bitsOf v.toNat 2 0 ≤ 4 →
      Done (.canRecover m c v) s (fun s t =>
        CanIs c.val (if s.fget (fCAN_STAT_STATE c.val) = 2 then { s.canOf c.val with recovering := true } else s.canOf c.val) s t
        ∧ WrittenCan [rCAN_CTRL c.val, (fCAN_RATE_STAT_SEARCHING c.val).off] [] s t))
  ∧ (∀ m (c : Fin 4) s, s.busMaster m = true → isVf m = false → s.mgt.down = false →
      let v := s.canOf c.val
      let word (l : List Nat) (w : Nat) : List Byte := leBytes 4 (l.getD w 0 % 2 ^ 32)
      (v.locked = false → v.fifo = [] → Done (.canRxReadWord0 m c) s (fun s t => replied m (leBytes 4 0) s t ∧ t = { s with out := t.out }))
      ∧ (∀ e l, v.locked = false → v.fifo = e :: l → Done (.canRxReadWord0 m c) s (fun s t => replied m (word e 0) s t
          ∧ CanIs c.val { v with locked := true, shown := e } s t ∧ Holds t [(fCAN_RX_STAT_LOCKED c.val, 1)] ∧ RegsBut [rCAN_RX_STAT c.val] s t))
      ∧ (v.locked = true → Done (.canRxReadWord0 m c) s (fun s t => replied m (word v.shown 0) s t ∧ t = { s with out := t.out }))
      ∧ (v.locked = false → Done (.canRxReadWord19 m c) s (fun s t => replied m (word v.shown 19) s t ∧ t = { s with out := t.out }))
      ∧ (v.locked = true → Done (.canRxReadWord19 m c) s (fun s t => replied m (word v.shown 19) s t
          ∧ CanIs c.val { v with locked := false, fifo := v.fifo.drop 1 } s t ∧ (v.fifo.drop 1 ≠ [] → latched t (576 + 8 * c.val))
          ∧ RegsBut ([rCAN_RX_STAT c.val, rCAN_FLAGS c.val] ++ raiseRegs (576 + 8 * c.val)) s t)))
  ∧ (∀ m (v : Word) s, Reach s m rLIO_CTRL (setBits v.toNat 8 8 1) → 1 ≤ bitsOf v.toNat 7 0 →
      let there : Prop := s.fbit fLIO_STAT_LINK = true ∧ s.fbit fLIO_STAT_SHUTDOWN = true
      (there → Done (.lioArm m v) s (fun s t => t.lio = { s.lio with arm := true } ∧ Written [rLIO_CTRL] s { t with lio := s.lio }))
      ∧ (¬ there → Done (.lioArm m v) s (Dropped m rLIO_CTRL pwState)))
  ∧ (∀ m (v : Word) s, Reach s m rPANEL_SWAP v.toNat →
      (s.fbit fPANEL_STAT_SWAP_PEND = false → Done (.panelSwap m v) s (fun s t => Holds t [(fPANEL_STAT_SWAP_PEND, 1)]
        ∧ t.panel = { s.panel with swap := v.toNat, ready := false } ∧ Written [rPANEL_SWAP, rPANEL_STAT] s { t with panel := s.panel }))
      ∧ (s.fbit fPANEL_STAT_SWAP_PEND = true → Done (.panelSwap m v) s (Dropped m rPANEL_SWAP pwState)))
  ∧ (∀ m (v : Word) s, Reach s m rPANEL_CTRL v.toNat → 1 ≤ bitsOf v.toNat 15 8 → bitsOf v.toNat 15 8 ≤ bitsOf v.toNat 7 0 → bitsOf v.toNat 7 0 ≤ 120 →
      s.panel.ready = false →
      let out (st : Nat) (s t : State) : Prop := Holds t [(fPANEL_CTRL_EN, bitsOf v.toNat 16 16), (fPANEL_STAT_STATE, st)]
        ∧ WrittenEv [rPANEL_CTRL, rPANEL_STAT, fPANEL_FLAGS_SUPPLY.off] [710] s t
      (bitOf v.toNat 16 = true → s.fbit fPANEL_CTRL_EN = false → s.pnState = pnOff → s.pins.panelId = false → Done (.panelEn m v) s (out 1))
      ∧ (bitOf v.toNat 16 = true → s.fbit fPANEL_CTRL_EN = false → s.pnState = pnOff → s.pins.panelId = true → Done (.panelEn m v) s (fun s t =>
          out 3 s t ∧ Holds t [(fPANEL_FLAGS_SUPPLY, 1)] ∧ latched t 710))
      ∧ (bitOf v.toNat 16 = false → s.fbit fPANEL_CTRL_EN = true → Done (.panelEn m v) s (out 0)))


namespace Sys2Proof.Claims

/-- Registers that a cask commit may change beside the bytes: the flags and the count of saturated wear counters (R608). -/
def wearRegs : List Nat := [fCASK_STAT_SATURATED.off, fCASK_WEAR_STAT_SATURATED.off]

/-- Outside [lo, hi) and the wear-spread counters (R604) the cask is as before. -/
def CaskBut (lo hi : Nat) (s t : State) : Prop :=
  ∀ a, (a < lo ∨ hi ≤ a) → (a < 0x281000 ∨ 0x291000 ≤ a) → SMap.get cask0 t.cask a = SMap.get cask0 s.cask a

/-- A settings record of type `ty` has been saved in slot `k` with payload `p` (R564, R566). -/
def SavedAt (k ty : Nat) (p : List Byte) (s t : State) : Prop :=
  leAt (t.caskList (slotAddr k) 8) 0 4 = 0x5E750001 ∧ leAt (t.caskList (slotAddr k) 8) 4 2 = ty
    ∧ t.caskList (slotAddr k + 32) p.length = p ∧ CaskBut (slotAddr k) (slotAddr k + 32 + p.length) s t

/-- A BOOT record's payload (R566). -/
def bootBytes (b : Boot) : List Byte := leBytes 1 b.confirmed ++ leBytes 1 (b.trial.getD 0xFF) ++ leBytes 1 b.bank ++ leBytes 1 b.mode

/-- As `Written`, and cask bytes may have changed. -/
def WrittenCask (l : List Nat) (s t : State) : Prop := Written (l ++ wearRegs) s { t with cask := s.cask }

/-- The word that a flash command of operation `op` writes. -/
def fwWord (v : Word) (op : Nat) : Nat := setBits (setBits v.toNat 30 28 op) 31 31 1

end Sys2Proof.Claims

/-- Commands to management (R555, R560, R561, R566, R578, R580, R581): the restart, flash writes and the trial, saves of settings, and the
cellar book. -/
def Obligations.ManagementCommands : Prop :=
  (∀ m (v : Word) s, Reach s m rMGT_CTRL (setBits v.toNat 0 0 1) → bitsOf v.toNat 5 4 ≤ 2 → s.fbit fMGT_CTRL_LOCK = false →
      Done (.mgtRestartCmd m v) s (fun s t => t.mgt = { s.mgt with down := true } ∧ t.eng = {} ∧ t.can = []
        ∧ Holds t [(fMGT_LAST_RESTART_CAUSE, 2)] ∧ Counted fMGT_STAT_RESTARTS s t
        ∧ t.mem = s.mem ∧ t.ctxs = s.ctxs ∧ t.rows = s.rows ∧ t.parts = s.parts ∧ t.lt = s.lt ∧ t.cask = s.cask))
  ∧ (∀ m (v : Word) s, Reach s m rMGT_FW_CMD (fwWord v 0) →
      let n := bitsOf v.toNat 10 0
      let ofs := s.fget fMGT_FW_OFS_OFFSET
      (¬ (4 ≤ n ∧ n ≤ 1024) → Done (.mgtFwWrite m v) s (Rejected m rMGT_FW_CMD))
      ∧ (4 ≤ n → n ≤ 1024 → s.fbit fMGT_FW_STAT_BUSY = true → Done (.mgtFwWrite m v) s (Dropped m rMGT_FW_CMD pwState))
      ∧ (4 ≤ n → n ≤ 1024 → s.fbit fMGT_FW_STAT_BUSY = false → (n % 4 ≠ 0 ∨ ofs % 4 ≠ 0) → Done (.mgtFwWrite m v) s (fun s t =>
          Holds t [(fMGT_FW_STAT_RESULT, 3), (fMGT_FW_STAT_BUSY, 0)] ∧ Written [rMGT_FW_CMD, rMGT_FW_STAT] s t))
      ∧ (4 ≤ n → n ≤ 1024 → s.fbit fMGT_FW_STAT_BUSY = false → n % 4 = 0 → ofs % 4 = 0 → s.inRom = false → ofs + n ≤ 2 ^ 27 →
          Done (.mgtFwWrite m v) s (fun s t => Holds t [(fMGT_FW_STAT_BUSY, 1)]
            ∧ t.mgt = { s.mgt with fw := some { addr := (1 - s.fget fMGT_STAT_BANK) * 2 ^ 27 + ofs
                                                data := ((List.range 256).flatMap (fun j => leBytes 4 (s.reg (rMGT_FW_BUF j)).toNat)).take n } }
            ∧ t.flash = s.flash ∧ Written [rMGT_FW_CMD, rMGT_FW_STAT] s { t with mgt := s.mgt })))
  ∧ (∀ m (v : Word) s k, s.fbit fMGT_FW_STAT_BUSY = false → s.setSlot setBoot = some k →
      let regs := [rMGT_FW_CMD, rMGT_FW_STAT, fMGT_STAT_TRIAL_PEND.off]
      (Reach s m rMGT_FW_CMD (fwWord v 1) → s.inRom = false → Done (.mgtFwTrial m v) s (fun s t =>
        Holds t [(fMGT_FW_STAT_RESULT, 1), (fMGT_STAT_TRIAL_PEND, 1)]
        ∧ SavedAt k setBoot (bootBytes { s.boot with trial := some (1 - s.fget fMGT_STAT_BANK) }) s t ∧ WrittenCask regs s t))
      ∧ (Reach s m rMGT_FW_CMD (fwWord v 2) → (s.fget fMGT_STAT_BOOT = 1 ∨ s.fget fMGT_STAT_BOOT = 2) → Done (.mgtFwConfirm m v) s (fun s t =>
        Holds t [(fMGT_FW_STAT_RESULT, 1)] ∧ t.scrubDue = true
        ∧ SavedAt k setBoot (bootBytes { s.boot with confirmed := s.fget fMGT_STAT_BANK, mode := 0 }) s t
        ∧ WrittenCask regs s { t with scrubDue := s.scrubDue }))
      ∧ (∀ b, Reach s m rMGT_FW_CMD (fwWord v 3) → s.boot.trial = some b → Done (.mgtFwCancel m v) s (fun s t =>
        Holds t [(fMGT_FW_STAT_RESULT, 1), (fMGT_STAT_TRIAL_PEND, 0)] ∧ SavedAt k setBoot (bootBytes { s.boot with trial := none }) s t
        ∧ WrittenCask regs s t)))
  ∧ (∀ m (v : Word) s, s.fbit fMGT_FW_STAT_BUSY = false →
      (Reach s m rMGT_FW_CMD (fwWord v 2) → s.fget fMGT_STAT_BOOT = 0 → Done (.mgtFwConfirm m v) s (fun s t =>
        Holds t [(fMGT_FW_STAT_RESULT, 5)] ∧ Written [rMGT_FW_CMD, rMGT_FW_STAT] s t))
      ∧ (Reach s m rMGT_FW_CMD (fwWord v 3) → s.boot.trial = none → Done (.mgtFwCancel m v) s (fun s t =>
        Holds t [(fMGT_FW_STAT_RESULT, 5)] ∧ Written [rMGT_FW_CMD, rMGT_FW_STAT] s t)))
  ∧ (∀ m (v : Word) s i k, Reach s m rMGT_SET_SAVE v.toNat → 3 ≤ i → i ≤ 6 → (∀ j, 3 ≤ j → j ≤ 6 → bitOf v.toNat j = decide (j = i)) →
      s.setSlot i = some k → Done (.mgtSetSave m v) s (fun s t =>
        SavedAt k i ((setRegs i).flatMap (fun e => leBytes 4 ((s.reg e.1).toNat &&& e.2))) s t ∧ WrittenCask [rMGT_SET_SAVE] s t))
  ∧ (∀ m (v : Word) s, bitOf v.toNat 0 = false →
      let head (t : State) : List Byte := SMap.get noRec t.cb.ring ((t.cbHead + 2 ^ 32 - 1) % 2 ^ 32 % ringSize)
      let regs := [rMGT_CB_CTRL, rMGT_CB_STAT, fMGT_CB_HEAD_COUNT.off, fMGT_CB_FROZEN_COUNT.off]
      (Reach s m rMGT_CB_CTRL (setBits v.toNat 31 31 1) → s.fbit fMGT_CB_CTRL_FREEZE = false → s.fbit fMGT_CB_STAT_FROZEN = false →
        Done (.mgtCbFreeze m v) s (fun s t => Holds t [(fMGT_CB_CTRL_FREEZE, 1), (fMGT_CB_STAT_FROZEN, 1), (fMGT_CB_FROZEN_COUNT, 0)]
          ∧ t.cellarQ = [] ∧ t.cb.frozenAt = s.lt.toNat ∧ leAt (head t) 0 2 = 0x26 ∧ WrittenEv regs [712] s t))
      ∧ (Reach s m rMGT_CB_CTRL (setBits v.toNat 31 31 0) → s.fbit fMGT_CB_CTRL_FREEZE = true → s.fbit fMGT_CB_STAT_FROZEN = true →
        Done (.mgtCbUnfreeze m v) s (fun s t => Holds t [(fMGT_CB_CTRL_FREEZE, 0), (fMGT_CB_STAT_FROZEN, 0)]
          ∧ t.cellarQ = [] ∧ t.cbHead = (s.cbHead + 1) % 2 ^ 32 ∧ leAt (head t) 0 2 = 0x27 ∧ WrittenEv regs [712] s t)))
  ∧ (∀ m (v : Word) s, Reach s m rMGT_CB_CTRL (setBits v.toNat 0 0 1) → bitOf v.toNat 31 = s.fbit fMGT_CB_CTRL_FREEZE →
      Done (.mgtCbFfClear m v) s (fun s t => Holds t [(fMGT_CB_STAT_FF_COUNT, 0), (fMGT_CB_STAT_FF_FULL, 0)] ∧ t.cb.ff = []
        ∧ t.cb.ring = s.cb.ring ∧ Written [rMGT_CB_CTRL, rMGT_CB_STAT] s t))
  ∧ (∀ m (v : Word) s, Reach s m rMGT_CB_IDX v.toNat →
      let q := s.cbRecord (s.fbit fMGT_CB_SELSTAT_REGION) v.toNat
      Done (.mgtCbIdx m v) s (fun s t => t.reg rMGT_CB_IDX = v ∧ Holds t [(fMGT_CB_SELSTAT_VALID, b2n q.isSome)]
        ∧ (∀ w < 8, (t.reg (rMGT_CB_REC w)).toNat = match q with | some b => leAt b (4 * w) 4 | none => 0)
        ∧ Written ([rMGT_CB_IDX, rMGT_CB_SELSTAT] ++ span (rMGT_CB_REC 0) 4 8) s t))

/-- Commands to the cask (R599, R604, R606, R608, R610): the commit buffer, passwords, and the option block. -/
def Obligations.CaskCommands : Prop :=
  (∀ m (v : Word) s, Reach s m rCASK_CTRL (setBits v.toNat 0 0 1) → bitOf v.toNat 1 = false →
      (s.fbit fCASK_STAT_BUSY = true → Done (.caskCommit m v) s (Written [rCASK_CTRL]))
      ∧ (s.fbit fCASK_STAT_BUSY = false → s.ck.buf = [] → Done (.caskCommit m v) s (fun s t =>
          Holds t [(fCASK_COMMIT_RESULT_RESULT, 2), (fCASK_COMMIT_RESULT_BYTES, 0), (fCASK_STAT_BUSY, 0)]
          ∧ Written [rCASK_CTRL, rCASK_COMMIT_RESULT] s t))
      ∧ (s.fbit fCASK_STAT_BUSY = false → s.ck.buf ≠ [] → Done (.caskCommit m v) s (fun s t =>
          Holds t [(fCASK_STAT_BUSY, 1)] ∧ Written [rCASK_CTRL, rCASK_STAT] s t)))
  ∧ (∀ m (v : Word) s, Reach s m rCASK_CTRL (setBits v.toNat 1 1 1) → bitOf v.toNat 0 = false → Done (.caskDiscard m v) s (fun s t =>
      Holds t [(fCASK_STAT_BUF_BYTES, 0)] ∧ t.ck = { s.ck with buf := [] } ∧ Written [rCASK_CTRL, rCASK_STAT] s { t with ck := s.ck }))
  ∧ (∀ m v s, bitOf v.toNat 0 = true → bitOf v.toNat 1 = true → Reach s m rCASK_CTRL v.toNat →
      Done (.caskCommit m v) s (Rejected m rCASK_CTRL))
  ∧ (∀ m (j : Fin 1024) (v : Word) s, Reach s m (rCASK_WIN j.val) v.toNat →
      let a := s.fget fCASK_WIN_BASE_BASE * 4096 + 4 * j.val
      let r := regionOf a
      let bs := addrBytes a (leBytes 4 v.toNat)
      (r < 6 → Done (.caskWinWrite m j v) s (Dropped m (rCASK_WIN j.val) pwInUse))
      ∧ (6 ≤ r → s.caskMay r true m = false → Done (.caskWinWrite m j v) s (Dropped m (rCASK_WIN j.val) pwPassword))
      ∧ (6 ≤ r → s.caskMay r true m = true → s.fbit fCASK_STAT_BUSY = true → Done (.caskWinWrite m j v) s (fun s t =>
          t.ck = { s.ck with held := s.ck.held ++ bs } ∧ Written [] s { t with ck := s.ck }))
      ∧ (6 ≤ r → s.caskMay r true m = true → s.fbit fCASK_STAT_BUSY = false → s.bufOver bs = false → Done (.caskWinWrite m j v) s (fun s t =>
          (∀ i < 4, SMap.get (fun _ => none) t.ck.buf (a + i) = some (byteOf v.toNat i))
          ∧ (∀ k, (k < a ∨ a + 4 ≤ k) → SMap.get (fun _ => none) t.ck.buf k = SMap.get (fun _ => none) s.ck.buf k)
          ∧ t.ck = { s.ck with buf := t.ck.buf } ∧ t.cask = s.cask ∧ Written [rCASK_STAT] s { t with ck := s.ck }))
      ∧ (6 ≤ r → s.caskMay r true m = true → s.fbit fCASK_STAT_BUSY = false → s.bufOver bs = true → Done (.caskWinWrite m j v) s (fun s t =>
          Dropped m (rCASK_WIN j.val) pwState (s.fset fCASK_STAT_BUF_FULL 1) t)))
  ∧ (∀ m (v : Word) s, Reach s m rCASK_PW_HI v.toNat →
      let r := s.fget fCASK_PW_SEL_REGION
      let w := s.fbit fCASK_PW_SEL_KIND
      let pw := v.toNat * 2 ^ 32 + (SMap.get word0 s.heldLo rCASK_PW_LO).toNat
      let refused := decide (s.lt.toNat < SMap.get (fun _ => 0) s.ck.refused r)
      (refused = true → Done (.caskPwHi m v) s (fun s t => t.ck = s.ck ∧ SMap.get word0 t.heldLo rCASK_PW_LO = 0
          ∧ Written [rCASK_PW_HI] s { t with heldLo := s.heldLo }))
      ∧ (refused = false → s.caskPw r w = pw → Done (.caskPwHi m v) s (fun s t =>
          t.ck.unlocks.getLast? = some { region := r, write := w, master := m } ∧ t.ck.unlocks.length ≤ 8
          ∧ (∀ u ∈ t.ck.unlocks, u ∈ s.ck.unlocks ∨ u = { region := r, write := w, master := m })
          ∧ t.ck = { s.ck with unlocks := t.ck.unlocks } ∧ Written [rCASK_PW_HI] s { t with heldLo := s.heldLo, ck := s.ck }))
      ∧ (refused = false → s.caskPw r w ≠ pw → Done (.caskPwHi m v) s (fun s t =>
          Holds t [(fCASK_STAT_BAD_PW, 1)] ∧ SMap.get (fun _ => 0) t.ck.refused r = s.lt.toNat + 1000000000
          ∧ (∀ k, k ≠ r → SMap.get (fun _ => 0) t.ck.refused k = SMap.get (fun _ => 0) s.ck.refused k)
          ∧ t.ck = { s.ck with refused := t.ck.refused } ∧ Written [rCASK_PW_HI, rCASK_STAT] s { t with heldLo := s.heldLo, ck := s.ck })))
  ∧ (∀ m (v : Word) s, Reach s m rCASK_LOCK v.toNat → Done (.caskLock m v) s (fun s t =>
      (∀ u : Unlock, u ∈ t.ck.unlocks ↔ u ∈ s.ck.unlocks ∧ ¬ (u.master = m ∧ bitOf v.toNat (u.region + (if u.write then 16 else 0)) = true))
      ∧ t.ck = { s.ck with unlocks := t.ck.unlocks } ∧ Written [rCASK_LOCK] s { t with ck := s.ck }))
  ∧ (∀ m (v : Word) s, Reach s m rCASK_OPT_CMD (setBits v.toNat 0 0 1) → bitOf v.toNat 1 = false →
      let l := s.optStaged
      let c := if s.fget fRST_OPT_SRC = 0 then 1 else 0
      let res (n : Nat) (s t : State) : Prop := Holds t [(fCASK_OPT_STAT_RESULT, n), (fCASK_OPT_STAT_BUSY, 0)]
        ∧ Written [rCASK_OPT_CMD, rCASK_OPT_STAT] s t
      (s.fbit fCASK_OPT_STAT_BUSY = true → Done (.caskOptCommit m v) s (Dropped m rCASK_OPT_CMD pwState))
      ∧ (s.fbit fCASK_OPT_STAT_BUSY = false → s.caskMay 0 true m = false → Done (.caskOptCommit m v) s (res 4))
      ∧ (s.fbit fCASK_OPT_STAT_BUSY = false → s.caskMay 0 true m = true → optFieldsOk l = false → Done (.caskOptCommit m v) s (res 2))
      ∧ (s.fbit fCASK_OPT_STAT_BUSY = false → s.caskMay 0 true m = true → optFieldsOk l = true → optRetainOk l = false →
          Done (.caskOptCommit m v) s (res 3))
      ∧ (s.fbit fCASK_OPT_STAT_BUSY = false → s.caskMay 0 true m = true → optFieldsOk l = true → optRetainOk l = true →
          Done (.caskOptCommit m v) s (fun s t => Holds t [(fCASK_OPT_STAT_BUSY, 1)] ∧ t.optCopy c = l ∧ CaskBut (0x800 * c) (0x800 * c + 0x800) s t
            ∧ WrittenCask [rCASK_OPT_CMD, rCASK_OPT_STAT] s { t with ck := s.ck })))
  ∧ (∀ m (v : Word) s, Reach s m rCASK_OPT_CMD (setBits v.toNat 1 1 1) → bitOf v.toNat 0 = false → s.fbit fCASK_OPT_STAT_BUSY = false →
      Done (.caskOptReload m v) s (fun s t =>
        (∀ i < 2048, bitsOf (t.reg (rCASK_OPT_BUF (i / 4))).toNat (8 * (i % 4) + 7) (8 * (i % 4))
          = if 0x210 ≤ i ∧ i < 0x310 then 0xFF else (s.optInUse.getD i 0).toNat)
        ∧ Written (rCASK_OPT_CMD :: span (rCASK_OPT_BUF 0) 4 512) s t))


namespace Sys2Proof.Claims

/-- Function `f` has lost its PCIe state (R454): its MSI-X, its queue, its snapshot sets. -/
def FnDown (f : Nat) (s t : State) : Prop :=
  (∀ e ∈ t.msix, e.1 / 1024 ≠ f) ∧ f ∉ t.msixEn ∧ f ∉ t.msixFmask ∧ Holds t [(fHOST_RQ_CFG_EN f, 0)] ∧ t.rq f = {}
    ∧ (∀ e ∈ t.staged, e.queue ≠ f)
    ∧ (∀ k < 16, s.fget (fHOST_SNAP_CFG_FUNC k) = f → Holds t [(fHOST_SNAP_CTRL_EN k, 0), (fHOST_SNAP_STAT_BUSY k, 0)] ∧ t.snapSet k = {})

/-- A posted write of the ladle has been handed to PCIe. -/
def Wrote (f addr : Nat) (l : List Byte) (t : State) : Prop := ({ medium := .hostDma, dst := f, kind := 0, data := addr :: nats l } : Msg) ∈ t.out

/-- The PTP port runs and takes the message (R498, R499). -/
def Takes (h : PtpHdr) (s : State) : Prop :=
  s.mgtRuns = true ∧ s.fbit fTIME_PTP_CTRL_EN = true ∧ s.fget fTIME_PTP_STAT_PORT_STATE ≠ psInit ∧ s.ptpHears h = true

/-- A PTP message does nothing while the port does not run, and one of another domain or ill-formed is counted. -/
def ptpGuard (i : Instr) (h : PtpHdr) (s : State) : Prop :=
  ((s.mgtRuns = false ∨ s.fbit fTIME_PTP_CTRL_EN = false) → Idle i s)
    ∧ (s.mgtRuns = true → s.fbit fTIME_PTP_CTRL_EN = true → s.fget fTIME_PTP_STAT_PORT_STATE ≠ psInit → s.ptpHears h = false →
        Done i s (fun s t => Counted (fTIME_CNT_COUNT 5) s t ∧ RegsBut [(fTIME_CNT_COUNT 5).off] s t ∧ t = { s with regs := t.regs }))

/-- A Sync has been used: the latest pair of times (R500); the servo may have moved ADJ, by no more than ADJ_STEP. -/
def SyncUsed (l m : Int) (n : Nat) (s t : State) : Prop :=
  t.ptp.sync = some (l, m) ∧ t.ptp.pend = none ∧ Counted (fTIME_CNT_COUNT n) s t
    ∧ ((ltAdj s).natAbs ≤ 85899 → (ltAdj t).natAbs ≤ 85899 ∧ (ltAdj t - ltAdj s).natAbs ≤ s.fget fTIME_PTP_SERVO_ADJ_STEP)
    ∧ ((s.fget fTIME_PTP_STAT_PORT_STATE ≠ psSlave ∨ s.fget fRACK_STAT_ROLE = roleStandby) → ltAdj t = ltAdj s)
    ∧ RegsBut [(fTIME_CNT_COUNT n).off, fEVT_LT_ADJ_ADJ.off] s t ∧ t = { s with regs := t.regs, ptp := t.ptp, free := t.free }

/-- An offset `e` has been measured in UNCALIBRATED or SLAVE (R494, R499), with the path delay `d`; one below the step threshold is slewed. -/
def Measured (d e : Int) (s t : State) : Prop :=
  t.ptp.path = some d ∧ t.ptp.req = none
    ∧ ((s.fget fTIME_PTP_STAT_PORT_STATE = psUncal ∨ s.fget fTIME_PTP_STAT_PORT_STATE = psSlave) →
        Holds t [(fTIME_PTP_STAT_PORT_STATE, psSlave)] ∧ t.ptp.wasSlave = (s.ptp.wasSlave || decide (s.fget fTIME_PTP_STAT_PORT_STATE = psUncal))
        ∧ (s.stepSize e = false → t.wall.slewLeft = e ∧ t.wall.outliers = 0 ∧ Holds t [(fTIME_STAT_WALL_UNSET, 0)])
        ∧ (s.stepSize e = true → Counted (fTIME_CNT_COUNT 6) s t ∧ Holds t [(fTIME_STAT_OUTLIER, 1)] ∧ t.wall.slewLeft = s.wall.slewLeft))
    ∧ t.mem = s.mem ∧ t.lt = s.lt ∧ t.wall.off = s.wall.off

end Sys2Proof.Claims

/-- The host's side (R450, R454, R459 … R469) and time (R492 … R508): functions, result queues and snapshots; the PTP port, wall time and the
real-time clock. The value of the frequency servo is the model's free value (log 10). -/
def Obligations.HostAndTime : Prop :=
  (∀ m s, Done (.poisonedTlp m none) s (fun s t => t = { s with out := { medium := .aer, dst := m, kind := 1, data := [] } :: s.out }))
  ∧ (∀ m off s, s.busMaster m = true → Done (.poisonedTlp m (some off)) s (fun s t => Dropped m off 11 s t ∧ ({ medium := .aer, dst := m, kind := 1, data := [] } : Msg) ∈ t.out))
  ∧ (∀ (v : Fin 256) s, (s.fnExists (v.val + 1) = false → Idle (.vfFlr v) s)
      ∧ (s.fnExists (v.val + 1) = true → Done (.vfFlr v) s (fun s t => FnDown (v.val + 1) s t ∧ t.vfs = s.vfs ∧ t.mem = s.mem
          ∧ (∀ e ∈ s.msix, e.1 / 1024 ≠ v.val + 1 → e ∈ t.msix) ∧ (∀ q, q ≠ v.val + 1 → t.rq q = s.rq q)
          ∧ (∀ e ∈ s.staged, e.queue ≠ v.val + 1 → e ∈ t.staged))))
  ∧ (∀ s, Done .pfFlr s (fun s t => t.vfs = 0 ∧ (∀ f ≤ 256, FnDown f s t) ∧ t.mem = s.mem))
  ∧ (∀ s, (s.pins.perstN = true → Done (.perstN false) s (fun s t => t.pins = { s.pins with perstN := false } ∧ t.vfs = 0 ∧ ∀ f ≤ 256, FnDown f s t))
      ∧ Done (.perstN true) s (fun s t => t = { s with pins := { s.pins with perstN := true } }))
  ∧ (∀ s, (s.staged.find? (fun x => s.rqOpen x.queue) = none → Idle .ladleResultWrite s)
      ∧ (∀ e, s.mainRuns = true → s.staged.find? (fun x => s.rqOpen x.queue) = some e → e.queue ≤ 256 →
        let q := e.queue
        let i := (s.reg (rHOST_RQ_WIDX q)).toNat
        let at' := s.addr64 (rHOST_RQ_BASE_LO q) (rHOST_RQ_BASE_HI q) 6 + i % s.rqSize q * 64
        let next (t : State) : Prop := t.reg (rHOST_RQ_WIDX q) = BitVec.ofNat 32 ((i + 1) % 2 ^ 32)
        (e.loss = none → Done .ladleResultWrite s (fun s t => Wrote q at' (withSeq i e.data) t ∧ next t
          ∧ (∀ x, x ∈ t.staged ↔ x ∈ s.staged ∧ x.slot ≠ e.slot)))
        ∧ (∀ l, e.loss = some l → Done .ladleResultWrite s (fun s t => Wrote q at' (withSeq i (lossRecord l)) t ∧ next t
          ∧ t.staged.map (fun x => (x.slot, x.queue, x.data)) = s.staged.map (fun x => (x.slot, x.queue, x.data))
          ∧ (∀ x ∈ t.staged, x.slot = e.slot → x.loss = none)))))
  ∧ (∀ (q : Fin 257) s,
      let due := s.mainRuns = true ∧ s.fbit (fHOST_RQ_IRQ_EN q.val) = true ∧ s.fget (fHOST_RQ_IRQ_TIMER q.val) ≠ 0 ∧ (s.rq q.val).unsig ≠ 0
        ∧ (s.rq q.val).since + s.fget (fHOST_RQ_IRQ_TIMER q.val) * 1000 ≤ s.lt.toNat
      let e := SMap.get msix0 s.msix (q.val * 1024 + s.fget (fHOST_RQ_IRQ_VECTOR q.val))
      (¬ due → Idle (.rqTimer q) s)
      ∧ (due → Done (.rqTimer q) s (fun s t => t.rq q.val = {} ∧ (∀ k, k ≠ q.val → t.rq k = s.rq k)
          ∧ (q.val ∈ s.msixEn → q.val ∉ s.msixFmask → e.masked = false →
              ({ medium := .msix, dst := q.val, kind := s.fget (fHOST_RQ_IRQ_VECTOR q.val), data := [e.addr, e.data] } : Msg) ∈ t.out)
          ∧ t = { s with out := t.out, msix := t.msix, hq := t.hq })))
  ∧ (∀ (k : Fin 16) loaded valid s c,
      let v := s.snapSet k.val
      let r := s.fget (fHOST_SNAP_ROWS_ROW_FIRST k.val) + v.next
      let f := s.fget (fHOST_SNAP_CFG_FUNC k.val)
      let own := decide (f = 0) || decide (s.owner r = some (f - 1))
      let body := s.snapSections k.val r c loaded
      s.mainRuns = true → (s.row r).passed = some c → s.fbit (fHOST_SNAP_STAT_BUSY k.val) = true → v.next < s.fget (fHOST_SNAP_ROWS_COUNT k.val) → v.since ≤ c →
      (if loaded then s.inLoad r c = true else s.hadLoad r c = false) →
      ((loaded = true ∨ valid = true) → Done (.snapshotRowCapture k loaded valid) s (fun s t =>
          (∃ tag, tag.length = 16 ∧ leAt tag 0 2 = r % 65536 ∧ leAt tag 4 4 = c % 2 ^ 32 ∧ bitOf (leAt tag 2 1) 0 = !own
            ∧ Wrote f (s.snapBuf k.val + 64 + v.next * s.snapBlock k.val) (tag ++ (if own then body else List.replicate body.length 0)) t)
          ∧ (t.snapSet k.val).next = v.next + 1 ∧ (∀ j, j ≠ k.val → t.snapSet j = s.snapSet j) ∧ RegsBut [fFAB_TAGS_HWM.off] s t
          ∧ (loaded = true → t.regs = s.regs) ∧ t = { s with regs := t.regs, out := t.out, snaps := t.snaps }))
      ∧ (loaded = false → valid = false → Done (.snapshotRowCapture k loaded valid) s (fun s t => Counted fHOST_CNT_RETRY_COUNT s t
          ∧ Holds t [(fHOST_STAT_RETRY, 1)] ∧ RegsBut [fHOST_CNT_RETRY_COUNT.off, fHOST_STAT_RETRY.off] s t ∧ t = { s with regs := t.regs })))
  ∧ (∀ (k : Fin 16) s,
      let w := (s.reg (rHOST_SNAP_WIDX k.val)).toNat
      let f := s.fget (fHOST_SNAP_CFG_FUNC k.val)
      let whole := s.fbit (fHOST_SNAP_STAT_BUSY k.val) = true ∧ s.fget (fHOST_SNAP_ROWS_COUNT k.val) ≤ (s.snapSet k.val).next
      (¬ whole → Idle (.snapshotComplete k) s)
      ∧ (whole → Done (.snapshotComplete k) s (fun s t => t.reg (rHOST_SNAP_WIDX k.val) = BitVec.ofNat 32 ((w + 1) % 2 ^ 32)
          ∧ Holds t [(fHOST_SNAP_STAT_BUSY k.val, 0)] ∧ latched t 700 ∧ (t.snapSet k.val).next = 0
          ∧ Wrote f (s.snapBuf k.val + s.snapBytes k.val - 64) (leBytes 2 w ++ leBytes 62 0) t ∧ Wrote f (s.snapBuf k.val) (s.snapHeader k.val true) t)))
  ∧ (∀ h origin s, ptpGuard (.ptpSync h origin) h s
      ∧ (Takes h s → s.fromParent h = true → -7 ≤ h.interval → h.interval ≤ 1 →
          (∀ o, origin = some o → Done (.ptpSync h origin) s (SyncUsed s.lt16 (o * 65536 + h.corr) 0))
          ∧ (origin = none → Done (.ptpSync h origin) s (fun s t => t.ptp = { s.ptp with pend := some (h.seq, s.lt16, h.corr) }
              ∧ Counted (fTIME_CNT_COUNT 0) s t ∧ RegsBut [(fTIME_CNT_COUNT 0).off] s t ∧ t = { s with regs := t.regs, ptp := t.ptp }))))
  ∧ (∀ h o s, ptpGuard (.ptpFollowUp h o) h s
      ∧ (∀ l c, Takes h s → s.fromParent h = true → s.ptp.pend = some (h.seq, l, c) →
          Done (.ptpFollowUp h o) s (SyncUsed l (o * 65536 + c + h.corr) 1))
      ∧ (Takes h s → s.ptp.pend = none → Done (.ptpFollowUp h o) s (fun s t => Counted (fTIME_CNT_COUNT 5) s t ∧ t = { s with regs := t.regs })))
  ∧ (∀ h a s, ptpGuard (.ptpAnnounce h a) h s
      ∧ (Takes h s → -3 ≤ h.interval → h.interval ≤ 4 → a.steps < 255 → Done (.ptpAnnounce h a) s (fun s t => Counted (fTIME_CNT_COUNT 2) s t
          ∧ (∃ f ∈ t.ptp.foreign, f.src = h.src ∧ f.gm = a.gm ∧ f.steps = a.steps ∧ f.last = s.lt.toNat
            ∧ f.prev = (s.ptp.foreign.find? (fun g => decide (g.src = h.src))).map (fun g => g.last))
          ∧ (∀ g ∈ s.ptp.foreign, g.src ≠ h.src → g ∈ t.ptp.foreign) ∧ t.mem = s.mem ∧ t.wall = s.wall))
      ∧ (Takes h s → (h.interval < -3 ∨ 4 < h.interval ∨ 255 ≤ a.steps) → Done (.ptpAnnounce h a) s (fun s t =>
          Counted (fTIME_CNT_COUNT 2) s t ∧ Counted (fTIME_CNT_COUNT 5) s t ∧ t = { s with regs := t.regs })))
  ∧ (∀ s, ((s.mgtRuns = false ∨ s.fbit fTIME_PTP_CTRL_EN = false) → Idle .announceReceiptTimeout s)
      ∧ (s.mgtRuns = true → s.fbit fTIME_PTP_CTRL_EN = true → Done .announceReceiptTimeout s (fun s t =>
          t.ptp.foreign = s.ptp.foreign.filter (fun f => decide (some f.src ≠ s.ptp.parent))
          ∧ ((∀ f ∈ t.ptp.foreign, f.qualified s.lt.toNat = false) → t.ptp.parent = none ∧ Holds t [(fTIME_PTP_STAT_PORT_STATE, psListening),
              (fTIME_PTP_STAT_LOCK, if s.ptp.wasSlave then plHoldover else plFree)]))))
  ∧ (∀ h t4 s, ptpGuard (.ptpDelayResp h t4) h s
      ∧ (∀ t3 l m, Takes h s → s.fget fTIME_PTP_CTRL_DELAY = 0 → s.fromParent h = true → s.ptp.req = some (h.seq, t3) → s.ptp.sync = some (l, m) →
          let d := ((l - m) + (t4 * 65536 - h.corr - t3)) / 2
          Done (.ptpDelayResp h t4) s (Measured d (m + d - l - (s.wallTarget - s.lt16)))))
  ∧ (∀ s,
      let p2p := s.fget fTIME_PTP_CTRL_DELAY = 1
      ((s.mgtRuns = false ∨ s.fbit fTIME_PTP_CTRL_EN = false ∨ (¬ p2p ∧ s.ptp.sync = none)) → Idle .ptpDelayReqSend s)
      ∧ (s.mgtRuns = true → s.fbit fTIME_PTP_CTRL_EN = true → (p2p ∨ s.ptp.sync ≠ none) → Done .ptpDelayReqSend s (fun s t =>
          t.ptp = { s.ptp with req := some (s.ptp.seq, s.lt16), resp := none, seq := (s.ptp.seq + 1) % 65536 }
          ∧ Counted (fTIME_CNT_COUNT 3) s t
          ∧ t.out = s.engMsg .ptp 319 (if s.fget fTIME_PTP_CTRL_DELAY = 1 then 2 else 1) [s.ptp.seq] :: s.out
          ∧ t = { s with regs := t.regs, ptp := t.ptp, out := t.out })))
  ∧ (∀ h s, ptpGuard (.ptpPdelayReq h) h s
      ∧ (Takes h s → s.fget fTIME_PTP_CTRL_DELAY = 1 → Done (.ptpPdelayReq h) s (fun s t => Counted (fTIME_CNT_COUNT 4) s t
          ∧ t.out = s.engMsg .ptp 320 10 [h.seq, s.lt.toNat] :: s.engMsg .ptp 319 3 [h.seq, s.lt.toNat] :: s.out
          ∧ t = { s with regs := t.regs, out := t.out })))
  ∧ (∀ h follow two tm s, ptpGuard (.ptpPdelayResp h follow two tm) h s
      ∧ (∀ t1, Takes h s → s.fget fTIME_PTP_CTRL_DELAY = 1 → s.ptp.req = some (h.seq, t1) →
          (follow = false → two = true → Done (.ptpPdelayResp h follow two tm) s (fun s t =>
            t = { s with ptp := { s.ptp with resp := some (tm * 65536, s.lt16, h.corr) } }))
          ∧ (∀ l m, follow = false → two = false → s.ptp.sync = some (l, m) →
            let d := ((s.lt16 - t1) - h.corr) / 2
            Done (.ptpPdelayResp h follow two tm) s (Measured d (m + d - l - (s.wallTarget - s.lt16))))
          ∧ (∀ t2 t4 c l m, follow = true → s.ptp.resp = some (t2, t4, c) → s.ptp.sync = some (l, m) →
            let d := ((t4 - t1) - (tm * 65536 - t2) - c - h.corr) / 2
            Done (.ptpPdelayResp h follow two tm) s (Measured d (m + d - l - (s.wallTarget - s.lt16))))))
  ∧ (∀ s e d, s.wall.step = some (e, d) →
      (s.tn.toNat < d + 2000 → Idle .wallStep s)
      ∧ (d + 2000 ≤ s.tn.toNat → s.wall.hold = none → 0 < e → Done .wallStep s (fun s t =>
          t.wall = { s.wall with step := none, slewLeft := 0, off := s.wall.off + e } ∧ latched t 701 ∧ Counted (fTIME_CNT_COUNT 7) s t
          ∧ Holds t [(fTIME_STAT_STEP_FWD, 1), (fTIME_STAT_WALL_UNSET, 0)] ∧ t.lt = s.lt ∧ t.mem = s.mem))
      ∧ (d + 2000 ≤ s.tn.toNat → s.wall.hold = none → e < 0 → s.fget fTIME_WALL_BACKSTEP_POLICY ≠ 1 → Done .wallStep s (fun s t =>
          t.wall = { s.wall with step := none, slewLeft := 0, off := s.wall.off + e, epoch := (s.wall.epoch + 1) % 256 } ∧ latched t 702
          ∧ Counted (fTIME_CNT_COUNT 8) s t
          ∧ Holds t [(fTIME_STAT_STEP_BACK, 1), (fTIME_STAT_WALL_UNSET, 0), (fTIME_WALL_EPOCH_EPOCH, (s.wall.epoch + 1) % 256)] ∧ t.lt = s.lt))
      ∧ (d + 2000 ≤ s.tn.toNat → s.wall.hold = none → e < 0 → s.fget fTIME_WALL_BACKSTEP_POLICY = 1 → Done .wallStep s (fun s t =>
          t.wall = { s.wall with step := none, slewLeft := 0, hold := some (s.wallTicks, s.wall.off + e) } ∧ latched t 702
          ∧ Holds t [(fTIME_STAT_STEP_BACK, 1), (fTIME_WALL_EPOCH_HOLDING, 1), (fTIME_STAT_BACK_HELD, 1)] ∧ t.wallTicks = s.wallTicks))
      ∧ (∀ h ot, d + 2000 ≤ s.tn.toNat → s.wall.hold = some (h, ot) → Done .wallStep s (fun s t =>
          t.wall = { s.wall with step := none, slewLeft := 0, hold := some (h, ot + e) } ∧ t.wallTicks = s.wallTicks)))
  ∧ (∀ s, (s.wall.hold = none → Idle .holdEnd s)
      ∧ (∀ h ot, s.wall.hold = some (h, ot) → h ≤ s.lt16 + ot → Done .holdEnd s (fun s t => t.wall = { s.wall with off := ot, hold := none }
          ∧ Holds t [(fTIME_WALL_EPOCH_HOLDING, 0), (fTIME_STAT_BACK_HELD, 0)] ∧ t = { s with regs := t.regs, wall := t.wall })))
  ∧ (∀ s,
      let d := s.fget fTIME_RTC_CTRL_DAYSEC
      Done .rtcSecondTick s (fun s t => t.rtcSec = (s.rtcSec + 1) % 2 ^ 40 ∧ Holds t [(fTIME_RTC_FRAC_FRAC, 0)]
        ∧ (d + 1 < 86400 → Holds t [(fTIME_RTC_CTRL_DAYSEC, d + 1), (fTIME_RTC_DAY_WEEKDAY, s.fget fTIME_RTC_DAY_WEEKDAY)])
        ∧ (86400 ≤ d + 1 → Holds t [(fTIME_RTC_CTRL_DAYSEC, 0), (fTIME_RTC_DAY_WEEKDAY, (s.fget fTIME_RTC_DAY_WEEKDAY + 1) % 7)])))
  ∧ (∀ s, (s.mgtRuns = true → s.wall.hold = none → s.mgt.releasedAt ≠ none → Done .rtcSync s (fun s t =>
          t.rtcSec = s.wallSec ∧ Holds t [(fTIME_RTC_FRAC_FRAC, 0)]))
      ∧ ((s.mgtRuns = false ∨ s.wall.hold ≠ none ∨ s.mgt.releasedAt = none) → Idle .rtcSync s))
  ∧ (∀ vbat lost s, Done (.vbatSwitch vbat lost) s (fun s t => Holds t [(fTIME_RTC_STAT_ON_VBAT, b2n vbat)]
      ∧ (vbat = true → Holds t [(fTIME_RTC_STAT_BAT_USED, 1)])
      ∧ (lost = true → t.rtcSec = 0 ∧ Holds t [(fTIME_RTC_FRAC_FRAC, 0), (fTIME_RTC_CTRL_DAYSEC, 0), (fTIME_RTC_DAY_WEEKDAY, 0), (fTIME_RTC_STAT_LOST, 1)])
      ∧ (lost = false → RegsBut [fTIME_RTC_STAT_LOST.off] s t) ∧ t = { s with regs := t.regs }))
  ∧ (∀ (mv : BitVec 12) s, (s.mgtRuns = false → Idle (.vbatMeasure mv) s)
      ∧ (s.mgtRuns = true → Done (.vbatMeasure mv) s (fun s t =>
          Holds t [(fTIME_RTC_STAT_VBAT_MV, mv.toNat), (fTIME_RTC_STAT_VBAT_LOW, b2n (decide (mv.toNat < 2200)))]
          ∧ (mv.toNat < 2200 → latched t 707) ∧ RegsBut (fTIME_RTC_STAT_VBAT_MV.off :: raiseRegs 707) s t ∧ t = { s with regs := t.regs, evLatch := t.evLatch })))


namespace Sys2Proof.Claims

/-- A statement about every engineering command with its code (R486). -/
def forEng (p : (EngReq → Instr) → Nat → Prop) : Prop :=
  p .ident 0x01 ∧ p .echo 0x02 ∧ p .read32 0x10 ∧ p .write32 0x11 ∧ p .readBlock 0x12 ∧ p .writeBlock 0x13 ∧ p .moduleMode 0x20 ∧
    p .partMode 0x21 ∧ p .cellarFreeze 0x30 ∧ p .cellarUnfreeze 0x31 ∧ p .cellarRead 0x32 ∧ p .cellarStatus 0x33 ∧ p .graftLoad 0x40 ∧
    p .graftAlloc 0x41 ∧ p .graftWrite 0x42 ∧ p .graftArm 0x43 ∧ p .graftGo 0x44 ∧ p .graftRollback 0x45 ∧ p .graftRelease 0x46 ∧
    p .graftAbort 0x47 ∧ p .graftStatus 0x48 ∧ p .mbxSend 0x50 ∧ p .mbxTake 0x51 ∧ p .mbxDone 0x52 ∧ p .mbxWithdraw 0x53 ∧ p .mbxRead 0x54 ∧
    p .timeGet 0x60 ∧ p .timeSetWall 0x61 ∧ p .timeAcceptBack 0x62 ∧ p .caskRead 0x70 ∧ p .caskWrite 0x71 ∧ p .fwWrite 0x80 ∧ p .fwSelect 0x81 ∧
    p .restart 0x90

/-- The codes of R486. -/
def engCodes : List Nat :=
  [0x01, 0x02, 0x10, 0x11, 0x12, 0x13, 0x20, 0x21, 0x30, 0x31, 0x32, 0x33, 0x40, 0x41, 0x42, 0x43, 0x44,
   0x45, 0x46, 0x47, 0x48, 0x50, 0x51, 0x52, 0x53, 0x54, 0x60, 0x61, 0x62, 0x70, 0x71, 0x80, 0x81, 0x90]

/-- A response has left where its client can be reached, and is the one kept for that client (R481, R483). -/
def Answered (cmd : Nat) (e : EngReq) (st det : Nat) (l : List Byte) (t : State) : Prop :=
  let r := engResp cmd e st det l
  t.eng.clients.head? = some { ip := e.ip, port := e.port, seq := e.seq, resp := r }
    ∧ (t.engReach e.ip = true → t.engMsg .eng e.ip e.port (nats r) ∈ t.out)

/-- The service takes the request at once (R481 … R483, R490): it is valid, none is in execution, and none kept for its SEQ. -/
def Ready (cmd : Nat) (e : EngReq) (s : State) : Prop :=
  s.mgt.down = false ∧ s.fbit fTIME_ENG_CTRL_EN = true ∧ engValid cmd e = true ∧ s.eng.job = none ∧ s.engAvail cmd e = true ∧ e.len ≤ 1280
    ∧ ∀ c ∈ s.eng.clients, ¬ (c.ip = e.ip ∧ c.port = e.port ∧ c.seq = e.seq)

/-- A request of command `cmd` with `len` payload bytes that holds `ok` leaves `q`. -/
def served (mk : EngReq → Instr) (cmd : Nat) (len : EngReq → Nat) (ok : EngReq → State → Prop) (q : EngReq → State → State → Prop) : Prop :=
  ∀ e s, Ready cmd e s → e.len = len e → ok e s → Done (mk e) s (q e)

/-- A command that only reads answers `l` (R486). -/
def reads (mk : EngReq → Instr) (cmd : Nat) (len : EngReq → Nat) (ok : EngReq → State → Prop) (l : EngReq → State → List Byte) : Prop :=
  served mk cmd len ok (fun e s t => Answered cmd e 0 0 (l e s) t ∧ Counted (fTIME_CNT_COUNT 9) s t ∧ t.fget (fTIME_CNT_COUNT 13) = s.fget (fTIME_CNT_COUNT 13)
    ∧ RegsBut [(fTIME_CNT_COUNT 9).off, rTIME_ENG_CLIENT, rTIME_ENG_CLIENT_PORT] s t ∧ t = { s with regs := t.regs, eng := t.eng, out := t.out })

/-- A command that changes state counts (R489), and answers OK with `l`. -/
def changes (mk : EngReq → Instr) (cmd : Nat) (len : EngReq → Nat) (ok : EngReq → State → Prop) (l : EngReq → State → List Byte)
    (q : EngReq → State → State → Prop) : Prop :=
  served mk cmd len ok (fun e s t => Answered cmd e 0 0 (l e t) t ∧ Counted (fTIME_CNT_COUNT 9) s t ∧ Counted (fTIME_CNT_COUNT 13) s t ∧ q e s t)

/-- As `changes`, with a response that waits for an action (R482). -/
def begins (mk : EngReq → Instr) (cmd : Nat) (len : EngReq → Nat) (ok : EngReq → State → Prop) (j : EngReq → EngJob) (q : EngReq → State → State → Prop) : Prop :=
  served mk cmd len ok (fun e s t => t.eng.job = some (cmd, e, j e) ∧ t.eng.clients = s.eng.clients ∧ Counted (fTIME_CNT_COUNT 13) s t ∧ q e s t)

/-- The service's write of `v` reaches the register at `off`. -/
def Writes (off v : Nat) (s : State) : Prop := s.regGate mEng off v = none ∧ s.rackHeld + 50 ≤ 262144

/-- Registers shown in a row, as bytes. -/
def shown (l : List Nat) (s : State) : List Byte := l.flatMap (fun o => leBytes 4 (s.view mEng o).toNat)

/-- A partition number with zero bytes after it. -/
def partArg (k : Nat) (e : EngReq) : Prop := engArg e 1 k = 0

/-- What ends a graft check, a flash write and a cask commit (R396, R397, R482; spec/19_management.md R560; spec/20_reset_watchdog_cask.md R606): the effect,
and the response of the request that waited for it. -/
def actionsEnd : Prop :=
  (∀ (n : Fin 256) s, s.eng.job = none →
      (s.grfState n.val ≠ 2 → Idle (.graftCheckDone n) s)
      ∧ (∀ r, s.grfState n.val = 2 → s.grfCheck n.val = some r → Done (.graftCheckDone n) s (fun s t =>
          Holds t [(fPART_GRF_STAT_STATE n.val, 1), (fPART_GRF_STAT_RESULT n.val, r % 16)] ∧ t.mem = s.mem ∧ t.parts = s.parts
          ∧ ((∀ a, s.eccAt a = 0) → RegsBut [rPART_GRF_STAT n.val] s t ∧ t = { s with regs := t.regs })))
      ∧ (s.grfState n.val = 2 → s.grfCheck n.val = none → s.peerInSync = false → Done (.graftCheckDone n) s (fun s t =>
          Holds t [(fPART_GRF_STAT_STATE n.val, 4)] ∧ OtherParts n.val s t
          ∧ (t.part n.val).commitAt = if s.fbit (fPART_GRF_CTRL_GROUP n.val) then (s.part n.val).commitAt else some (secondNext s)))
      ∧ (s.grfState n.val = 2 → s.grfCheck n.val = none → s.peerInSync = true → Done (.graftCheckDone n) s (fun s t =>
          Holds t [(fPART_GRF_STAT_STATE n.val, 3)] ∧ t.parts = s.parts)))
  ∧ (∀ (n : Fin 256) s cmd e r, s.eng.job = some (cmd, e, .graft n.val) → s.eng.waiting = [] → s.mgt.down = false → s.grfState n.val = 2 →
      s.grfCheck n.val = some r → r < 16 → Done (.graftCheckDone n) s (fun _ t => Answered cmd e esGraft r [] t ∧ t.eng.job = none))
  ∧ (∀ (n : Fin 256) s cmd e, s.eng.job = some (cmd, e, .graft n.val) → s.eng.waiting = [] → s.mgt.down = false → s.grfState n.val = 2 →
      s.grfCheck n.val = none → Done (.graftCheckDone n) s (fun _ t => Answered cmd e 0 0 [] t ∧ t.eng.job = none))
  ∧ (∀ ok s, s.eng.job = none → (s.mgt.fw = none → Idle (.fwOpComplete ok) s)
      ∧ (∀ j, s.mgt.fw = some j → Done (.fwOpComplete ok) s (fun s t =>
          let old (a : Nat) : Byte := if j.addr % 262144 = 0 ∧ j.addr ≤ a ∧ a < j.addr + 262144 then 0xFF else SMap.get byteFF s.flash a
          (∀ a, SMap.get byteFF t.flash a = if j.addr ≤ a ∧ a < j.addr + j.data.length then old a &&& j.data.getD (a - j.addr) 0 else old a)
          ∧ Holds t [(fMGT_FW_STAT_BUSY, 0), (fMGT_FW_STAT_RESULT, if ok then 1 else 4)] ∧ t.mgt = { s.mgt with fw := none } ∧ t.mem = s.mem)))
  ∧ (∀ ok s cmd e j, s.eng.job = some (cmd, e, .flash) → s.eng.waiting = [] → s.mgt.down = false → s.mgt.fw = some j →
      Done (.fwOpComplete ok) s (fun _ t => Answered cmd e 0 0 (leBytes 4 (t.reg rMGT_FW_STAT).toNat) t ∧ t.eng.job = none
        ∧ Holds t [(fMGT_FW_STAT_RESULT, if ok then 1 else 4)]))
  ∧ (∀ ok s, s.eng.job = none → s.fbit fCASK_OPT_STAT_BUSY = false →
      (s.fbit fCASK_STAT_BUSY = false → Idle (.caskCommitDone ok) s)
      ∧ (s.fbit fCASK_STAT_BUSY = true → s.ck.buf.length ≤ 65536 → s.ck.held.length ≤ 65536 →
          (s.ck.buf.map (fun e => e.1)).Nodup → (∀ e ∈ s.ck.buf, e.1 < 0x281000 ∨ 0x291000 ≤ e.1) → Done (.caskCommitDone ok) s (fun s t =>
            (∀ a b, (a, some b) ∈ s.ck.buf → SMap.get cask0 t.cask a = b)
            ∧ (∀ a, (∀ b, (a, b) ∉ s.ck.buf) → (a < 0x281000 ∨ 0x291000 ≤ a) → SMap.get cask0 t.cask a = SMap.get cask0 s.cask a)
            ∧ Holds t [(fCASK_STAT_BUSY, 0), (fCASK_COMMIT_RESULT_RESULT, if ok then 1 else 3)] ∧ t.ck.held = [] ∧ Counted fCASK_CNT_COMMIT_COUNT s t
            ∧ t.mem = s.mem)))
  ∧ (∀ ok s, s.eng.job = none → s.fbit fCASK_OPT_STAT_BUSY = true → s.fbit fCASK_STAT_BUSY = false → Done (.caskCommitDone ok) s (fun s t =>
      Holds t [(fCASK_OPT_STAT_BUSY, 0), (fCASK_OPT_STAT_RESULT, if ok then 1 else 5)] ∧ RegsBut [rCASK_OPT_STAT] s t ∧ t = { s with regs := t.regs }))
  ∧ (∀ ok s cmd e, s.eng.job = some (cmd, e, .cask) → s.eng.waiting = [] → s.mgt.down = false → s.fbit fCASK_OPT_STAT_BUSY = false →
      s.fbit fCASK_STAT_BUSY = true → Done (.caskCommitDone ok) s (fun _ t =>
        Answered cmd e 0 0 (leBytes 4 (t.reg rCASK_COMMIT_RESULT).toNat) t ∧ t.eng.job = none))

end Sys2Proof.Claims

/-- The engineering service (R477 … R490; spec/19_management.md R563, R583; spec/20_reset_watchdog_cask.md R609): what every request meets, and what each
command does where its arguments are good; what ends the actions that responses wait for. The payloads of the graft commands but GRAFT_LOAD are the model's (log 21). -/
def Obligations.EngineeringService : Prop :=
  forEng (fun mk cmd => ∀ (e : EngReq) s,
      (s.mgt.down = true → Idle (mk e) s)
      ∧ (s.mgt.down = false → (s.fbit fTIME_ENG_CTRL_EN = false ∨ engValid cmd e = false) → Done (mk e) s (fun s t =>
          Counted (fTIME_CNT_COUNT 10) s t ∧ RegsBut [(fTIME_CNT_COUNT 10).off] s t ∧ t = { s with regs := t.regs }))
      ∧ (s.mgt.down = false → s.fbit fTIME_ENG_CTRL_EN = true → engValid cmd e = true →
          (∀ j, s.eng.job = some j → s.eng.waiting.length < 32 → Done (mk e) s (fun s t =>
            t.eng = { s.eng with waiting := s.eng.waiting ++ [(cmd, e)] } ∧ Holds t [(fTIME_ENG_CTRL_FULL, b2n (decide (s.eng.waiting.length = 31)))]
            ∧ RegsBut [fTIME_ENG_CTRL_FULL.off] s t ∧ t = { s with regs := t.regs, eng := t.eng }))
          ∧ (∀ j, s.eng.job = some j → 32 ≤ s.eng.waiting.length → Done (mk e) s (fun s t => Counted (fTIME_CNT_COUNT 12) s t
            ∧ (s.engReach e.ip = true → t.out = s.engMsg .eng e.ip e.port (nats (engResp cmd e esBusy 0 [])) :: s.out)
            ∧ t = { s with regs := t.regs, out := t.out }))
          ∧ (∀ c, s.eng.job = none → s.eng.clients.find? (fun c => decide (c.ip = e.ip) && decide (c.port = e.port) && decide (c.seq = e.seq)) = some c →
            Done (mk e) s (fun s t => Counted (fTIME_CNT_COUNT 11) s t
              ∧ (s.engReach e.ip = true → t.out = s.engMsg .eng e.ip e.port (nats c.resp) :: s.out)
              ∧ t = { s with regs := t.regs, out := t.out, eng := t.eng }))))
  ∧ reads .ident 0x01 (fun _ => 0) (fun _ _ => True) (fun _ => shown [rSYS_IDENT, rSYS_SERIAL_LO, rSYS_SERIAL_HI, rRACK_STAT, rSYS_MODULE_MODE, rMGT_FW_REV])
  ∧ reads .echo 0x02 (fun e => e.len) (fun _ _ => True) (fun e _ => e.payload)
  ∧ reads .read32 0x10 (fun _ => 8)
      (fun e s => wordsOk (engArg e 0 4) (engArg e 4 2) = true ∧ engArg e 6 2 = 0 ∧ s.fget fSYS_MODULE_MODE_CUR ≠ 2
        ∧ ∀ i < engArg e 4 2, engArg e 0 4 + 4 * i < 0x2C0000 ∧ s.latches (engArg e 0 4 + 4 * i) = [] ∧ s.isLatched (engArg e 0 4 + 4 * i) = false)
      (fun e => shown (span (engArg e 0 4) 4 (engArg e 4 2)))
  ∧ changes .write32 0x11 (fun _ => 12)
      (fun e s => engArg e 4 2 = 1 ∧ engArg e 6 2 = 0 ∧ engArg e 0 4 ∈ plainRegs ∧ Writes (engArg e 0 4) (engArg e 8 4) s
        ∧ ∃ row, regRow? (engArg e 0 4) = some row ∧ ∀ f ∈ row.fields, f.takes (bitsOf (engArg e 8 4) f.hi f.lo) = true)
      (fun _ _ => leBytes 2 1)
      (fun e _ t => ∀ row, regRow? (engArg e 0 4) = some row → ∀ f ∈ row.fields, f.acc = .rw →
        bitsOf (t.reg (engArg e 0 4)).toNat f.hi f.lo = bitsOf (engArg e 8 4) f.hi f.lo)
  ∧ reads .readBlock 0x12 (fun _ => 8)
      (fun e s => rangeOk (engArg e 0 4) (engArg e 4 2) = true ∧ engArg e 6 2 = 0 ∧ s.fget fSYS_MODULE_MODE_CUR ≠ 2
        ∧ ∀ i < engArg e 4 2, inStores (engArg e 0 4 + i) = true ∧ s.eccAt (engArg e 0 4 + i) = 0)
      (fun e s => s.rdList (engArg e 0 4) (engArg e 4 2))
  ∧ changes .writeBlock 0x13 (fun e => 8 + engArg e 4 2)
      (fun e s => 1 ≤ engArg e 4 2 ∧ engArg e 4 2 ≤ 1024 ∧ engArg e 6 2 = 0 ∧ s.fget fSYS_MODULE_MODE_CUR ≠ 2
        ∧ ∀ i < engArg e 4 2, isImage (engArg e 0 4 + i) = true)
      (fun e _ => leBytes 2 (engArg e 4 2))
      (fun e s t => (∀ i < engArg e 4 2, t.rdB (engArg e 0 4 + i) = e.payload.getD (8 + i) 0) ∧ MemBut (engArg e 0 4) (engArg e 0 4 + engArg e 4 2) s t)
  ∧ changes .moduleMode 0x20 (fun _ => 4)
      (fun e s => engArg e 0 1 ≤ 1 ∧ engArg e 1 3 = 0 ∧ s.fget fSYS_MODULE_MODE_CUR ≠ 2 ∧ Writes rSYS_MODULE_MODE (engArg e 0 1 * 16) s) (fun _ _ => [])
      (fun e _ t => Holds t [(fSYS_MODULE_MODE_REQ, engArg e 0 1), (fSYS_MODULE_MODE_BUSY, 1)] ∧ t.modeReqPend = true)
  ∧ changes .partMode 0x21 (fun _ => 4)
      (fun e s => engArg e 1 1 ≤ 2 ∧ engArg e 2 2 = 0 ∧ engArg e 0 1 ≠ 0 ∧ s.fbit (fPART_CTRL_LOCK (engArg e 0 1)) = false
        ∧ ¬ (engArg e 1 1 = 2 ∧ s.partMode (engArg e 0 1) = 1) ∧ Writes (rPART_CTRL (engArg e 0 1)) (engArg e 1 1) s) (fun _ _ => [])
      (fun e s t => Holds t [(fPART_CTRL_REQ (engArg e 0 1), engArg e 1 1), (fPART_STAT_BUSY (engArg e 0 1), 1)]
        ∧ t.part (engArg e 0 1) = { s.part (engArg e 0 1) with pendReq := true } ∧ OtherParts (engArg e 0 1) s t)
  ∧ changes .cellarFreeze 0x30 (fun _ => 0) (fun _ s => s.fbit fMGT_CB_STAT_FROZEN = false)
      (fun _ t => leBytes 4 t.cbHead ++ leBytes 2 (t.fget fMGT_CB_STAT_FF_COUNT) ++ leBytes 2 0)
      (fun _ s t => Holds t [(fMGT_CB_STAT_FROZEN, 1), (fMGT_CB_CTRL_FREEZE, 1)] ∧ t.cellarQ = [] ∧ t.cb.frozenAt = s.lt.toNat)
  ∧ changes .cellarUnfreeze 0x31 (fun _ => 0) (fun _ s => s.fbit fMGT_CB_STAT_FROZEN = true) (fun _ t => leBytes 4 (t.reg rMGT_CB_FROZEN).toNat)
      (fun _ _ t => Holds t [(fMGT_CB_STAT_FROZEN, 0), (fMGT_CB_CTRL_FREEZE, 0)] ∧ t.cellarQ = [])
  ∧ reads .cellarRead 0x32 (fun _ => 12)
      (fun e _ => engArg e 0 1 ≤ 1 ∧ engArg e 1 3 = 0 ∧ 1 ≤ engArg e 8 2 ∧ engArg e 8 2 ≤ 40 ∧ engArg e 10 2 = 0)
      (fun e s => (List.range (engArg e 8 2)).flatMap (fun i =>
        match s.cbRecord (decide (engArg e 0 1 = 1)) ((engArg e 4 4 + i) % 2 ^ 32) with | some b => b | none => List.replicate 32 0))
  ∧ reads .cellarStatus 0x33 (fun _ => 0) (fun _ _ => True) (fun _ => shown [rMGT_CB_STAT, rMGT_CB_HEAD, rMGT_CB_FROZEN, rMGT_CB_LOST])
  ∧ served .graftLoad 0x40 (fun _ => 1032)
      (fun e _ => engArg e 1 1 = 0 ∧ engArg e 2 2 = 0 ∧ 1024 < engArg e 4 4 ∧ engArg e 4 4 ≤ 262144)
      (fun e s t => Answered 0x40 e 0 ((engArg e 4 4 + 1023) / 1024 - 1) [] t ∧ Counted (fTIME_CNT_COUNT 13) s t
        ∧ (∃ l, t.eng.load = some l ∧ l.part = engArg e 0 1 ∧ l.total = engArg e 4 4 ∧ l.have' = [0]
          ∧ ∀ i < 1024, SMap.get byte0 l.buf i = e.payload.getD (8 + i) 0) ∧ t.mem = s.mem ∧ t.parts = s.parts)
  ∧ changes .graftAlloc 0x41 (fun _ => 8)
      (fun e s => engArg e 1 3 = 0 ∧ (let w := engArg e 4 4; bitsOf w 23 18 = 0 ∧ bitsOf w 17 16 = 0 ∧ 0 < bitsOf w 31 24 ∧ bitsOf w 31 24 ≤ 128
        ∧ s.standby = false ∧ s.grfState (engArg e 0 1) = 0 ∧ (∃ a, Free s.codeRuns 6144 (bitsOf w 31 24) a) ∧ Writes (rPART_GRF_ALLOC (engArg e 0 1)) w s))
      (fun _ _ => [])
      (fun e s t => t.grfState (engArg e 0 1) = 1 ∧ (t.part (engArg e 0 1)).other.codeKb = bitsOf (engArg e 4 4) 31 24
        ∧ Free s.codeRuns 6144 (bitsOf (engArg e 4 4) 31 24) (t.part (engArg e 0 1)).other.codeAt ∧ OtherParts (engArg e 0 1) s t)
  ∧ changes .graftWrite 0x42 (fun e => 12 + engArg e 8 2)
      (fun e s => engArg e 1 3 = 0 ∧ engArg e 10 2 = 0 ∧ 1 ≤ engArg e 8 2 ∧ engArg e 8 2 ≤ 8
        ∧ engArg e 4 4 / 8 = (engArg e 4 4 + engArg e 8 2 - 1) / 8 ∧ s.standby = false ∧ s.fget fSYS_MODULE_MODE_CUR ≠ 2
        ∧ ∀ i < engArg e 8 2, inStores (engArg e 4 4 + i) = true ∧ s.winDrop mEng (engArg e 4 4 + i) = none)
      (fun e _ => leBytes 2 (engArg e 8 2))
      (fun e s t => (∀ i < engArg e 8 2, t.rdB (engArg e 4 4 + i) = e.payload.getD (12 + i) 0) ∧ MemBut (engArg e 4 4) (engArg e 4 4 + engArg e 8 2) s t)
  ∧ begins .graftArm 0x43 (fun _ => 8)
      (fun e s => engArg e 1 3 = 0 ∧ engArg e 4 4 < 2 ^ 28 ∧ s.standby = false ∧ s.grfState (engArg e 0 1) = 1
        ∧ Writes (rPART_GRF_CTRL (engArg e 0 1)) (engArg e 4 4 + 2 ^ 31) s)
      (fun e => .graft (engArg e 0 1))
      (fun e s t => t.grfState (engArg e 0 1) = 2 ∧ t.part (engArg e 0 1) = { s.part (engArg e 0 1) with armer := mEng } ∧ OtherParts (engArg e 0 1) s t)
  ∧ changes .graftGo 0x44 (fun _ => 0)
      (fun _ s => s.standby = false ∧ Writes rPART_GRF_GROUP 1 s
        ∧ ∀ n < 256, s.fbit (fPART_GRF_CTRL_GROUP n) = true → s.grfState n ≠ 2 ∧ s.grfState n ≠ 3) (fun _ _ => [])
      (fun _ s t => ∀ n < 256, s.fbit (fPART_GRF_CTRL_GROUP n) = true → s.grfState n = 4 → (s.part n).commitAt = none →
        t.part n = { s.part n with commitAt := some (secondNext s) })
  ∧ (let graft (mk : EngReq → Instr) (cmd bit : Nat) (ok : State → Nat → Prop) (st : Nat) : Prop :=
      changes mk cmd (fun _ => 4)
        (fun e s => engArg e 1 3 = 0 ∧ s.standby = false ∧ ok s (engArg e 0 1)
          ∧ Writes (rPART_GRF_CTRL (engArg e 0 1)) (setBits (s.reg (rPART_GRF_CTRL (engArg e 0 1))).toNat bit bit 1) s
          ∧ (s.reg (rPART_GRF_CTRL (engArg e 0 1))).toNat < 2 ^ 28)
        (fun _ _ => []) (fun e s t => t.grfState (engArg e 0 1) = st ∧ OtherParts (engArg e 0 1) s t)
    graft .graftRollback 0x45 29 (fun s n => s.grfState n = 5 ∧ (s.part n).other.maps ≠ 1) 7
      ∧ graft .graftRelease 0x46 28 (fun s n => s.grfState n = 5) 6
      ∧ graft .graftAbort 0x47 30 (fun s n => s.grfState n ∈ [1, 2, 3] ∨ (s.grfState n = 4 ∧ (s.part n).commitAt = none)) 0)
  ∧ reads .graftStatus 0x48 (fun _ => 4) (fun e _ => engArg e 1 3 = 0)
      (fun e => shown [rPART_GRF_STAT (engArg e 0 1), rPART_GRF_COMMIT (engArg e 0 1), rPART_GRF_WIN (engArg e 0 1)])
  ∧ changes .mbxSend 0x50 (fun _ => 68)
      (fun e s => engArg e 0 1 < 128 ∧ engArg e 1 3 = 0 ∧ s.standby = false ∧ s.fget fSYS_MODULE_MODE_CUR ≠ 2 ∧ s.rackHeld + 1000 ≤ 262144
        ∧ s.mbxSends (engArg e 0 1) mEng = true ∧ s.fbit (fMBX_CH_STAT_GO (engArg e 0 1)) = false) (fun _ _ => [])
      (fun e s t => Holds t [(fMBX_CH_STAT_GO (engArg e 0 1), 1)]
        ∧ ∀ j < s.mbxWords (engArg e 0 1), (t.reg (rMBX_MSG (engArg e 0 1) j)).toNat = engArg e (4 + 4 * j) 4)
  ∧ (let mbx (mk : EngReq → Instr) (cmd bits zeros : Nat) (party : State → Nat → Bool) (q : EngReq → Nat → State → Prop) : Prop :=
      changes mk cmd (fun _ => 4)
        (fun e s => engArg e 0 1 < 128 ∧ engArg e (4 - zeros) zeros = 0 ∧ party s (engArg e 0 1) = true ∧ s.fbit (fMBX_CH_STAT_GO (engArg e 0 1)) = true
          ∧ Writes (rMBX_CMD (engArg e 0 1)) (bits + (3 - zeros) * engArg e 1 1 * 256) s) (fun _ _ => []) (fun e _ t => q e (engArg e 0 1) t)
    mbx .mbxTake 0x51 4 3 (fun s c => s.mbxReceives c mEng) (fun _ c t => Holds t [(fMBX_CH_STAT_GO c, 1), (fMBX_ACK_CODE c, 1)])
      ∧ mbx .mbxDone 0x52 8 2 (fun s c => s.mbxReceives c mEng)
        (fun e c t => Holds t [(fMBX_CH_STAT_GO c, 0), (fMBX_ACK_CODE c, 2), (fMBX_ACK_USER c, engArg e 1 1)])
      ∧ mbx .mbxWithdraw 0x53 2 3 (fun s c => s.mbxSends c mEng) (fun _ c t => Holds t [(fMBX_CH_STAT_GO c, 0), (fMBX_ACK_CODE c, 3)]))
  ∧ reads .mbxRead 0x54 (fun _ => 4) (fun e _ => engArg e 0 1 < 128 ∧ engArg e 1 3 = 0)
      (fun e s => shown ([rMBX_CH_STAT (engArg e 0 1), rMBX_ACK (engArg e 0 1)] ++ (List.range (s.mbxWords (engArg e 0 1))).map (fun j => rMBX_MSG (engArg e 0 1) j)) s)
  ∧ reads .timeGet 0x60 (fun _ => 0) (fun _ _ => True) (fun _ s => leBytes 8 s.lt.toNat ++ leBytes 8 s.wallSec ++ leBytes 4 s.wallSubNs
      ++ leBytes 1 s.wall.epoch ++ leBytes 4 (s.reg rTIME_PTP_STAT).toNat ++ leBytes 3 0)
  ∧ (let ok (e : EngReq) (s : State) : Prop := engArg e 0 8 < 2 ^ 40 ∧ engArg e 8 4 < 1000000000 ∧ engArg e 13 3 = 0
        ∧ s.fget fTIME_PTP_STAT_PORT_STATE ≠ psSlave
     let off (e : EngReq) (s : State) : Int := (((engArg e 0 8 * 1000000000 + engArg e 8 4) * 65536 : Nat) : Int) - s.wallTarget
    changes .timeSetWall 0x61 (fun _ => 16) (fun e s => ok e s ∧ engArg e 12 1 = 1) (fun _ _ => [])
        (fun e s t => t.wall = { s.wall with step := some (off e s, s.lt.toNat) })
      ∧ changes .timeSetWall 0x61 (fun _ => 16) (fun e s => ok e s ∧ engArg e 12 1 = 0 ∧ s.stepSize (off e s) = false) (fun _ _ => [])
        (fun e s t => t.wall = { s.wall with slewLeft := off e s } ∧ Holds t [(fTIME_STAT_WALL_UNSET, 0)]))
  ∧ changes .timeAcceptBack 0x62 (fun _ => 0) (fun _ s => s.wall.hold.isSome = true ∧ Writes rTIME_SET_CMD 4 s) (fun _ _ => [])
      (fun _ s t => t.wall = { s.wall with acceptBack := true })
  ∧ (let ok (e : EngReq) : Prop := caskRange (engArg e 0 1) (engArg e 4 4) (engArg e 8 2) = true ∧ engArg e 2 2 = 0 ∧ engArg e 10 2 = 0
     let a (e : EngReq) : Nat := (regionAt (engArg e 0 1)).1 + engArg e 4 4
    reads .caskRead 0x70 (fun _ => 20) (fun e s => ok e ∧ engArg e 1 1 = 0 ∧ s.caskPw (engArg e 0 1) false = engArg e 12 8)
        (fun e s => s.caskShown (a e) (engArg e 8 2))
      ∧ served .caskRead 0x70 (fun _ => 20) (fun e s => ok e ∧ engArg e 1 1 = 0 ∧ s.caskPw (engArg e 0 1) false ≠ engArg e 12 8)
        (fun e _ t => Answered 0x70 e esDropped pwPassword [] t)
      ∧ (let free (e : EngReq) (s : State) : Prop := ok e ∧ s.caskPw (engArg e 0 1) true = engArg e 12 8 ∧ 6 ≤ engArg e 0 1
            ∧ s.fbit fCASK_STAT_BUSY = false ∧ s.bufOver (addrBytes (a e) (e.payload.drop 20)) = false
         let took (e : EngReq) (_s t : State) : Prop :=
            ∀ i < engArg e 8 2, SMap.get (fun _ => none) t.ck.buf (a e + i) = some (e.payload.getD (20 + i) 0)
        changes .caskWrite 0x71 (fun e => 20 + engArg e 8 2) (fun e s => free e s ∧ engArg e 1 1 = 0) (fun _ _ => []) took
          ∧ begins .caskWrite 0x71 (fun e => 20 + engArg e 8 2) (fun e s => free e s ∧ engArg e 1 1 = 1) (fun _ => .cask)
            (fun e s t => took e s t ∧ Holds t [(fCASK_STAT_BUSY, 1)])))
  ∧ begins .fwWrite 0x80 (fun e => 8 + engArg e 4 2)
      (fun e s => engArg e 6 2 = 0 ∧ 4 ≤ engArg e 4 2 ∧ engArg e 4 2 ≤ 1024 ∧ engArg e 4 2 % 4 = 0 ∧ engArg e 0 4 % 4 = 0
        ∧ engArg e 0 4 + engArg e 4 2 ≤ 2 ^ 27 ∧ s.inRom = false ∧ s.fbit fMGT_FW_STAT_BUSY = false)
      (fun _ => .flash)
      (fun e s t => Holds t [(fMGT_FW_STAT_BUSY, 1)]
        ∧ t.mgt = { s.mgt with fw := some { addr := (1 - s.fget fMGT_STAT_BANK) * 2 ^ 27 + engArg e 0 4, data := e.payload.drop 8 } })
  ∧ changes .fwSelect 0x81 (fun _ => 4) (fun e s => engArg e 0 1 = 1 ∧ engArg e 1 3 = 0 ∧ s.inRom = false ∧ s.fbit fMGT_FW_STAT_BUSY = false)
      (fun _ t => leBytes 4 (t.reg rMGT_FW_STAT).toNat)
      (fun _ _ t => Holds t [(fMGT_FW_STAT_RESULT, 1), (fMGT_STAT_TRIAL_PEND, 1)])
  ∧ changes .restart 0x90 (fun _ => 4) (fun e _ => engArg e 0 1 ≤ 1 ∧ engArg e 1 3 = 0) (fun _ _ => [])
      (fun e _ t => t.eng.restart = some (decide (engArg e 0 1 = 1)))
  ∧ (∀ s, (s.eng.restart = none → Idle .engRestartDelay s)
      ∧ (∀ r, s.eng.restart = some r → ResetsNow s 11 → Done .engRestartDelay s (fun s t => ResetWith 11 t ∧ t.recReq = r
          ∧ (r = false → s.fget fRST_START_PHASE = phRecovery → t.fget fRST_START_FAIL_COUNT = 0))))
  ∧ (∀ s, (s.mgt.down = true → Idle (.engFrameDiscard .frame) s ∧ Idle (.engFrameDiscard .short) s)
      ∧ (s.mgt.down = false → ∀ d, (d = .frame ∨ d = .short) → Done (.engFrameDiscard d) s (fun s t =>
          Counted (fTIME_CNT_COUNT 10) s t ∧ RegsBut [(fTIME_CNT_COUNT 10).off] s t ∧ t = { s with regs := t.regs })))
  ∧ (∀ cmd e s, Ready cmd e s → cmd ∉ engCodes → s.fget fRST_START_PHASE = phOperating → s.inRom = false →
      Done (.engFrameDiscard (.request cmd e)) s (fun _ t => Answered cmd e esUnknown 0 [] t))
  ∧ (∀ ip target s, (s.mgt.down = true ∨ target ≠ s.fget fTIME_ENG_IP_ADDR → Idle (.arpRequest ip target) s)
      ∧ (s.mgt.down = false → target = s.fget fTIME_ENG_IP_ADDR → Done (.arpRequest ip target) s (fun s t =>
          t = { s with out := s.engMsg .arp ip 0 [target] :: s.out })))
  ∧ (∀ ip target data s, (s.mgt.down = true ∨ target ≠ s.fget fTIME_ENG_IP_ADDR → Idle (.icmpEcho ip target data) s)
      ∧ (s.mgt.down = false → target = s.fget fTIME_ENG_IP_ADDR → s.engReach ip = true → Done (.icmpEcho ip target data) s (fun s t =>
          t = { s with out := s.engMsg .icmp ip 0 (nats data) :: s.out })))
  ∧ actionsEnd


namespace Sys2Proof.Claims

/-- Controller `c`'s registers and no others may have changed, beside what a raise of its events leaves. -/
def CanOnly (c : Nat) (s t : State) : Prop :=
  (∀ o, (o < rCAN_CTRL c ∨ rCAN_CTRL c + 0x1000 ≤ o) → o ∉ [fEVT_CNT_MERGE_COUNT.off, fEVT_STAT_MERGED.off] →
      (∀ k < 8, o ≠ (fEVT_SRC_CNT_COUNT (576 + 8 * c + k)).off) → t.reg o = s.reg o)
    ∧ (∀ d, d ≠ c → t.canOf d = s.canOf d)
    ∧ t = { s with regs := t.regs, can := t.can, evLatch := t.evLatch, out := t.out, free := t.free }

/-- Buffer `b` has ended, sent or aborted (R522). -/
def BufEnd (c b : Nat) (sent : Bool) (t : State) : Prop :=
  t.canPend c b = false ∧ t.arrBit (rCAN_TX_STAT c) ((if sent then 4 else 8) + b) = true ∧ latched t (576 + 8 * c + (if sent then 2 else 3))

/-- A frame's entry is the newest of the receive FIFO (R525), or is lost to a full one (R527). -/
def Stored (c : Nat) (f : CanFrame) (s t : State) : Prop :=
  let v := s.canOf c
  if v.fifo.length < 32 then
    (t.canOf c).fifo = v.fifo ++ [canWords f v.next] ∧ (t.canOf c).next = v.next + 1 ∧ Counted (fCAN_CNT_COUNT c 0) s t ∧ (v.fifo = [] → latched t (576 + 8 * c))
      ∧ Holds t [(fCAN_RX_STAT_FILL c, v.fifo.length + 1)]
  else (t.canOf c).fifo = v.fifo ∧ Counted (fCAN_CNT_COUNT c 2) s t ∧ latched t (576 + 8 * c + 1)

/-- Nothing changes but the field die (R532). -/
def FieldDie (v : LioField) (s t : State) : Prop := t = { s with lioF := v }

/-- OUT with the image's points replaced by those of `w` (R548). -/
def outMix (s : State) (w : Word) : Word := (s.reg rLIO_OUT &&& ~~~ s.reg rLIO_OUT_SRC) ||| (w &&& s.reg rLIO_OUT_SRC)

/-- The panel's registers but its frame buffer and its driver's data may have changed, and PANEL_EVENT may have been raised. -/
def PanelOnly (l : List Nat) (s t : State) : Prop :=
  RegsBut (l ++ raiseRegs 710) s t ∧ t = { s with regs := t.regs, evLatch := t.evLatch, panel := t.panel }

end Sys2Proof.Claims

/-- The service bus, local IO and the panel (R512 … R529, R532 … R548, R550 … R553). Fault confinement beyond the spec's words follows ISO 11898-1
(log 24). -/
def Obligations.CanLioPanel : Prop :=
  (∀ (cf : Fin 4) s,
      let c := cf.val
      let m := s.fget (fCAN_CTRL_MODE c)
      ((s.mgt.down = true ∨ m = s.canMode c ∨ s.fbit (fCAN_TX_STAT_ON_BUS c) = true) → Idle (.canModeApply cf) s)
      ∧ (s.mgt.down = false → m ≠ s.canMode c → s.fbit (fCAN_TX_STAT_ON_BUS c) = false → Done (.canModeApply cf) s (fun s t =>
          t.canMode c = m ∧ CanOnly c s t
          ∧ (m = cmOff → Holds t [(fCAN_ERR_TEC c, 0), (fCAN_ERR_REC c, 0), (fCAN_STAT_STATE c, 0), (fCAN_STAT_SYNCED c, 0)]
              ∧ (t.canOf c).recovering = false ∧ ∀ b < 3, t.canPend c b = false ∧ (s.canPend c b = true → BufEnd c b false t))
          ∧ (m = cmRate → Holds t [(fCAN_RATE_STAT_FOUND c, 0), (fCAN_RATE_STAT_ENTRY c, 0)] ∧ (t.canOf c).good = 0)
          ∧ (m ≠ cmOff → ∀ b < 3, t.canPend c b = s.canPend c b)))
      ∧ ((s.mgt.down = true ∨ s.canMode c = cmOff) → Idle (.canIntegrated cf) s)
      ∧ (s.mgt.down = false → s.canMode c ≠ cmOff → Done (.canIntegrated cf) s (fun s t =>
          Holds t [(fCAN_STAT_SYNCED c, 1)] ∧ RegsBut [rCAN_STAT c] s t ∧ t = { s with regs := t.regs })))
  ∧ (∀ (cf : Fin 4) s,
      let c := cf.val
      let m := s.canMode c
      let none' := ∀ b < 3, s.canPend c b = false
      ((s.canOn c = false ∨ s.fbit (fCAN_TX_STAT_ON_BUS c) = true) → Idle (.canArbitrationStart cf) s)
      ∧ (s.canOn c = true → s.fbit (fCAN_TX_STAT_ON_BUS c) = false →
          ((m = cmNormal ∨ m = cmLoop) → ¬ none' → Done (.canArbitrationStart cf) s (fun s t => ∃ b < 3, s.canPend c b = true
              ∧ (s.fbit (fCAN_CTRL_TXORD c) = true → ∀ d < b, s.canPend c d = false)
              ∧ (s.fbit (fCAN_CTRL_TXORD c) = false → ∀ d < 3, s.canPend c d = true → canBefore (s.canRank c d) (s.canRank c b) = false)
              ∧ Holds t [(fCAN_TX_STAT_ON_BUS c, 1), (fCAN_TX_STAT_ACTIVE c, b), (fCAN_STAT_TX_BUSY c, 1)]
              ∧ (m = cmLoop → t.out = s.out) ∧ (m = cmNormal → ∃ l, t.out = { medium := .can, dst := c, kind := b, data := l } :: s.out) ∧ CanOnly c s t))
          ∧ (m ≠ cmLoop → (m ≠ cmNormal ∨ none') → Done (.canArbitrationStart cf) s (fun s t =>
              Holds t [(fCAN_STAT_RX_BUSY c, 1)] ∧ RegsBut [rCAN_STAT c] s t ∧ t = { s with regs := t.regs }))))
  ∧ (∀ (cf : Fin 4) (d : BitVec 7) sof s,
      let c := cf.val
      let b := s.fget (fCAN_TX_STAT_ACTIVE c)
      let on := s.mgt.down = false ∧ s.fbit (fCAN_TX_STAT_ON_BUS c) = true
      (¬ on → Idle (.canFrameSent cf d sof) s ∧ Idle (.canArbitrationLost cf) s)
      ∧ (on → b < 3 → Done (.canFrameSent cf d sof) s (fun s t => BufEnd c b true t ∧ Counted (fCAN_CNT_COUNT c 1) s t
          ∧ Holds t [(fCAN_TX_STAT_ON_BUS c, 0), (fCAN_STAT_TX_BUSY c, 0), (fCAN_ERR_TEC c, min (s.fget (fCAN_ERR_TEC c) - 1) 256)]
          ∧ (∀ k < 3, k ≠ b → t.canPend c k = s.canPend c k)
          ∧ (s.fbit (fCAN_TXB_CTL_FDF c b) = true → s.fbit (fCAN_TXB_CTL_BRS c b) = true → t.fget (fCAN_TDC_MEASURED c) = d.toNat)
          ∧ (s.canMode c ≠ cmLoop → (t.canOf c).fifo = (s.canOf c).fifo)
          ∧ (s.canMode c = cmLoop → (s.canOf c).fifo.length < 32 → (t.canOf c).fifo.length = (s.canOf c).fifo.length + 1) ∧ CanOnly c s t))
      ∧ (on → b < 3 → Done (.canArbitrationLost cf) s (fun s t => Counted (fCAN_CNT_COUNT c 5) s t
          ∧ Holds t [(fCAN_TX_STAT_ON_BUS c, 0), (fCAN_STAT_RX_BUSY c, 1)] ∧ CanOnly c s t
          ∧ (let ends := s.fbit (fCAN_CTRL_SINGLE_SHOT c) = true ∨ b ∈ (s.canOf c).abort
             (ends → BufEnd c b false t) ∧ (¬ ends → t.canPend c b = s.canPend c b)))))
  ∧ (∀ (cf : Fin 4) f s,
      let c := cf.val
      let m := s.canMode c
      ((s.canOn c = false ∨ m = cmLoop) → Idle (.canFrameReceived cf f) s)
      ∧ (s.canOn c = true → m = cmListen → Done (.canFrameReceived cf f) s (fun s t => Stored c f s t
          ∧ t.fget (fCAN_ERR_REC c) = s.fget (fCAN_ERR_REC c) ∧ CanOnly c s t))
      ∧ (s.canOn c = true → m = cmNormal → Done (.canFrameReceived cf f) s (fun s t => Stored c f s t
          ∧ (s.fget (fCAN_ERR_REC c) ≤ 127 → t.fget (fCAN_ERR_REC c) = s.fget (fCAN_ERR_REC c) - 1)
          ∧ (127 < s.fget (fCAN_ERR_REC c) → 119 ≤ t.fget (fCAN_ERR_REC c) ∧ t.fget (fCAN_ERR_REC c) ≤ 127) ∧ CanOnly c s t))
      ∧ (s.canOn c = true → m = cmRate →
          let n := (s.canOf c).good + 1
          let e := s.fget (fCAN_RATE_STAT_ENTRY c)
          (n < s.fget (fCAN_RATE_CFG_CONFIRM c) → Done (.canFrameReceived cf f) s (fun s t => (t.canOf c).good = n ∧ CanOnly c s t))
          ∧ (s.fget (fCAN_RATE_CFG_CONFIRM c) ≤ n → Done (.canFrameReceived cf f) s (fun s t =>
              Holds t [(fCAN_RATE_STAT_FOUND c, 1), (fCAN_CTRL_MODE c, cmListen), (fCAN_STAT_MODE_CUR c, cmListen)]
              ∧ t.reg (rCAN_NBT c) = s.reg (rCAN_RATE_NBT c e) ∧ t.reg (rCAN_DBT c) = s.reg (rCAN_RATE_DBT c e) ∧ latched t (576 + 8 * c + 7) ∧ CanOnly c s t))))
  ∧ (∀ (cf : Fin 4) lec dp why s,
      let c := cf.val
      let tec := s.fget (fCAN_ERR_TEC c)
      let rec' := s.fget (fCAN_ERR_REC c)
      let up (tx : Bool) : Nat := match why with | .flag => if tx then 8 else 1 | .dominant => 8 | .exempt => 0
      let seen (s t : State) : Prop := Holds t [(fCAN_ERR_LEC c, lecCode lec), (fCAN_ERR_DATA_PHASE c, b2n dp), (fCAN_STAT_RX_BUSY c, 0)]
        ∧ Counted (fCAN_CNT_COUNT c 3) s t ∧ CanOnly c s t
      (s.canOn c = false → Idle (.canBusError cf lec dp why) s)
      ∧ (s.canOn c = true → s.canMode c = cmNormal → s.fbit (fCAN_TX_STAT_ON_BUS c) = false → Done (.canBusError cf lec dp why) s (fun s t =>
          seen s t ∧ Holds t [(fCAN_ERR_REC c, min (rec' + up false) 255), (fCAN_ERR_TEC c, min tec 256)]))
      ∧ (s.canOn c = true → s.canMode c = cmNormal → s.fbit (fCAN_TX_STAT_ON_BUS c) = true → Done (.canBusError cf lec dp why) s (fun s t =>
          seen s t ∧ Holds t [(fCAN_ERR_TEC c, min (tec + up true) 256), (fCAN_ERR_REC c, rec'), (fCAN_TX_STAT_ON_BUS c, 0)]
          ∧ (255 < tec + up true → Holds t [(fCAN_STAT_STATE c, 2)] ∧ latched t (576 + 8 * c + 6) ∧ Counted (fCAN_CNT_COUNT c 4) s t
              ∧ (t.canOf c).recovering = s.fbit (fCAN_CTRL_AUTO_RECOVER c))
          ∧ (tec + up true ≤ 255 → Holds t [(fCAN_STAT_STATE c, if 127 < tec + up true ∨ 127 < rec' then 1 else 0)])))
      ∧ (s.canOn c = true → (s.canMode c = cmListen ∨ s.canMode c = cmRate) → s.fbit (fCAN_TX_STAT_ON_BUS c) = false →
          Done (.canBusError cf lec dp why) s (fun s t => seen s t ∧ Holds t [(fCAN_ERR_TEC c, tec), (fCAN_ERR_REC c, rec')]
            ∧ (s.canMode c = cmRate → (t.canOf c).good = 0))))
  ∧ (∀ (cf : Fin 4) s,
      let c := cf.val
      ((s.mgt.down = true ∨ (s.canOf c).recovering = false) → Idle (.canRecoveryDone cf) s)
      ∧ (s.mgt.down = false → (s.canOf c).recovering = true → Done (.canRecoveryDone cf) s (fun s t =>
          Holds t [(fCAN_ERR_TEC c, 0), (fCAN_ERR_REC c, 0), (fCAN_STAT_STATE c, 0), (fCAN_STAT_WARN c, 0)]
          ∧ CanIs c { s.canOf c with recovering := false } s t ∧ RegsBut [rCAN_ERR c, rCAN_STAT c] s t)))
  ∧ (∀ (cf : Fin 4) s,
      let c := cf.val
      let e := s.fget (fCAN_RATE_STAT_ENTRY c) + 1
      ((s.mgt.down = true ∨ s.canMode c ≠ cmRate) → Idle (.canRateDwellEnd cf) s)
      ∧ (s.mgt.down = false → s.canMode c = cmRate → Done (.canRateDwellEnd cf) s (fun s t =>
          CanIs c { s.canOf c with good := 0 } s t ∧ RegsBut [rCAN_RATE_STAT c] s t
          ∧ (e < s.fget (fCAN_RATE_CFG_COUNT c) → e < 8 → Holds t [(fCAN_RATE_STAT_ENTRY c, e), (fCAN_RATE_STAT_PASSES c, s.fget (fCAN_RATE_STAT_PASSES c))])
          ∧ (s.fget (fCAN_RATE_CFG_COUNT c) ≤ e → Holds t [(fCAN_RATE_STAT_ENTRY c, 0)] ∧ Counted (fCAN_RATE_STAT_PASSES c) s t))))
  ∧ (∀ r s, (s.mgt.down = true → Idle (.lioMapOutDone r) s ∧ Idle .lioBoundaryTimeout s)
      ∧ (s.mgt.down = false → s.lioImageOk = true → r = .ok → Done (.lioMapOutDone r) s (fun s t =>
          t.reg rLIO_OUT = outMix s (BitVec.ofNat 32 (s.rdLE (s.fget fLIO_MAP_OUT_ADDR) 4)) ∧ Holds t [(fLIO_STAT_IMAGE, 1)]
          ∧ RegsBut [rLIO_OUT, rLIO_STAT, fFAB_TAGS_HWM.off] s t ∧ t = { s with regs := t.regs }))
      ∧ (s.mgt.down = false → s.lioImageOk = true → r ≠ .ok → Done (.lioMapOutDone r) s (fun s t =>
          t.reg rLIO_OUT = outMix s (s.reg rLIO_OUT_SAFE) ∧ Holds t [(fLIO_STAT_IMAGE, 0), (fLIO_FLAGS_MAP_ERR, 1)] ∧ Counted (fLIO_CNT_COUNT 3) s t
          ∧ (respErr r = true → (t.reg rFAB_ERR_ADDR).toNat = s.fget fLIO_MAP_OUT_ADDR ∧ latched t 684)
          ∧ (r = .void → RegsBut [rLIO_OUT, rLIO_STAT, rLIO_FLAGS, (fLIO_CNT_COUNT 3).off] s t ∧ t = { s with regs := t.regs })
          ∧ (r ≠ .parity → t = { s with regs := t.regs, evLatch := t.evLatch })))
      ∧ (s.mgt.down = false →
          let safe (s t : State) : Prop := t.reg rLIO_OUT = outMix s (s.reg rLIO_OUT_SAFE) ∧ Holds t [(fLIO_STAT_IMAGE, 0)]
            ∧ RegsBut [rLIO_OUT, rLIO_STAT] s t ∧ t = { s with regs := t.regs }
          Done .lioBoundaryTimeout s safe ∧ (s.lioImageOk = false → Done (.lioMapOutDone r) s safe)))
  ∧ (∀ s, (s.mgt.down = true → Idle .lioDownFrameSend s)
      ∧ (s.mgt.down = false → s.lio.seq < 64 → s.lio.slot ≤ 32 → Done .lioDownFrameSend s (fun s t => ∃ l : List Byte,
          t.out = { medium := .lioDown, dst := 0, kind := 0, data := nats l } :: s.out ∧ l.length = 10
          ∧ leAt l 0 1 = b2n s.lio.arm * 64 + s.lio.seq ∧ leAt l 1 4 = (s.reg rLIO_OUT).toNat ∧ leAt l 5 1 = s.lio.slot
          ∧ (s.lio.slot = 32 → leAt l 6 3 = s.fget fLIO_CTRL_RETRY)
          ∧ (s.lio.slot < 32 → leAt l 6 3 = s.fget (fLIO_PT_CFG_DIR s.lio.slot) * 2 ^ 23 + s.fget (fLIO_PT_CFG_TYPE s.lio.slot) * 2 ^ 22
              + s.fget (fLIO_PT_CFG_DEBOUNCE s.lio.slot))
          ∧ leAt l 9 1 = crc8 (l.take 9) ∧ t.lio = { s.lio with seq := (s.lio.seq + 1) % 64, slot := (s.lio.slot + 1) % 33, arm := false }
          ∧ t = { s with lio := t.lio, out := t.out })))
  ∧ (∀ l near s,
      let direct := s.fbit fLIO_STAT_LINK && (near && !s.lio.gap)
      (s.mgt.down = true → Idle (.lioUpFrameReceive l near) s)
      ∧ (s.mgt.down = false → s.upOk l direct = false → Done (.lioUpFrameReceive l near) s (fun s t => Counted (fLIO_CNT_COUNT 0) s t
          ∧ Holds t [(fLIO_FLAGS_FRAME_BAD, 1)] ∧ t.lio = { s.lio with gap := true } ∧ t.reg rLIO_IN = s.reg rLIO_IN ∧ t.reg rLIO_FAULT = s.reg rLIO_FAULT))
      ∧ (s.mgt.down = false → s.upOk l direct = true → Done (.lioUpFrameReceive l near) s (fun s t =>
          (t.reg rLIO_IN).toNat = leAt l 1 4 ∧ (t.reg rLIO_FAULT).toNat = leAt l 13 4
          ∧ t.reg rLIO_FAULT_SEEN = s.reg rLIO_FAULT_SEEN ||| (BitVec.ofNat 32 (leAt l 13 4) &&& ~~~ s.reg rLIO_FAULT)
          ∧ Holds t [(fLIO_STAT_LINK, 1), (fLIO_STAT_IN_VALID, 1), (fLIO_STAT_SHUTDOWN, b2n (bitOf (leAt l 0 1) 6)), (fLIO_SUPPLY_MV_MV, leAt l 17 1 * 125)]
          ∧ t.lio = { s.lio with gap := false, status := leAt l 18 1 } ∧ t.reg rLIO_OUT = s.reg rLIO_OUT
          ∧ (s.fbit fLIO_STAT_LINK = true → ∀ i < 32, s.fbit (fLIO_PT_CFG_DIR i) = false → bitOf (leAt l 1 4) i = true → bitOf (s.reg rLIO_IN).toNat i = false →
              latched t (512 + 2 * i))
          ∧ (s.fbit fLIO_STAT_LINK = true → ∀ i < 32, s.fbit (fLIO_PT_CFG_DIR i) = false → bitOf (leAt l 1 4) i = false → bitOf (s.reg rLIO_IN).toNat i = true →
              latched t (513 + 2 * i)))))
  ∧ (∀ l s, (downOk l = false → Done (.lioDownFrameApply l) s (FieldDie { s.lioF with bad := (s.lioF.bad + 1) % 16 }))
      ∧ (downOk l = true → Done (.lioDownFrameApply l) s (fun s t => t.lioF.seq = leAt l 0 1 % 64 ∧ t.lioF.out = leAt l 1 4
          ∧ t.lioF.shutdown = (s.lioF.shutdown && decide (leAt l 0 1 / 64 ≠ 1))
          ∧ (leAt l 5 1 < 32 → t.lioF.retry = s.lioF.retry ∧ bitOf t.lioF.dir (leAt l 5 1) = bitOf (leAt l 6 3) 23
              ∧ SMap.get deb0 t.lioF.deb (leAt l 5 1) = leAt l 6 3 % 65536)
          ∧ (leAt l 5 1 = 32 → t.lioF.retry = leAt l 6 3 % 256 ∧ t.lioF.dir = s.lioF.dir) ∧ FieldDie t.lioF s t)))
  ∧ (∀ (sense : Word) (supply : BitVec 8) s, s.lioF.seq < 64 → s.lioF.bad < 16 → s.lioF.fault < 2 ^ 32 →
      (∀ i < 32, SMap.get (fun _ => 0) s.lioF.chg i ≤ 3) → Done (.lioUpFrameBuild sense supply) s (fun s t => ∃ l : List Byte,
        t.out = { medium := .lioUp, dst := 0, kind := 0, data := nats l } :: s.out ∧ l.length = 20 ∧ leAt l 0 1 = s.lioF.seq + 64 * b2n s.lioF.shutdown
        ∧ (∀ i < 32, bitOf (leAt l 1 4) i = if bitOf s.lioF.dir i = true then bitOf sense.toNat i else bitOf s.lioF.level i)
        ∧ (∀ i < 32, bitsOf (leAt l 5 8) (2 * i + 1) (2 * i) = if bitOf s.lioF.dir i = true then 0 else SMap.get (fun _ => 0) s.lioF.chg i)
        ∧ leAt l 13 4 = s.lioF.fault ∧ leAt l 17 1 = supply.toNat ∧ leAt l 18 1 = s.lioF.bad ∧ leAt l 19 1 = crc8 (l.take 19)
        ∧ t.lioF = { s.lioF with chg := [] } ∧ t = { s with lioF := t.lioF, out := t.out }))
  ∧ (∀ (i : Fin 32) s,
      let v := s.lioF
      (bitOf v.dir i.val = true → Idle (.lioInputChange i) s)
      ∧ (bitOf v.dir i.val = false → Done (.lioInputChange i) s (fun s t => bitOf t.lioF.level i.val = !bitOf v.level i.val
          ∧ (∀ k < 32, k ≠ i.val → bitOf t.lioF.level k = bitOf v.level k)
          ∧ SMap.get (fun _ => 0) t.lioF.chg i.val = min 3 (SMap.get (fun _ => 0) v.chg i.val + 1)
          ∧ FieldDie { v with level := t.lioF.level, chg := t.lioF.chg } s t))
      ∧ (bitOf v.on i.val = false → Idle (.lioOvercurrent i) s)
      ∧ (bitOf v.on i.val = true → Done (.lioOvercurrent i) s (FieldDie { v with on := setBits v.on i.val i.val 0, fault := setBits v.fault i.val i.val 1 }))
      ∧ (bitOf v.fault i.val = false → Idle (.lioRetry i) s)
      ∧ (bitOf v.fault i.val = true → Done (.lioRetry i) s (FieldDie { v with on := setBits v.on i.val i.val 1 }))
      ∧ ((bitOf v.fault i.val = false ∨ bitOf v.on i.val = false) → Idle (.lioRetryOk i) s)
      ∧ (bitOf v.fault i.val = true → bitOf v.on i.val = true → Done (.lioRetryOk i) s (FieldDie { v with fault := setBits v.fault i.val i.val 0 })))
  ∧ (∀ s, Done .lioFieldTimeout s (FieldDie { s.lioF with shutdown := true, on := 0, fault := 0 }) ∧ Done .fieldSupplyRise s (FieldDie {})
      ∧ ((s.mgt.down = true ∨ s.fbit fLIO_STAT_LINK = false) → Idle .lioLinkTimeout s)
      ∧ (s.mgt.down = false → s.fbit fLIO_STAT_LINK = true → Done .lioLinkTimeout s (fun s t =>
          Holds t [(fLIO_STAT_LINK, 0), (fLIO_STAT_IN_VALID, 0), (fLIO_FLAGS_LINK_LOST, 1), (fLIO_SUPPLY_MV_MV, 0), (fLIO_STAT_SUPPLY, suMissing)]
          ∧ (s.fget fLIO_STAT_SUPPLY ≠ suMissing → latched t 709)
          ∧ RegsBut ([rLIO_STAT, rLIO_FLAGS, rLIO_SUPPLY_MV] ++ raiseRegs 709) s t ∧ t = { s with regs := t.regs, evLatch := t.evLatch })))
  ∧ (∀ s, ((s.fbit fPANEL_STAT_SWAP_PEND = false ∨ s.panel.ready = true) → Idle .panelCrcDone s)
      ∧ (s.fbit fPANEL_STAT_SWAP_PEND = true → s.panel.ready = false →
          (crc32 s.backBytes ≠ s.panel.swap → Done .panelCrcDone s (fun s t => Holds t [(fPANEL_STAT_SWAP_PEND, 0), (fPANEL_FLAGS_CRC_BAD, 1)] ∧ latched t 710
            ∧ t.panel = s.panel ∧ PanelOnly [rPANEL_STAT, rPANEL_FLAGS] s t))
          ∧ (crc32 s.backBytes = s.panel.swap → s.pnState = pnOn → Done .panelCrcDone s (fun s t => t = { s with panel := { s.panel with ready := true } }))
          ∧ (crc32 s.backBytes = s.panel.swap → s.pnState ≠ pnOn → Done .panelCrcDone s (fun s t =>
            t.reg rPANEL_FRONT_CRC = BitVec.ofNat 32 s.panel.swap ∧ Holds t [(fPANEL_STAT_SWAP_PEND, 0), (fPANEL_STAT_IDLE, 0)] ∧ t.panel.ready = false
            ∧ ((∀ e ∈ s.regs, e.1 % 4 = 0) → t.frontBytes = s.backBytes)
            ∧ ((∀ e ∈ s.panel.front, e.1 < 2048) → PanelOnly ([rPANEL_STAT, rPANEL_FRONT_CRC, rPANEL_CNT_SWAP] ++ span (rPANEL_FB 0) 1 0x2000) s t)))))
  ∧ (∀ dark up s, (s.pnState ≠ pnOn → Idle (.panelFrameStart dark up) s)
      ∧ (s.pnState = pnOn → s.panel.ready = false → (dark = false ∨ s.pnLit = false) → up = none → Done (.panelFrameStart dark up) s (fun s t =>
          t.panel = { s.panel with drive := (s.reg rPANEL_DRIVE).toNat }
          ∧ t.fget fPANEL_STAT_RATE_CUR = (if s.fbit fPANEL_STAT_IDLE = true then s.fget fPANEL_CTRL_IDLE_RATE else s.fget fPANEL_CTRL_RATE)
          ∧ (crc32 s.frontBytes = (s.reg rPANEL_FRONT_CRC).toNat → t.reg rPANEL_FLAGS = s.reg rPANEL_FLAGS)
          ∧ (crc32 s.frontBytes ≠ (s.reg rPANEL_FRONT_CRC).toNat → Holds t [(fPANEL_FLAGS_FRAME_BAD, 1)] ∧ (s.fbit fPANEL_FLAGS_FRAME_BAD = false → latched t 710))
          ∧ PanelOnly [rPANEL_STAT, rPANEL_FLAGS] s t))
      ∧ (s.pnState = pnOn → dark = true → s.pnLit = true → Done (.panelFrameStart dark up) s (fun _ t => Holds t [(fPANEL_FLAGS_OPEN, 1)] ∧ latched t 710)))
  ∧ (∀ s,
      let due := s.pnState = pnOn ∧ s.fbit fPANEL_STAT_SWAP_PEND = false ∧ (s.reg rPANEL_IDLE).toNat ≠ 0
      (¬ due → Idle .panelIdleTimeout s)
      ∧ (due → Done .panelIdleTimeout s (fun s t => Holds t [(fPANEL_STAT_IDLE, 1), (fPANEL_STAT_RATE_CUR, s.fget fPANEL_CTRL_IDLE_RATE)]
          ∧ RegsBut [rPANEL_STAT] s t ∧ t = { s with regs := t.regs })))
  ∧ (∀ s, (s.pnState ≠ pnRamp → Idle .panelRampDone s)
      ∧ (s.pnState = pnRamp → Done .panelRampDone s (fun s t => Holds t [(fPANEL_STAT_STATE, pnOn), (fPANEL_STAT_IDLE, 0), (fPANEL_STAT_RATE_CUR, s.fget fPANEL_CTRL_RATE)]
          ∧ RegsBut [rPANEL_STAT] s t ∧ t = { s with regs := t.regs })))
  ∧ (∀ hot s, ((s.pnState = pnOff ∨ s.pnState = pnFault) → Idle (.panelSupplyFault hot) s)
      ∧ ((s.pnState = pnRamp ∨ s.pnState = pnOn) → s.panel.ready = false → Done (.panelSupplyFault hot) s (fun s t =>
          Holds t [(fPANEL_STAT_STATE, pnFault), (fPANEL_STAT_RATE_CUR, 0), (if hot then fPANEL_FLAGS_OVERTEMP else fPANEL_FLAGS_SUPPLY, 1)] ∧ latched t 710
          ∧ PanelOnly [rPANEL_STAT, rPANEL_FLAGS] s t)))


namespace Sys2Proof.Claims

/-- Only the pins have changed. -/
def OnlyPins (f : Pins → Pins) (s t : State) : Prop := t = { s with pins := f s.pins }

/-- The management island restarts with a cause (R555): the engineering service, the CAN controllers and the logic die lose what they hold; the
main die goes on. RST_CLOCK, which a clock loss writes, is said apart. -/
def Restarted (cause : Nat) (s t : State) : Prop :=
  Holds t [(fMGT_LAST_RESTART_CAUSE, cause)] ∧ Counted fMGT_STAT_RESTARTS s t
    ∧ (∀ o, o < 0x300000 → o ≠ rRST_CLOCK → t.reg o = s.reg o)
    ∧ t.tagEpoch inMgmt = (s.tagEpoch inMgmt + 1) % 8
    ∧ t = { s with regs := t.regs, mgt := { s.mgt with down := true }, eng := {}, can := [], lio := {}, tagEpochs := t.tagEpochs }

/-- A module that held nothing but its phase: the flush or HELD. -/
def InFlush (s : State) : Prop := s.fget fRST_START_PHASE = phFlush ∨ s.fget fRST_START_PHASE = phHeld

/-- A start may run (R591). -/
def MayStart (s : State) : Prop :=
  s.pins.aux = true ∧ s.pins.main = true ∧ s.pins.resetN = true ∧ s.mgt.startDone = false ∧ s.fget fRST_START_PHASE = phStarting

/-- The start ends in RECOVERY for a reason (R592). -/
def Recovers (why : Nat) (t : State) : Prop :=
  Holds t [(fRST_START_PHASE, phRecovery), (fRST_START_WHY, why), (fSYS_MODULE_MODE_CUR, 2)] ∧ t.mgt.startDone = true

/-- A valid image is booted: no trial, and the confirmed bank is good. -/
def Boots (s : State) : Prop := s.boot.trial = none ∧ s.imgValid s.boot.confirmed = true

/-- What the readings of a sensor count (R569). -/
def counts (s : State) (k : Nat) (x : Int) : Sensor :=
  let wl := s.sensLimit (fMGT_SENS_WARN_LO k)
  let wh := s.sensLimit (fMGT_SENS_WARN_HI k)
  let cl := s.sensLimit (fMGT_SENS_CRIT_LO k)
  let ch := s.sensLimit (fMGT_SENS_CRIT_HI k)
  let c := SMap.get sensor0 s.mgt.sens k
  let up (b : Bool) (n : Nat) : Nat := if b then min (n + 1) 4 else 0
  { bw := up (decide (x < wl) || decide (wh < x)) c.bw, bc := up (decide (x < cl) || decide (ch < x)) c.bc
    iw := up (decide (wl + sensMargin k wl ≤ x) && decide (x ≤ wh - sensMargin k wh)) c.iw
    ic := up (decide (cl + sensMargin k cl ≤ x) && decide (x ≤ ch - sensMargin k ch)) c.ic }

end Sys2Proof.Claims

/-- Supplies, reset pins, clocks, the flush, the watchdog and the start (R555 … R562, R569 … R573, R578 … R582, R585, R590 … R597, R602, R611 … R615,
R623, R624). What POWER_ON and AUX3V3_LOSS lose, and which commands need a phase, are the model's readings (log 26). -/
def Obligations.PowerStartManagement : Prop :=
  (∀ s, Done .mgtWatchdogExpiry s (fun s t => Restarted 1 s t ∧ t.reg rRST_CLOCK = s.reg rRST_CLOCK)
      ∧ Done .mgtFault s (fun s t => Restarted 3 s t ∧ t.reg rRST_CLOCK = s.reg rRST_CLOCK))
  ∧ (∀ s, ResetsNow s 9 → Done .thermalTrip s (fun _ t => ResetWith 9 t))
  ∧ (∀ u s, ResetsNow s 6 → Done (.illegalStateDetection u) s (fun _ t => ResetWith 6 t ∧ t.fget fRST_LAST_DETAIL = 4 * 2 ^ 16 + u % 2 ^ 16))
  ∧ (∀ s, Done .powerOn s (fun s t => t.reg rRST_CAUSE = 2 ∧ Holds t [(fRST_LAST_CAUSE, 1), (fRST_START_PHASE, phStarting)]
      ∧ t.pins = { s.pins with aux := true } ∧ t.mem = [] ∧ t.ctxs = [] ∧ t.cask = s.cask ∧ t.flash = s.flash))
  ∧ (∀ s, Done .aux3v3Loss s (fun s t => t.pins = { s.pins with aux := false } ∧ t.mem = [] ∧ t.ctxs = [] ∧ t.cask = s.cask ∧ t.flash = s.flash
      ∧ t.rtcSec = s.rtcSec ∧ t.lioF = s.lioF))
  ∧ (∀ s, Done .mainPowerGood s (OnlyPins (fun p => { p with main := true })) ∧ Done .resetNRelease s (OnlyPins (fun p => { p with resetN := true })))
  ∧ (∀ s, Done .mainPowerLoss s (fun s t => ResetWith 2 t ∧ t.pins = { s.pins with main := false }
      ∧ (s.fget fRST_START_PHASE = phFlush → Holds t [(fRST_FLUSH_RESULT, 3)])))
  ∧ (∀ s, (InFlush s → Idle .resetNAssert s)
      ∧ (¬ InFlush s → Done .resetNAssert s (fun s t => ResetWith 3 t ∧ t.pins = { s.pins with resetN := false })))
  ∧ (∀ s, (InFlush s → Done .pwrFailNAssert s (OnlyPins (fun p => { p with pwrFailN := false })))
      ∧ (¬ InFlush s → Done .pwrFailNAssert s (fun s t => Holds t [(fRST_START_PHASE, phFlush)] ∧ latched t 708 ∧ (∀ c, (t.cx c).running = false) ∧ t.frames = []
          ∧ t.flushFor = none ∧ t.flush.since = s.lt.toNat ∧ t.flush.main = decide (s.fget fRST_START_PHASE = phOperating)
          ∧ t.pins = { s.pins with pwrFailN := false } ∧ t.mem = s.mem)))
  ∧ (∀ s,
      let due := s.fget fRST_START_PHASE = phFlush ∧ s.flush.quiet = false
      (¬ due → Idle .flushStopPhase s)
      ∧ (due → Done .flushStopPhase s (fun s t => Holds t [(fRACK_STAT_ACTIVE_OUT, 0), (fRACK_STAT_GATE, 0)]
          ∧ t.flush = { s.flush with quiet := true, cycle := s.cycle.toNat, lt := s.lt.toNat, sec := s.wallSec, epoch := s.wall.epoch }
          ∧ t.faultN = s.pins.aux
          ∧ RegsBut [fRACK_STAT_ACTIVE_OUT.off, fRACK_STAT_GATE.off] s t ∧ t = { s with regs := t.regs, flush := t.flush })))
  ∧ (∀ ok n s,
      let due := s.fget fRST_START_PHASE = phFlush ∧ s.flush.quiet = true
      let image := s.flush.main && !s.opt.retain.isEmpty
      let res := if ok = false then 4 else if image = true then 1 else 2
      (¬ due → Idle (.flushDone ok n) s)
      ∧ (due → s.flushFor = none → Done (.flushDone ok n) s (fun s t => Holds t [(fRST_START_PHASE, phHeld), (fRST_FLUSH_RESULT, res)] ∧ t.mem = s.mem
          ∧ (image = true → ok = true → leAt (t.caskList 0x491000 4) 0 4 = 0xF1A50001)))
      ∧ (∀ c d, due → s.flushFor = some (c, d) → c ≤ 13 → Done (.flushDone ok n) s (fun _ t => ResetWith c t ∧ Holds t [(fRST_FLUSH_RESULT, res)])))
  ∧ (∀ s, (s.fget fRST_START_PHASE = phHeld → s.clocksOk = true → Done .pwrFailNRelease s (fun s t => ResetWith 13 t ∧ t.pins = { s.pins with pwrFailN := true }))
      ∧ ((s.fget fRST_START_PHASE ≠ phHeld ∨ s.clocksOk = false) → Done .pwrFailNRelease s (OnlyPins (fun p => { p with pwrFailN := true }))))
  ∧ (∀ s, Done (.clockLoss .mgt) s (fun s t => Restarted 3 s t ∧ Holds t [(fRST_CLOCK_MGT_OK, 0), (fRST_CLOCK_LOST, s.fget fRST_CLOCK_LOST)])
      ∧ (∀ k, k ≠ Clk.mgt →
          (s.clocksOk = true → Done (.clockLoss k) s (fun s t => Holds t [(clkFld k, 0), (fRST_CLOCK_LOST, 1), (fRST_START_PHASE, phHeld),
              (fRACK_STAT_ACTIVE_OUT, 0), (fRACK_STAT_GATE, 0)] ∧ t.mem = s.mem ∧ t.ctxs = s.ctxs))
          ∧ (s.clocksOk = false → Done (.clockLoss k) s (fun s t => Holds t [(clkFld k, 0)] ∧ RegsBut [rRST_CLOCK] s t ∧ t = { s with regs := t.regs }))))
  ∧ (∀ k s,
      let other : Prop := match k with | .tcxo => s.fbit fRST_CLOCK_MAIN_OK = true | .main => s.fbit fRST_CLOCK_TCXO_OK = true | .mgt => False
      (k ≠ .mgt → s.clocksOk = false → other → Done (.clockReturn k) s (fun _ t => ResetWith 10 t))
      ∧ ((k = .mgt ∨ s.clocksOk = true ∨ ¬ other) → Done (.clockReturn k) s (fun s t => Holds t [(clkFld k, 1)] ∧ RegsBut [rRST_CLOCK] s t
          ∧ t = { s with regs := t.regs })))
  ∧ (∀ s,
      let due := s.wdtStart + 1000 * s.opt.wdtPeriod ≤ s.lt.toNat ∧ s.fget fWDT_STAT_STATE ≠ 0
      (¬ due → Idle .wdtExpiry s) ∧ (due → ResetsNow s 4 → Done .wdtExpiry s (fun _ t => ResetWith 4 t ∧ t.fget fRST_WDT_CAP_KIND = 1)))
  ∧ (∀ s,
      let due : Prop := ∃ r, s.mgt.releasedAt = some r ∧ s.startOk = true ∧ r + 1000000000 * s.opt.startOkS ≤ s.lt.toNat
      (¬ due → Idle .startOkExpiry s)
      ∧ (due → Done .startOkExpiry s (fun s t => Holds t [(fRST_START_FAIL_COUNT, 0)] ∧ t.startOk = false ∧ RegsBut [rRST_START] s t
          ∧ t = { s with regs := t.regs, startOk := false })))
  ∧ (∀ f s, (¬ MayStart s → Idle (.startSequence f) s)
      ∧ (MayStart s →
          (s.imgValid 0 = false → s.imgValid 1 = false → Done (.startSequence f) s (fun _ t => Recovers 5 t ∧ Holds t [(fMGT_STAT_BOOT, 3)]))
          ∧ (Boots s → f.modeSel.val = 2 → Done (.startSequence f) s (fun _ t => Holds t [(fRST_START_PHASE, phTest), (fRST_START_MODE_SEL, 2)] ∧ t.mgt.startDone = true))
          ∧ (Boots s → s.recReq = true → f.modeSel.val ≠ 2 → Done (.startSequence f) s (fun _ t => Recovers 1 t ∧ t.recReq = false))
          ∧ (Boots s → s.recReq = false → (f.modeSel.val = 1 ∨ f.modeSel.val = 3) → Done (.startSequence f) s (fun _ t => Recovers 2 t))
          ∧ (Boots s → s.recReq = false → f.modeSel.val = 0 → optValid (s.optCopy 0) = true → s.fget fRST_START_FAIL_COUNT = 0 →
              (∀ k, f.loadFail = some k → Done (.startSequence f) s (fun _ t => ResetWith 12 t ∧ t.fget fRST_LAST_DETAIL = k.val + 2))
              ∧ (f.loadFail = none → f.press = [] → f.scalar = [] → Done (.startSequence f) s (fun _ t =>
                  t.mgt.startDone = true ∧ Holds t [(fRST_START_PHASE, phStarting), (fMGT_STAT_BOOT, 0)]
                  ∧ (∀ j : Fin 16, t.fget (fPAIR_STAT_STATE (scalarPage j.val)) = stIdle)
                  ∧ ∀ k : Fin 34, t.fget (fPAIR_STAT_STATE (pressPage k.val)) = stIdle ∨ t.fget (fPAIR_STAT_STATE (pressPage k.val)) = stSpare)))))
  ∧ (∀ s,
      let may := s.fget fRST_START_PHASE = phStarting ∧ s.mgt.startDone = true
        ∧ ((s.standby = false ∧ s.becomesActive = true) ∨ (s.standby = true ∧ s.mgt.peerTime = true))
      (¬ may → Idle .mainDieRelease s)
      ∧ (may → Done .mainDieRelease s (fun s t => Holds t [(fRST_START_PHASE, phOperating), (fCONV_PERSIST_BUSY, 1)]
          ∧ t.faultN = false ∧ t.lt = (if s.standby = true then s.lt else 0) ∧ t.mgt.releasedAt = some t.lt.toNat ∧ t.startOk = true
          ∧ t.mgt.t0 = (t.lt.toNat + 100000 + s.bc * 1000 - 1) / (s.bc * 1000) * (s.bc * 1000)
          ∧ (∀ a, 0x2000000 ≤ a → a < 0x3A00000 → t.rdB a = store0 a) ∧ (∀ a, a < 0x2000000 → t.rdB a = s.rdB a)
          ∧ (s.standby = false → s.opt.autoStart = true → t.modeReqPend = true ∧ Holds t [(fSYS_MODULE_MODE_REQ, 0), (fSYS_MODULE_MODE_BUSY, 1)])
          ∧ (s.standby = false → s.opt.warmEn = false → Holds t [(fRST_RETAIN_RESULT, 4)]))))
  ∧ (∀ s, (s.fbit fRST_RETAIN_BUSY = false → Idle .warmRestoreDone s)
      ∧ (s.fbit fRST_RETAIN_BUSY = true → Done .warmRestoreDone s (fun s t =>
          Holds t [(fRST_RETAIN_BUSY, 0), (fRST_RETAIN_RESULT, 1), (fRST_START_WARM, 1), (fRST_RETAIN_CYCLE_LO_CYCLE, leAt (s.caskList 0x491008 8) 0 4),
            (fRST_RETAIN_CYCLE_HI_CYCLE, leAt (s.caskList 0x491008 8) 4 4)] ∧ leAt (t.caskList 0x491000 4) 0 4 = 0
          ∧ (∀ a n, s.opt.retain = [(a, n)] → (∀ i < n, t.rdB (a + i) = SMap.get cask0 s.cask (0x492000 + i)) ∧ MemBut a (a + n) s t))))
  ∧ (∀ s,
      let due := s.mgtRuns = true ∧ s.mgt.scrubbing = false ∧ (s.scrubDue = true ∨ s.mgt.scrubAt + 7776000000000000 ≤ s.lt.toNat)
      (¬ due → Idle .flashScrub s)
      ∧ (due → Done .flashScrub s (fun s t => t = { s with scrubDue := false, mgt := { s.mgt with scrubbing := true, scrubAt := s.lt.toNat } }))
      ∧ (s.mgt.scrubbing = false → Idle .scrubEnd s)
      ∧ (s.mgtRuns = true → s.mgt.scrubbing = true → Done .scrubEnd s (fun s t => t.mgt = { s.mgt with scrubbing := false } ∧ t.flash = s.flash
          ∧ ∀ b < 2, Holds t [(fMGT_FW_BANK_CHECKED b, 1), (fMGT_FW_BANK_BAD b, b2n (!s.imgValid b))])))
  ∧ (∀ s, s.lt.toNat < s.mgt.lifeAt + 3600000000000 → Idle .lifeSave s)
  ∧ (∀ s, s.mgtRuns = true → s.mgt.lifeAt + 3600000000000 ≤ s.lt.toNat → Done .lifeSave s (fun s t => t.fget fMGT_LIFE_HOURS_VALUE = (s.fget fMGT_LIFE_HOURS_VALUE + 1) % 2 ^ 32 ∧ t.mgt = { s.mgt with lifeSum := 0, lifeN := 0, lifeAt := s.lt.toNat }
      ∧ (s.mgt.lifeN = 0 → t.fget fMGT_LIFE_TJ_VALUE = unsgn 32 (roundHalf (sgn 32 (s.fget fMGT_LIFE_TJ_VALUE) * s.fget fMGT_LIFE_HOURS_VALUE
          + sgn 32 (s.fget fMGT_LIFE_TJ_VALUE)) (s.fget fMGT_LIFE_HOURS_VALUE + 1))) ∧ t.mem = s.mem))
  ∧ (∀ s,
      let ch := s.fget fMGT_NOTICE_CHANNEL
      let l := ((List.range 768).filter (fun e => s.noticePend.contains e)).take 7
      let on := s.fbit fMGT_NOTICE_EN = true ∧ s.mgt.down = false ∧ s.noticePend ≠ []
      ((¬ on ∨ (s.mbxSends ch mMgt = true ∧ s.fbit (fMBX_CH_STAT_GO ch) = true)) → Idle .noticePost s)
      ∧ (on → s.mbxSends ch mMgt = false → Done .noticePost s (fun s t => Holds t [(fMGT_STAT_NOTICE_BAD, 1)] ∧ RegsBut [rMGT_STAT] s t ∧ t = { s with regs := t.regs }))
      ∧ (on → s.mbxSends ch mMgt = true → s.fbit (fMBX_CH_STAT_GO ch) = false → Done .noticePost s (fun s t => Holds t [(fMBX_CH_STAT_GO ch, 1)]
          ∧ (t.reg (rMBX_MSG ch 0)).toNat = l.length ∧ (∀ i < l.length, (t.reg (rMBX_MSG ch (i + 1))).toNat = l.getD i 0)
          ∧ (∀ e, e ∈ t.noticePend ↔ e ∈ s.noticePend ∧ e ∉ l))))
  ∧ (∀ s, (s.mgt.down = false → Idle .mgtRestartEnd s)
      ∧ (s.mgt.down = true → Done .mgtRestartEnd s (fun s t => t.mgt = { s.mgt with down := false } ∧ latched t 711
          ∧ Holds t [(fTIME_PTP_STAT_PORT_STATE, if s.fbit fTIME_PTP_CTRL_EN = true then psInit else psDisabled)] ∧ t.rtcFired = false
          ∧ (∀ ch < 128, s.fbit (fMBX_BIND_EN ch) = true → s.fbit (fMBX_CH_STAT_GO ch) = true →
              (s.fget (fMBX_BIND_RECEIVER ch) = mMgt ∨ s.fget (fMBX_BIND_RECEIVER ch) = mEng) →
              Holds t [(fMBX_ACK_CODE ch, 4), (fMBX_STAT_RESTART_MARK, 1)]) ∧ t.mem = s.mem)))
  ∧ (∀ (i : Fin 12) (v : BitVec 16) s,
      let x := sgn 16 v.toNat
      let old := s.fget (fMGT_SENS_LEVEL_LEVEL i.val)
      let c := counts s i.val x
      let lvl := sensLevel old c
      (s.mgtRuns = false → Idle (.sensorReading i v) s)
      ∧ (s.mgtRuns = true → (i.val ≤ 1 → lvl = 2 → lvl ≤ old ∨ s.fget fMGT_CTRL_HEAT_ACTION = 0) → Done (.sensorReading i v) s (fun s t =>
          Holds t [(fMGT_SENS_VAL_NOW i.val, v.toNat), (fMGT_SENS_VAL_MAX i.val, unsgn 16 (max x (s.sensLimit (fMGT_SENS_VAL_MAX i.val)))),
            (fMGT_SENS_LEVEL_LEVEL i.val, lvl)]
          ∧ SMap.get sensor0 t.mgt.sens i.val = c ∧ (∀ k, k ≠ i.val → SMap.get sensor0 t.mgt.sens k = SMap.get sensor0 s.mgt.sens k)
          ∧ (old < lvl → latched t (if i.val ≤ 4 then 704 + lvl else 707)) ∧ (lvl ≤ old → t.evLatch = s.evLatch) ∧ t.mem = s.mem)))
  ∧ (∀ s, (s.mgt.down = true ∨ s.cellarQ = [] → Idle .cellarIntake s)
      ∧ (∀ r q, s.mgt.down = false → s.cellarQ = r :: q →
          (s.fbit fMGT_CB_STAT_FROZEN = true → Done .cellarIntake s (fun s t => Counted fMGT_CB_FROZEN_COUNT s t ∧ t.cb = s.cb ∧ t.cellarQ = q))
          ∧ (s.fbit fMGT_CB_STAT_FROZEN = false → s.cb.untold = 0 → Done .cellarIntake s (fun s t => t.cellarQ = q ∧ t.cbHead = (s.cbHead + 1) % 2 ^ 32
              ∧ SMap.get noRec t.cb.ring (s.cbHead % ringSize) = recBytes r s.cbHead (decide (s.fget fMGT_CB_STAT_FF_COUNT < 1024))
              ∧ (s.fget fMGT_CB_STAT_FF_COUNT < 1024 → t.fget fMGT_CB_STAT_FF_COUNT = s.fget fMGT_CB_STAT_FF_COUNT + 1)
              ∧ (s.fget fMGT_CB_STAT_FF_COUNT = 1023 → Holds t [(fMGT_CB_STAT_FF_FULL, 1)] ∧ latched t 712)
              ∧ (1024 ≤ s.fget fMGT_CB_STAT_FF_COUNT → t.cb.ff = s.cb.ff)))))
  ∧ (∀ s,
      let due := s.cb.frozenAt + 1000000000 * s.fget fMGT_CB_CFG_FREEZE_MAX ≤ s.lt.toNat ∧ s.fbit fMGT_CB_STAT_FROZEN = true
      (¬ due → Idle .freezeMaxExpiry s)
      ∧ (due → Done .freezeMaxExpiry s (fun s t => Holds t [(fMGT_CB_STAT_FROZEN, 0), (fMGT_CB_CTRL_FREEZE, 0)] ∧ t.cellarQ = []
          ∧ t.cbHead = (s.cbHead + 1) % 2 ^ 32 ∧ leAt (SMap.get noRec t.cb.ring (s.cbHead % ringSize)) 0 2 = 0x27)))
  ∧ (∀ s,
      let c := s.fget fMGT_CB_STAT_FF_COUNT
      let n := (s.cbHead + 2 ^ 32 - s.cb.saved) % 2 ^ 32
      let t := leAt (SMap.get noRec s.cb.ring (s.cb.saved % ringSize)) 4 8
      let due := s.mgt.down = false ∧ (s.cb.saved ≠ s.cbHead ∨ s.cb.savedFf ≠ c)
        ∧ (2048 ≤ n ∨ t + 1000000 * s.fget fMGT_CB_CFG_PERSIST_MS ≤ s.lt.toNat ∨ s.lt.toNat < t)
      (¬ due → Idle .cellarCommit s)
      ∧ (due → Done .cellarCommit s (fun s t => t.cb = { s.cb with saved := s.cbHead, savedFf := c }
          ∧ t.caskList 0x81000 12 = leBytes 4 0xCE110001 ++ leBytes 4 s.cbHead ++ leBytes 4 c ∧ t.mem = s.mem)))
  ∧ (∀ s, (s.mgt.startSet = none ∨ (s.mgtRuns = false ∧ s.mgt.startSet ≠ none) → Idle .startSetApply s)
      ∧ (∀ ofs i, s.mgt.startSet = some (ofs, i) → s.mgtRuns = true →
          let base := s.bootBank * bankSize + ofs
          let h := s.flashList base 16
          (s.startSetComp = none → Done .startSetApply s (fun s t => t = { s with mgt := { s.mgt with startSet := none } }))
          ∧ (∀ c, s.startSetComp = some c → c.1 + c.2 ≤ ofs → Done .startSetApply s (fun s t => t = { s with mgt := { s.mgt with startSet := none } }))
          ∧ (∀ c, s.startSetComp = some c → ofs < c.1 + c.2 → (leAt h 2 2 ≠ 0 ∨ leAt h 12 4 ≠ 0 ∨ c.1 + c.2 < ofs + 16 + leAt h 8 4) →
              Done .startSetApply s (fun _ t => Holds t [(fMGT_STAT_SET_FAIL, 1)] ∧ t.mgt.startSet = none))
          ∧ (∀ c row, s.startSetComp = some c → leAt h 0 1 = 3 → leAt h 2 2 = 0 → leAt h 12 4 = 0 → leAt h 8 4 = 8 → ofs + 24 ≤ c.1 + c.2 →
              let d := s.flashList (base + 16) 8
              leAt d 0 4 ∈ plainRegs → s.regGate mMgt (leAt d 0 4) (leAt d 4 4) = none → s.rackHeld + 50 ≤ 262144 → regRow? (leAt d 0 4) = some row →
              (∀ f ∈ row.fields, f.takes (bitsOf (leAt d 4 4) f.hi f.lo) = true) → Done .startSetApply s (fun _ t =>
                (∀ f ∈ row.fields, f.acc = .rw → bitsOf (t.reg (leAt d 0 4)).toNat f.hi f.lo = bitsOf (leAt d 4 4) f.hi f.lo)
                ∧ t.mgt.startSet = some (ofs + 24, i + 1)))))
end

