-- ==== Sys2Proof/Laws/State.lean ====
section
/-! SUPPORT. What each basic update of the state gives for each field: one lemma per field and update. -/

namespace Sys2Proof.Machine

/-! ### setReg -/

@[simp] theorem State.setReg_pending (s : State) (o : Nat) (v : Word) : (s.setReg o v).pending = s.pending := rfl
@[simp] theorem State.setReg_out (s : State) (o : Nat) (v : Word) : (s.setReg o v).out = s.out := rfl
@[simp] theorem State.setReg_free (s : State) (o : Nat) (v : Word) : (s.setReg o v).free = s.free := rfl
@[simp] theorem State.setReg_fuses (s : State) (o : Nat) (v : Word) : (s.setReg o v).fuses = s.fuses := rfl
@[simp] theorem State.setReg_regs (s : State) (o : Nat) (v : Word) : (s.setReg o v).regs = SMap.put regReset o v s.regs := rfl
@[simp] theorem State.setReg_latHi (s : State) (o : Nat) (v : Word) : (s.setReg o v).latHi = s.latHi := rfl
@[simp] theorem State.setReg_heldLo (s : State) (o : Nat) (v : Word) : (s.setReg o v).heldLo = s.heldLo := rfl
@[simp] theorem State.setReg_fnRegs (s : State) (o : Nat) (v : Word) : (s.setReg o v).fnRegs = s.fnRegs := rfl
@[simp] theorem State.setReg_spareNow (s : State) (o : Nat) (v : Word) : (s.setReg o v).spareNow = s.spareNow := rfl
@[simp] theorem State.setReg_mem (s : State) (o : Nat) (v : Word) : (s.setReg o v).mem = s.mem := rfl
@[simp] theorem State.setReg_ecc (s : State) (o : Nat) (v : Word) : (s.setReg o v).ecc = s.ecc := rfl
@[simp] theorem State.setReg_lt (s : State) (o : Nat) (v : Word) : (s.setReg o v).lt = s.lt := rfl
@[simp] theorem State.setReg_ltFrac (s : State) (o : Nat) (v : Word) : (s.setReg o v).ltFrac = s.ltFrac := rfl
@[simp] theorem State.setReg_cycle (s : State) (o : Nat) (v : Word) : (s.setReg o v).cycle = s.cycle := rfl
@[simp] theorem State.setReg_tn (s : State) (o : Nat) (v : Word) : (s.setReg o v).tn = s.tn := rfl
@[simp] theorem State.setReg_started (s : State) (o : Nat) (v : Word) : (s.setReg o v).started = s.started := rfl
@[simp] theorem State.setReg_applyOfs (s : State) (o : Nat) (v : Word) : (s.setReg o v).applyOfs = s.applyOfs := rfl
@[simp] theorem State.setReg_modeReqPend (s : State) (o : Nat) (v : Word) : (s.setReg o v).modeReqPend = s.modeReqPend := rfl
@[simp] theorem State.setReg_rows (s : State) (o : Nat) (v : Word) : (s.setReg o v).rows = s.rows := rfl
@[simp] theorem State.setReg_parts (s : State) (o : Nat) (v : Word) : (s.setReg o v).parts = s.parts := rfl
@[simp] theorem State.setReg_frames (s : State) (o : Nat) (v : Word) : (s.setReg o v).frames = s.frames := rfl
@[simp] theorem State.setReg_ctxs (s : State) (o : Nat) (v : Word) : (s.setReg o v).ctxs = s.ctxs := rfl
@[simp] theorem State.setReg_inflight (s : State) (o : Nat) (v : Word) : (s.setReg o v).inflight = s.inflight := rfl
@[simp] theorem State.setReg_tagEpochs (s : State) (o : Nat) (v : Word) : (s.setReg o v).tagEpochs = s.tagEpochs := rfl
@[simp] theorem State.setReg_scalarCmds (s : State) (o : Nat) (v : Word) : (s.setReg o v).scalarCmds = s.scalarCmds := rfl
@[simp] theorem State.setReg_triggers (s : State) (o : Nat) (v : Word) : (s.setReg o v).triggers = s.triggers := rfl
@[simp] theorem State.setReg_rfxMet (s : State) (o : Nat) (v : Word) : (s.setReg o v).rfxMet = s.rfxMet := rfl
@[simp] theorem State.setReg_heldGrants (s : State) (o : Nat) (v : Word) : (s.setReg o v).heldGrants = s.heldGrants := rfl
@[simp] theorem State.setReg_evLatch (s : State) (o : Nat) (v : Word) : (s.setReg o v).evLatch = s.evLatch := rfl
@[simp] theorem State.setReg_msix (s : State) (o : Nat) (v : Word) : (s.setReg o v).msix = s.msix := rfl
@[simp] theorem State.setReg_msixEn (s : State) (o : Nat) (v : Word) : (s.setReg o v).msixEn = s.msixEn := rfl
@[simp] theorem State.setReg_msixFmask (s : State) (o : Nat) (v : Word) : (s.setReg o v).msixFmask = s.msixFmask := rfl
@[simp] theorem State.setReg_vfs (s : State) (o : Nat) (v : Word) : (s.setReg o v).vfs = s.vfs := rfl
@[simp] theorem State.setReg_hq (s : State) (o : Nat) (v : Word) : (s.setReg o v).hq = s.hq := rfl
@[simp] theorem State.setReg_snaps (s : State) (o : Nat) (v : Word) : (s.setReg o v).snaps = s.snaps := rfl
@[simp] theorem State.setReg_noticePend (s : State) (o : Nat) (v : Word) : (s.setReg o v).noticePend = s.noticePend := rfl
@[simp] theorem State.setReg_almSeen (s : State) (o : Nat) (v : Word) : (s.setReg o v).almSeen = s.almSeen := rfl
@[simp] theorem State.setReg_almIssued (s : State) (o : Nat) (v : Word) : (s.setReg o v).almIssued = s.almIssued := rfl
@[simp] theorem State.setReg_undone (s : State) (o : Nat) (v : Word) : (s.setReg o v).undone = s.undone := rfl
@[simp] theorem State.setReg_chx (s : State) (o : Nat) (v : Word) : (s.setReg o v).chx = s.chx := rfl
@[simp] theorem State.setReg_ledgQ (s : State) (o : Nat) (v : Word) : (s.setReg o v).ledgQ = s.ledgQ := rfl
@[simp] theorem State.setReg_ledgBuses (s : State) (o : Nat) (v : Word) : (s.setReg o v).ledgBuses = s.ledgBuses := rfl
@[simp] theorem State.setReg_rowMeas (s : State) (o : Nat) (v : Word) : (s.setReg o v).rowMeas = s.rowMeas := rfl
@[simp] theorem State.setReg_losses (s : State) (o : Nat) (v : Word) : (s.setReg o v).losses = s.losses := rfl
@[simp] theorem State.setReg_staged (s : State) (o : Nat) (v : Word) : (s.setReg o v).staged = s.staged := rfl
@[simp] theorem State.setReg_stepMap (s : State) (o : Nat) (v : Word) : (s.setReg o v).stepMap = s.stepMap := rfl
@[simp] theorem State.setReg_coefMap (s : State) (o : Nat) (v : Word) : (s.setReg o v).coefMap = s.coefMap := rfl
@[simp] theorem State.setReg_nowParts (s : State) (o : Nat) (v : Word) : (s.setReg o v).nowParts = s.nowParts := rfl
@[simp] theorem State.setReg_tastePlan (s : State) (o : Nat) (v : Word) : (s.setReg o v).tastePlan = s.tastePlan := rfl
@[simp] theorem State.setReg_tastes (s : State) (o : Nat) (v : Word) : (s.setReg o v).tastes = s.tastes := rfl
@[simp] theorem State.setReg_descOld (s : State) (o : Nat) (v : Word) : (s.setReg o v).descOld = s.descOld := rfl
@[simp] theorem State.setReg_planOld (s : State) (o : Nat) (v : Word) : (s.setReg o v).planOld = s.planOld := rfl
@[simp] theorem State.setReg_descPrev (s : State) (o : Nat) (v : Word) : (s.setReg o v).descPrev = s.descPrev := rfl
@[simp] theorem State.setReg_restored (s : State) (o : Nat) (v : Word) : (s.setReg o v).restored = s.restored := rfl
@[simp] theorem State.setReg_estWait (s : State) (o : Nat) (v : Word) : (s.setReg o v).estWait = s.estWait := rfl
@[simp] theorem State.setReg_copyWait (s : State) (o : Nat) (v : Word) : (s.setReg o v).copyWait = s.copyWait := rfl
@[simp] theorem State.setReg_calSince (s : State) (o : Nat) (v : Word) : (s.setReg o v).calSince = s.calSince := rfl
@[simp] theorem State.setReg_calRows (s : State) (o : Nat) (v : Word) : (s.setReg o v).calRows = s.calRows := rfl
@[simp] theorem State.setReg_calBad (s : State) (o : Nat) (v : Word) : (s.setReg o v).calBad = s.calBad := rfl
@[simp] theorem State.setReg_calStaged (s : State) (o : Nat) (v : Word) : (s.setReg o v).calStaged = s.calStaged := rfl
@[simp] theorem State.setReg_calHost (s : State) (o : Nat) (v : Word) : (s.setReg o v).calHost = s.calHost := rfl
@[simp] theorem State.setReg_calLast (s : State) (o : Nat) (v : Word) : (s.setReg o v).calLast = s.calLast := rfl
@[simp] theorem State.setReg_ports (s : State) (o : Nat) (v : Word) : (s.setReg o v).ports = s.ports := rfl
@[simp] theorem State.setReg_poss (s : State) (o : Nat) (v : Word) : (s.setReg o v).poss = s.poss := rfl
@[simp] theorem State.setReg_rackSeq (s : State) (o : Nat) (v : Word) : (s.setReg o v).rackSeq = s.rackSeq := rfl
@[simp] theorem State.setReg_rackApplied (s : State) (o : Nat) (v : Word) : (s.setReg o v).rackApplied = s.rackApplied := rfl
@[simp] theorem State.setReg_rackUnacked (s : State) (o : Nat) (v : Word) : (s.setReg o v).rackUnacked = s.rackUnacked := rfl
@[simp] theorem State.setReg_rackProgress (s : State) (o : Nat) (v : Word) : (s.setReg o v).rackProgress = s.rackProgress := rfl
@[simp] theorem State.setReg_rackSent (s : State) (o : Nat) (v : Word) : (s.setReg o v).rackSent = s.rackSent := rfl
@[simp] theorem State.setReg_rack (s : State) (o : Nat) (v : Word) : (s.setReg o v).rack = s.rack := rfl
@[simp] theorem State.setReg_cellarQ (s : State) (o : Nat) (v : Word) : (s.setReg o v).cellarQ = s.cellarQ := rfl
@[simp] theorem State.setReg_wall (s : State) (o : Nat) (v : Word) : (s.setReg o v).wall = s.wall := rfl
@[simp] theorem State.setReg_ptp (s : State) (o : Nat) (v : Word) : (s.setReg o v).ptp = s.ptp := rfl
@[simp] theorem State.setReg_rtcFired (s : State) (o : Nat) (v : Word) : (s.setReg o v).rtcFired = s.rtcFired := rfl
@[simp] theorem State.setReg_opt (s : State) (o : Nat) (v : Word) : (s.setReg o v).opt = s.opt := rfl
@[simp] theorem State.setReg_flushFor (s : State) (o : Nat) (v : Word) : (s.setReg o v).flushFor = s.flushFor := rfl
@[simp] theorem State.setReg_startOk (s : State) (o : Nat) (v : Word) : (s.setReg o v).startOk = s.startOk := rfl
@[simp] theorem State.setReg_wdtStart (s : State) (o : Nat) (v : Word) : (s.setReg o v).wdtStart = s.wdtStart := rfl
@[simp] theorem State.setReg_pins (s : State) (o : Nat) (v : Word) : (s.setReg o v).pins = s.pins := rfl
@[simp] theorem State.setReg_cask (s : State) (o : Nat) (v : Word) : (s.setReg o v).cask = s.cask := rfl
@[simp] theorem State.setReg_flash (s : State) (o : Nat) (v : Word) : (s.setReg o v).flash = s.flash := rfl
@[simp] theorem State.setReg_scrubDue (s : State) (o : Nat) (v : Word) : (s.setReg o v).scrubDue = s.scrubDue := rfl
@[simp] theorem State.setReg_recReq (s : State) (o : Nat) (v : Word) : (s.setReg o v).recReq = s.recReq := rfl
@[simp] theorem State.setReg_cb (s : State) (o : Nat) (v : Word) : (s.setReg o v).cb = s.cb := rfl
@[simp] theorem State.setReg_mgt (s : State) (o : Nat) (v : Word) : (s.setReg o v).mgt = s.mgt := rfl
@[simp] theorem State.setReg_flush (s : State) (o : Nat) (v : Word) : (s.setReg o v).flush = s.flush := rfl
@[simp] theorem State.setReg_ck (s : State) (o : Nat) (v : Word) : (s.setReg o v).ck = s.ck := rfl
@[simp] theorem State.setReg_eng (s : State) (o : Nat) (v : Word) : (s.setReg o v).eng = s.eng := rfl
@[simp] theorem State.setReg_can (s : State) (o : Nat) (v : Word) : (s.setReg o v).can = s.can := rfl
@[simp] theorem State.setReg_lio (s : State) (o : Nat) (v : Word) : (s.setReg o v).lio = s.lio := rfl
@[simp] theorem State.setReg_lioF (s : State) (o : Nat) (v : Word) : (s.setReg o v).lioF = s.lioF := rfl
@[simp] theorem State.setReg_panel (s : State) (o : Nat) (v : Word) : (s.setReg o v).panel = s.panel := rfl
@[simp] theorem State.setReg_busyAcc (s : State) (o : Nat) (v : Word) : (s.setReg o v).busyAcc = s.busyAcc := rfl
@[simp] theorem State.setReg_linesAcc (s : State) (o : Nat) (v : Word) : (s.setReg o v).linesAcc = s.linesAcc := rfl

/-! ### fset -/

@[simp] theorem State.fset_pending (s : State) (f : Fld) (v : Nat) : (s.fset f v).pending = s.pending := rfl
@[simp] theorem State.fset_out (s : State) (f : Fld) (v : Nat) : (s.fset f v).out = s.out := rfl
@[simp] theorem State.fset_free (s : State) (f : Fld) (v : Nat) : (s.fset f v).free = s.free := rfl
@[simp] theorem State.fset_fuses (s : State) (f : Fld) (v : Nat) : (s.fset f v).fuses = s.fuses := rfl
@[simp] theorem State.fset_regs (s : State) (f : Fld) (v : Nat) : (s.fset f v).regs = SMap.put regReset f.off (BitVec.ofNat 32 (setBits (s.reg f.off).toNat f.hi f.lo v)) s.regs := rfl
@[simp] theorem State.fset_latHi (s : State) (f : Fld) (v : Nat) : (s.fset f v).latHi = s.latHi := rfl
@[simp] theorem State.fset_heldLo (s : State) (f : Fld) (v : Nat) : (s.fset f v).heldLo = s.heldLo := rfl
@[simp] theorem State.fset_fnRegs (s : State) (f : Fld) (v : Nat) : (s.fset f v).fnRegs = s.fnRegs := rfl
@[simp] theorem State.fset_spareNow (s : State) (f : Fld) (v : Nat) : (s.fset f v).spareNow = s.spareNow := rfl
@[simp] theorem State.fset_mem (s : State) (f : Fld) (v : Nat) : (s.fset f v).mem = s.mem := rfl
@[simp] theorem State.fset_ecc (s : State) (f : Fld) (v : Nat) : (s.fset f v).ecc = s.ecc := rfl
@[simp] theorem State.fset_lt (s : State) (f : Fld) (v : Nat) : (s.fset f v).lt = s.lt := rfl
@[simp] theorem State.fset_ltFrac (s : State) (f : Fld) (v : Nat) : (s.fset f v).ltFrac = s.ltFrac := rfl
@[simp] theorem State.fset_cycle (s : State) (f : Fld) (v : Nat) : (s.fset f v).cycle = s.cycle := rfl
@[simp] theorem State.fset_tn (s : State) (f : Fld) (v : Nat) : (s.fset f v).tn = s.tn := rfl
@[simp] theorem State.fset_started (s : State) (f : Fld) (v : Nat) : (s.fset f v).started = s.started := rfl
@[simp] theorem State.fset_applyOfs (s : State) (f : Fld) (v : Nat) : (s.fset f v).applyOfs = s.applyOfs := rfl
@[simp] theorem State.fset_modeReqPend (s : State) (f : Fld) (v : Nat) : (s.fset f v).modeReqPend = s.modeReqPend := rfl
@[simp] theorem State.fset_rows (s : State) (f : Fld) (v : Nat) : (s.fset f v).rows = s.rows := rfl
@[simp] theorem State.fset_parts (s : State) (f : Fld) (v : Nat) : (s.fset f v).parts = s.parts := rfl
@[simp] theorem State.fset_frames (s : State) (f : Fld) (v : Nat) : (s.fset f v).frames = s.frames := rfl
@[simp] theorem State.fset_ctxs (s : State) (f : Fld) (v : Nat) : (s.fset f v).ctxs = s.ctxs := rfl
@[simp] theorem State.fset_inflight (s : State) (f : Fld) (v : Nat) : (s.fset f v).inflight = s.inflight := rfl
@[simp] theorem State.fset_tagEpochs (s : State) (f : Fld) (v : Nat) : (s.fset f v).tagEpochs = s.tagEpochs := rfl
@[simp] theorem State.fset_scalarCmds (s : State) (f : Fld) (v : Nat) : (s.fset f v).scalarCmds = s.scalarCmds := rfl
@[simp] theorem State.fset_triggers (s : State) (f : Fld) (v : Nat) : (s.fset f v).triggers = s.triggers := rfl
@[simp] theorem State.fset_rfxMet (s : State) (f : Fld) (v : Nat) : (s.fset f v).rfxMet = s.rfxMet := rfl
@[simp] theorem State.fset_heldGrants (s : State) (f : Fld) (v : Nat) : (s.fset f v).heldGrants = s.heldGrants := rfl
@[simp] theorem State.fset_evLatch (s : State) (f : Fld) (v : Nat) : (s.fset f v).evLatch = s.evLatch := rfl
@[simp] theorem State.fset_msix (s : State) (f : Fld) (v : Nat) : (s.fset f v).msix = s.msix := rfl
@[simp] theorem State.fset_msixEn (s : State) (f : Fld) (v : Nat) : (s.fset f v).msixEn = s.msixEn := rfl
@[simp] theorem State.fset_msixFmask (s : State) (f : Fld) (v : Nat) : (s.fset f v).msixFmask = s.msixFmask := rfl
@[simp] theorem State.fset_vfs (s : State) (f : Fld) (v : Nat) : (s.fset f v).vfs = s.vfs := rfl
@[simp] theorem State.fset_hq (s : State) (f : Fld) (v : Nat) : (s.fset f v).hq = s.hq := rfl
@[simp] theorem State.fset_snaps (s : State) (f : Fld) (v : Nat) : (s.fset f v).snaps = s.snaps := rfl
@[simp] theorem State.fset_noticePend (s : State) (f : Fld) (v : Nat) : (s.fset f v).noticePend = s.noticePend := rfl
@[simp] theorem State.fset_almSeen (s : State) (f : Fld) (v : Nat) : (s.fset f v).almSeen = s.almSeen := rfl
@[simp] theorem State.fset_almIssued (s : State) (f : Fld) (v : Nat) : (s.fset f v).almIssued = s.almIssued := rfl
@[simp] theorem State.fset_undone (s : State) (f : Fld) (v : Nat) : (s.fset f v).undone = s.undone := rfl
@[simp] theorem State.fset_chx (s : State) (f : Fld) (v : Nat) : (s.fset f v).chx = s.chx := rfl
@[simp] theorem State.fset_ledgQ (s : State) (f : Fld) (v : Nat) : (s.fset f v).ledgQ = s.ledgQ := rfl
@[simp] theorem State.fset_ledgBuses (s : State) (f : Fld) (v : Nat) : (s.fset f v).ledgBuses = s.ledgBuses := rfl
@[simp] theorem State.fset_rowMeas (s : State) (f : Fld) (v : Nat) : (s.fset f v).rowMeas = s.rowMeas := rfl
@[simp] theorem State.fset_losses (s : State) (f : Fld) (v : Nat) : (s.fset f v).losses = s.losses := rfl
@[simp] theorem State.fset_staged (s : State) (f : Fld) (v : Nat) : (s.fset f v).staged = s.staged := rfl
@[simp] theorem State.fset_stepMap (s : State) (f : Fld) (v : Nat) : (s.fset f v).stepMap = s.stepMap := rfl
@[simp] theorem State.fset_coefMap (s : State) (f : Fld) (v : Nat) : (s.fset f v).coefMap = s.coefMap := rfl
@[simp] theorem State.fset_nowParts (s : State) (f : Fld) (v : Nat) : (s.fset f v).nowParts = s.nowParts := rfl
@[simp] theorem State.fset_tastePlan (s : State) (f : Fld) (v : Nat) : (s.fset f v).tastePlan = s.tastePlan := rfl
@[simp] theorem State.fset_tastes (s : State) (f : Fld) (v : Nat) : (s.fset f v).tastes = s.tastes := rfl
@[simp] theorem State.fset_descOld (s : State) (f : Fld) (v : Nat) : (s.fset f v).descOld = s.descOld := rfl
@[simp] theorem State.fset_planOld (s : State) (f : Fld) (v : Nat) : (s.fset f v).planOld = s.planOld := rfl
@[simp] theorem State.fset_descPrev (s : State) (f : Fld) (v : Nat) : (s.fset f v).descPrev = s.descPrev := rfl
@[simp] theorem State.fset_restored (s : State) (f : Fld) (v : Nat) : (s.fset f v).restored = s.restored := rfl
@[simp] theorem State.fset_estWait (s : State) (f : Fld) (v : Nat) : (s.fset f v).estWait = s.estWait := rfl
@[simp] theorem State.fset_copyWait (s : State) (f : Fld) (v : Nat) : (s.fset f v).copyWait = s.copyWait := rfl
@[simp] theorem State.fset_calSince (s : State) (f : Fld) (v : Nat) : (s.fset f v).calSince = s.calSince := rfl
@[simp] theorem State.fset_calRows (s : State) (f : Fld) (v : Nat) : (s.fset f v).calRows = s.calRows := rfl
@[simp] theorem State.fset_calBad (s : State) (f : Fld) (v : Nat) : (s.fset f v).calBad = s.calBad := rfl
@[simp] theorem State.fset_calStaged (s : State) (f : Fld) (v : Nat) : (s.fset f v).calStaged = s.calStaged := rfl
@[simp] theorem State.fset_calHost (s : State) (f : Fld) (v : Nat) : (s.fset f v).calHost = s.calHost := rfl
@[simp] theorem State.fset_calLast (s : State) (f : Fld) (v : Nat) : (s.fset f v).calLast = s.calLast := rfl
@[simp] theorem State.fset_ports (s : State) (f : Fld) (v : Nat) : (s.fset f v).ports = s.ports := rfl
@[simp] theorem State.fset_poss (s : State) (f : Fld) (v : Nat) : (s.fset f v).poss = s.poss := rfl
@[simp] theorem State.fset_rackSeq (s : State) (f : Fld) (v : Nat) : (s.fset f v).rackSeq = s.rackSeq := rfl
@[simp] theorem State.fset_rackApplied (s : State) (f : Fld) (v : Nat) : (s.fset f v).rackApplied = s.rackApplied := rfl
@[simp] theorem State.fset_rackUnacked (s : State) (f : Fld) (v : Nat) : (s.fset f v).rackUnacked = s.rackUnacked := rfl
@[simp] theorem State.fset_rackProgress (s : State) (f : Fld) (v : Nat) : (s.fset f v).rackProgress = s.rackProgress := rfl
@[simp] theorem State.fset_rackSent (s : State) (f : Fld) (v : Nat) : (s.fset f v).rackSent = s.rackSent := rfl
@[simp] theorem State.fset_rack (s : State) (f : Fld) (v : Nat) : (s.fset f v).rack = s.rack := rfl
@[simp] theorem State.fset_cellarQ (s : State) (f : Fld) (v : Nat) : (s.fset f v).cellarQ = s.cellarQ := rfl
@[simp] theorem State.fset_wall (s : State) (f : Fld) (v : Nat) : (s.fset f v).wall = s.wall := rfl
@[simp] theorem State.fset_ptp (s : State) (f : Fld) (v : Nat) : (s.fset f v).ptp = s.ptp := rfl
@[simp] theorem State.fset_rtcFired (s : State) (f : Fld) (v : Nat) : (s.fset f v).rtcFired = s.rtcFired := rfl
@[simp] theorem State.fset_opt (s : State) (f : Fld) (v : Nat) : (s.fset f v).opt = s.opt := rfl
@[simp] theorem State.fset_flushFor (s : State) (f : Fld) (v : Nat) : (s.fset f v).flushFor = s.flushFor := rfl
@[simp] theorem State.fset_startOk (s : State) (f : Fld) (v : Nat) : (s.fset f v).startOk = s.startOk := rfl
@[simp] theorem State.fset_wdtStart (s : State) (f : Fld) (v : Nat) : (s.fset f v).wdtStart = s.wdtStart := rfl
@[simp] theorem State.fset_pins (s : State) (f : Fld) (v : Nat) : (s.fset f v).pins = s.pins := rfl
@[simp] theorem State.fset_cask (s : State) (f : Fld) (v : Nat) : (s.fset f v).cask = s.cask := rfl
@[simp] theorem State.fset_flash (s : State) (f : Fld) (v : Nat) : (s.fset f v).flash = s.flash := rfl
@[simp] theorem State.fset_scrubDue (s : State) (f : Fld) (v : Nat) : (s.fset f v).scrubDue = s.scrubDue := rfl
@[simp] theorem State.fset_recReq (s : State) (f : Fld) (v : Nat) : (s.fset f v).recReq = s.recReq := rfl
@[simp] theorem State.fset_cb (s : State) (f : Fld) (v : Nat) : (s.fset f v).cb = s.cb := rfl
@[simp] theorem State.fset_mgt (s : State) (f : Fld) (v : Nat) : (s.fset f v).mgt = s.mgt := rfl
@[simp] theorem State.fset_flush (s : State) (f : Fld) (v : Nat) : (s.fset f v).flush = s.flush := rfl
@[simp] theorem State.fset_ck (s : State) (f : Fld) (v : Nat) : (s.fset f v).ck = s.ck := rfl
@[simp] theorem State.fset_eng (s : State) (f : Fld) (v : Nat) : (s.fset f v).eng = s.eng := rfl
@[simp] theorem State.fset_can (s : State) (f : Fld) (v : Nat) : (s.fset f v).can = s.can := rfl
@[simp] theorem State.fset_lio (s : State) (f : Fld) (v : Nat) : (s.fset f v).lio = s.lio := rfl
@[simp] theorem State.fset_lioF (s : State) (f : Fld) (v : Nat) : (s.fset f v).lioF = s.lioF := rfl
@[simp] theorem State.fset_panel (s : State) (f : Fld) (v : Nat) : (s.fset f v).panel = s.panel := rfl
@[simp] theorem State.fset_busyAcc (s : State) (f : Fld) (v : Nat) : (s.fset f v).busyAcc = s.busyAcc := rfl
@[simp] theorem State.fset_linesAcc (s : State) (f : Fld) (v : Nat) : (s.fset f v).linesAcc = s.linesAcc := rfl

/-! ### wrB -/

@[simp] theorem State.wrB_pending (s : State) (a : Nat) (b : Byte) : (s.wrB a b).pending = s.pending := rfl
@[simp] theorem State.wrB_out (s : State) (a : Nat) (b : Byte) : (s.wrB a b).out = s.out := rfl
@[simp] theorem State.wrB_free (s : State) (a : Nat) (b : Byte) : (s.wrB a b).free = s.free := rfl
@[simp] theorem State.wrB_fuses (s : State) (a : Nat) (b : Byte) : (s.wrB a b).fuses = s.fuses := rfl
@[simp] theorem State.wrB_regs (s : State) (a : Nat) (b : Byte) : (s.wrB a b).regs = s.regs := rfl
@[simp] theorem State.wrB_latHi (s : State) (a : Nat) (b : Byte) : (s.wrB a b).latHi = s.latHi := rfl
@[simp] theorem State.wrB_heldLo (s : State) (a : Nat) (b : Byte) : (s.wrB a b).heldLo = s.heldLo := rfl
@[simp] theorem State.wrB_fnRegs (s : State) (a : Nat) (b : Byte) : (s.wrB a b).fnRegs = s.fnRegs := rfl
@[simp] theorem State.wrB_spareNow (s : State) (a : Nat) (b : Byte) : (s.wrB a b).spareNow = s.spareNow := rfl
@[simp] theorem State.wrB_mem (s : State) (a : Nat) (b : Byte) : (s.wrB a b).mem = SMap.put store0 a b s.mem := rfl
@[simp] theorem State.wrB_ecc (s : State) (a : Nat) (b : Byte) : (s.wrB a b).ecc = s.ecc := rfl
@[simp] theorem State.wrB_lt (s : State) (a : Nat) (b : Byte) : (s.wrB a b).lt = s.lt := rfl
@[simp] theorem State.wrB_ltFrac (s : State) (a : Nat) (b : Byte) : (s.wrB a b).ltFrac = s.ltFrac := rfl
@[simp] theorem State.wrB_cycle (s : State) (a : Nat) (b : Byte) : (s.wrB a b).cycle = s.cycle := rfl
@[simp] theorem State.wrB_tn (s : State) (a : Nat) (b : Byte) : (s.wrB a b).tn = s.tn := rfl
@[simp] theorem State.wrB_started (s : State) (a : Nat) (b : Byte) : (s.wrB a b).started = s.started := rfl
@[simp] theorem State.wrB_applyOfs (s : State) (a : Nat) (b : Byte) : (s.wrB a b).applyOfs = s.applyOfs := rfl
@[simp] theorem State.wrB_modeReqPend (s : State) (a : Nat) (b : Byte) : (s.wrB a b).modeReqPend = s.modeReqPend := rfl
@[simp] theorem State.wrB_rows (s : State) (a : Nat) (b : Byte) : (s.wrB a b).rows = s.rows := rfl
@[simp] theorem State.wrB_parts (s : State) (a : Nat) (b : Byte) : (s.wrB a b).parts = s.parts := rfl
@[simp] theorem State.wrB_frames (s : State) (a : Nat) (b : Byte) : (s.wrB a b).frames = s.frames := rfl
@[simp] theorem State.wrB_ctxs (s : State) (a : Nat) (b : Byte) : (s.wrB a b).ctxs = s.ctxs := rfl
@[simp] theorem State.wrB_inflight (s : State) (a : Nat) (b : Byte) : (s.wrB a b).inflight = s.inflight := rfl
@[simp] theorem State.wrB_tagEpochs (s : State) (a : Nat) (b : Byte) : (s.wrB a b).tagEpochs = s.tagEpochs := rfl
@[simp] theorem State.wrB_scalarCmds (s : State) (a : Nat) (b : Byte) : (s.wrB a b).scalarCmds = s.scalarCmds := rfl
@[simp] theorem State.wrB_triggers (s : State) (a : Nat) (b : Byte) : (s.wrB a b).triggers = s.triggers := rfl
@[simp] theorem State.wrB_rfxMet (s : State) (a : Nat) (b : Byte) : (s.wrB a b).rfxMet = s.rfxMet := rfl
@[simp] theorem State.wrB_heldGrants (s : State) (a : Nat) (b : Byte) : (s.wrB a b).heldGrants = s.heldGrants := rfl
@[simp] theorem State.wrB_evLatch (s : State) (a : Nat) (b : Byte) : (s.wrB a b).evLatch = s.evLatch := rfl
@[simp] theorem State.wrB_msix (s : State) (a : Nat) (b : Byte) : (s.wrB a b).msix = s.msix := rfl
@[simp] theorem State.wrB_msixEn (s : State) (a : Nat) (b : Byte) : (s.wrB a b).msixEn = s.msixEn := rfl
@[simp] theorem State.wrB_msixFmask (s : State) (a : Nat) (b : Byte) : (s.wrB a b).msixFmask = s.msixFmask := rfl
@[simp] theorem State.wrB_vfs (s : State) (a : Nat) (b : Byte) : (s.wrB a b).vfs = s.vfs := rfl
@[simp] theorem State.wrB_hq (s : State) (a : Nat) (b : Byte) : (s.wrB a b).hq = s.hq := rfl
@[simp] theorem State.wrB_snaps (s : State) (a : Nat) (b : Byte) : (s.wrB a b).snaps = s.snaps := rfl
@[simp] theorem State.wrB_noticePend (s : State) (a : Nat) (b : Byte) : (s.wrB a b).noticePend = s.noticePend := rfl
@[simp] theorem State.wrB_almSeen (s : State) (a : Nat) (b : Byte) : (s.wrB a b).almSeen = s.almSeen := rfl
@[simp] theorem State.wrB_almIssued (s : State) (a : Nat) (b : Byte) : (s.wrB a b).almIssued = s.almIssued := rfl
@[simp] theorem State.wrB_undone (s : State) (a : Nat) (b : Byte) : (s.wrB a b).undone = s.undone := rfl
@[simp] theorem State.wrB_chx (s : State) (a : Nat) (b : Byte) : (s.wrB a b).chx = s.chx := rfl
@[simp] theorem State.wrB_ledgQ (s : State) (a : Nat) (b : Byte) : (s.wrB a b).ledgQ = s.ledgQ := rfl
@[simp] theorem State.wrB_ledgBuses (s : State) (a : Nat) (b : Byte) : (s.wrB a b).ledgBuses = s.ledgBuses := rfl
@[simp] theorem State.wrB_rowMeas (s : State) (a : Nat) (b : Byte) : (s.wrB a b).rowMeas = s.rowMeas := rfl
@[simp] theorem State.wrB_losses (s : State) (a : Nat) (b : Byte) : (s.wrB a b).losses = s.losses := rfl
@[simp] theorem State.wrB_staged (s : State) (a : Nat) (b : Byte) : (s.wrB a b).staged = s.staged := rfl
@[simp] theorem State.wrB_stepMap (s : State) (a : Nat) (b : Byte) : (s.wrB a b).stepMap = s.stepMap := rfl
@[simp] theorem State.wrB_coefMap (s : State) (a : Nat) (b : Byte) : (s.wrB a b).coefMap = s.coefMap := rfl
@[simp] theorem State.wrB_nowParts (s : State) (a : Nat) (b : Byte) : (s.wrB a b).nowParts = s.nowParts := rfl
@[simp] theorem State.wrB_tastePlan (s : State) (a : Nat) (b : Byte) : (s.wrB a b).tastePlan = s.tastePlan := rfl
@[simp] theorem State.wrB_tastes (s : State) (a : Nat) (b : Byte) : (s.wrB a b).tastes = s.tastes := rfl
@[simp] theorem State.wrB_descOld (s : State) (a : Nat) (b : Byte) : (s.wrB a b).descOld = s.descOld := rfl
@[simp] theorem State.wrB_planOld (s : State) (a : Nat) (b : Byte) : (s.wrB a b).planOld = s.planOld := rfl
@[simp] theorem State.wrB_descPrev (s : State) (a : Nat) (b : Byte) : (s.wrB a b).descPrev = s.descPrev := rfl
@[simp] theorem State.wrB_restored (s : State) (a : Nat) (b : Byte) : (s.wrB a b).restored = s.restored := rfl
@[simp] theorem State.wrB_estWait (s : State) (a : Nat) (b : Byte) : (s.wrB a b).estWait = s.estWait := rfl
@[simp] theorem State.wrB_copyWait (s : State) (a : Nat) (b : Byte) : (s.wrB a b).copyWait = s.copyWait := rfl
@[simp] theorem State.wrB_calSince (s : State) (a : Nat) (b : Byte) : (s.wrB a b).calSince = s.calSince := rfl
@[simp] theorem State.wrB_calRows (s : State) (a : Nat) (b : Byte) : (s.wrB a b).calRows = s.calRows := rfl
@[simp] theorem State.wrB_calBad (s : State) (a : Nat) (b : Byte) : (s.wrB a b).calBad = s.calBad := rfl
@[simp] theorem State.wrB_calStaged (s : State) (a : Nat) (b : Byte) : (s.wrB a b).calStaged = s.calStaged := rfl
@[simp] theorem State.wrB_calHost (s : State) (a : Nat) (b : Byte) : (s.wrB a b).calHost = s.calHost := rfl
@[simp] theorem State.wrB_calLast (s : State) (a : Nat) (b : Byte) : (s.wrB a b).calLast = s.calLast := rfl
@[simp] theorem State.wrB_ports (s : State) (a : Nat) (b : Byte) : (s.wrB a b).ports = s.ports := rfl
@[simp] theorem State.wrB_poss (s : State) (a : Nat) (b : Byte) : (s.wrB a b).poss = s.poss := rfl
@[simp] theorem State.wrB_rackSeq (s : State) (a : Nat) (b : Byte) : (s.wrB a b).rackSeq = s.rackSeq := rfl
@[simp] theorem State.wrB_rackApplied (s : State) (a : Nat) (b : Byte) : (s.wrB a b).rackApplied = s.rackApplied := rfl
@[simp] theorem State.wrB_rackUnacked (s : State) (a : Nat) (b : Byte) : (s.wrB a b).rackUnacked = s.rackUnacked := rfl
@[simp] theorem State.wrB_rackProgress (s : State) (a : Nat) (b : Byte) : (s.wrB a b).rackProgress = s.rackProgress := rfl
@[simp] theorem State.wrB_rackSent (s : State) (a : Nat) (b : Byte) : (s.wrB a b).rackSent = s.rackSent := rfl
@[simp] theorem State.wrB_rack (s : State) (a : Nat) (b : Byte) : (s.wrB a b).rack = s.rack := rfl
@[simp] theorem State.wrB_cellarQ (s : State) (a : Nat) (b : Byte) : (s.wrB a b).cellarQ = s.cellarQ := rfl
@[simp] theorem State.wrB_wall (s : State) (a : Nat) (b : Byte) : (s.wrB a b).wall = s.wall := rfl
@[simp] theorem State.wrB_ptp (s : State) (a : Nat) (b : Byte) : (s.wrB a b).ptp = s.ptp := rfl
@[simp] theorem State.wrB_rtcFired (s : State) (a : Nat) (b : Byte) : (s.wrB a b).rtcFired = s.rtcFired := rfl
@[simp] theorem State.wrB_opt (s : State) (a : Nat) (b : Byte) : (s.wrB a b).opt = s.opt := rfl
@[simp] theorem State.wrB_flushFor (s : State) (a : Nat) (b : Byte) : (s.wrB a b).flushFor = s.flushFor := rfl
@[simp] theorem State.wrB_startOk (s : State) (a : Nat) (b : Byte) : (s.wrB a b).startOk = s.startOk := rfl
@[simp] theorem State.wrB_wdtStart (s : State) (a : Nat) (b : Byte) : (s.wrB a b).wdtStart = s.wdtStart := rfl
@[simp] theorem State.wrB_pins (s : State) (a : Nat) (b : Byte) : (s.wrB a b).pins = s.pins := rfl
@[simp] theorem State.wrB_cask (s : State) (a : Nat) (b : Byte) : (s.wrB a b).cask = s.cask := rfl
@[simp] theorem State.wrB_flash (s : State) (a : Nat) (b : Byte) : (s.wrB a b).flash = s.flash := rfl
@[simp] theorem State.wrB_scrubDue (s : State) (a : Nat) (b : Byte) : (s.wrB a b).scrubDue = s.scrubDue := rfl
@[simp] theorem State.wrB_recReq (s : State) (a : Nat) (b : Byte) : (s.wrB a b).recReq = s.recReq := rfl
@[simp] theorem State.wrB_cb (s : State) (a : Nat) (b : Byte) : (s.wrB a b).cb = s.cb := rfl
@[simp] theorem State.wrB_mgt (s : State) (a : Nat) (b : Byte) : (s.wrB a b).mgt = s.mgt := rfl
@[simp] theorem State.wrB_flush (s : State) (a : Nat) (b : Byte) : (s.wrB a b).flush = s.flush := rfl
@[simp] theorem State.wrB_ck (s : State) (a : Nat) (b : Byte) : (s.wrB a b).ck = s.ck := rfl
@[simp] theorem State.wrB_eng (s : State) (a : Nat) (b : Byte) : (s.wrB a b).eng = s.eng := rfl
@[simp] theorem State.wrB_can (s : State) (a : Nat) (b : Byte) : (s.wrB a b).can = s.can := rfl
@[simp] theorem State.wrB_lio (s : State) (a : Nat) (b : Byte) : (s.wrB a b).lio = s.lio := rfl
@[simp] theorem State.wrB_lioF (s : State) (a : Nat) (b : Byte) : (s.wrB a b).lioF = s.lioF := rfl
@[simp] theorem State.wrB_panel (s : State) (a : Nat) (b : Byte) : (s.wrB a b).panel = s.panel := rfl
@[simp] theorem State.wrB_busyAcc (s : State) (a : Nat) (b : Byte) : (s.wrB a b).busyAcc = s.busyAcc := rfl
@[simp] theorem State.wrB_linesAcc (s : State) (a : Nat) (b : Byte) : (s.wrB a b).linesAcc = s.linesAcc := rfl

/-! ### setRow -/

@[simp] theorem State.setRow_pending (s : State) (r : Nat) (v : RowSt) : (s.setRow r v).pending = s.pending := by unfold State.setRow; split <;> rfl
@[simp] theorem State.setRow_out (s : State) (r : Nat) (v : RowSt) : (s.setRow r v).out = s.out := by unfold State.setRow; split <;> rfl
@[simp] theorem State.setRow_free (s : State) (r : Nat) (v : RowSt) : (s.setRow r v).free = s.free := by unfold State.setRow; split <;> rfl
@[simp] theorem State.setRow_fuses (s : State) (r : Nat) (v : RowSt) : (s.setRow r v).fuses = s.fuses := by unfold State.setRow; split <;> rfl
@[simp] theorem State.setRow_regs (s : State) (r : Nat) (v : RowSt) : (s.setRow r v).regs = s.regs := by unfold State.setRow; split <;> rfl
@[simp] theorem State.setRow_latHi (s : State) (r : Nat) (v : RowSt) : (s.setRow r v).latHi = s.latHi := by unfold State.setRow; split <;> rfl
@[simp] theorem State.setRow_heldLo (s : State) (r : Nat) (v : RowSt) : (s.setRow r v).heldLo = s.heldLo := by unfold State.setRow; split <;> rfl
@[simp] theorem State.setRow_fnRegs (s : State) (r : Nat) (v : RowSt) : (s.setRow r v).fnRegs = s.fnRegs := by unfold State.setRow; split <;> rfl
@[simp] theorem State.setRow_spareNow (s : State) (r : Nat) (v : RowSt) : (s.setRow r v).spareNow = s.spareNow := by unfold State.setRow; split <;> rfl
@[simp] theorem State.setRow_mem (s : State) (r : Nat) (v : RowSt) : (s.setRow r v).mem = s.mem := by unfold State.setRow; split <;> rfl
@[simp] theorem State.setRow_ecc (s : State) (r : Nat) (v : RowSt) : (s.setRow r v).ecc = s.ecc := by unfold State.setRow; split <;> rfl
@[simp] theorem State.setRow_lt (s : State) (r : Nat) (v : RowSt) : (s.setRow r v).lt = s.lt := by unfold State.setRow; split <;> rfl
@[simp] theorem State.setRow_ltFrac (s : State) (r : Nat) (v : RowSt) : (s.setRow r v).ltFrac = s.ltFrac := by unfold State.setRow; split <;> rfl
@[simp] theorem State.setRow_cycle (s : State) (r : Nat) (v : RowSt) : (s.setRow r v).cycle = s.cycle := by unfold State.setRow; split <;> rfl
@[simp] theorem State.setRow_tn (s : State) (r : Nat) (v : RowSt) : (s.setRow r v).tn = s.tn := by unfold State.setRow; split <;> rfl
@[simp] theorem State.setRow_started (s : State) (r : Nat) (v : RowSt) : (s.setRow r v).started = s.started := by unfold State.setRow; split <;> rfl
@[simp] theorem State.setRow_applyOfs (s : State) (r : Nat) (v : RowSt) : (s.setRow r v).applyOfs = s.applyOfs := by unfold State.setRow; split <;> rfl
@[simp] theorem State.setRow_modeReqPend (s : State) (r : Nat) (v : RowSt) : (s.setRow r v).modeReqPend = s.modeReqPend := by unfold State.setRow; split <;> rfl
@[simp] theorem State.setRow_rows (s : State) (r : Nat) (v : RowSt) : (s.setRow r v).rows = if r < 512 then SMap.put row0 r v s.rows else s.rows := by unfold State.setRow; split <;> rfl
@[simp] theorem State.setRow_parts (s : State) (r : Nat) (v : RowSt) : (s.setRow r v).parts = s.parts := by unfold State.setRow; split <;> rfl
@[simp] theorem State.setRow_frames (s : State) (r : Nat) (v : RowSt) : (s.setRow r v).frames = s.frames := by unfold State.setRow; split <;> rfl
@[simp] theorem State.setRow_ctxs (s : State) (r : Nat) (v : RowSt) : (s.setRow r v).ctxs = s.ctxs := by unfold State.setRow; split <;> rfl
@[simp] theorem State.setRow_inflight (s : State) (r : Nat) (v : RowSt) : (s.setRow r v).inflight = s.inflight := by unfold State.setRow; split <;> rfl
@[simp] theorem State.setRow_tagEpochs (s : State) (r : Nat) (v : RowSt) : (s.setRow r v).tagEpochs = s.tagEpochs := by unfold State.setRow; split <;> rfl
@[simp] theorem State.setRow_scalarCmds (s : State) (r : Nat) (v : RowSt) : (s.setRow r v).scalarCmds = s.scalarCmds := by unfold State.setRow; split <;> rfl
@[simp] theorem State.setRow_triggers (s : State) (r : Nat) (v : RowSt) : (s.setRow r v).triggers = s.triggers := by unfold State.setRow; split <;> rfl
@[simp] theorem State.setRow_rfxMet (s : State) (r : Nat) (v : RowSt) : (s.setRow r v).rfxMet = s.rfxMet := by unfold State.setRow; split <;> rfl
@[simp] theorem State.setRow_heldGrants (s : State) (r : Nat) (v : RowSt) : (s.setRow r v).heldGrants = s.heldGrants := by unfold State.setRow; split <;> rfl
@[simp] theorem State.setRow_evLatch (s : State) (r : Nat) (v : RowSt) : (s.setRow r v).evLatch = s.evLatch := by unfold State.setRow; split <;> rfl
@[simp] theorem State.setRow_msix (s : State) (r : Nat) (v : RowSt) : (s.setRow r v).msix = s.msix := by unfold State.setRow; split <;> rfl
@[simp] theorem State.setRow_msixEn (s : State) (r : Nat) (v : RowSt) : (s.setRow r v).msixEn = s.msixEn := by unfold State.setRow; split <;> rfl
@[simp] theorem State.setRow_msixFmask (s : State) (r : Nat) (v : RowSt) : (s.setRow r v).msixFmask = s.msixFmask := by unfold State.setRow; split <;> rfl
@[simp] theorem State.setRow_vfs (s : State) (r : Nat) (v : RowSt) : (s.setRow r v).vfs = s.vfs := by unfold State.setRow; split <;> rfl
@[simp] theorem State.setRow_hq (s : State) (r : Nat) (v : RowSt) : (s.setRow r v).hq = s.hq := by unfold State.setRow; split <;> rfl
@[simp] theorem State.setRow_snaps (s : State) (r : Nat) (v : RowSt) : (s.setRow r v).snaps = s.snaps := by unfold State.setRow; split <;> rfl
@[simp] theorem State.setRow_noticePend (s : State) (r : Nat) (v : RowSt) : (s.setRow r v).noticePend = s.noticePend := by unfold State.setRow; split <;> rfl
@[simp] theorem State.setRow_almSeen (s : State) (r : Nat) (v : RowSt) : (s.setRow r v).almSeen = s.almSeen := by unfold State.setRow; split <;> rfl
@[simp] theorem State.setRow_almIssued (s : State) (r : Nat) (v : RowSt) : (s.setRow r v).almIssued = s.almIssued := by unfold State.setRow; split <;> rfl
@[simp] theorem State.setRow_undone (s : State) (r : Nat) (v : RowSt) : (s.setRow r v).undone = s.undone := by unfold State.setRow; split <;> rfl
@[simp] theorem State.setRow_chx (s : State) (r : Nat) (v : RowSt) : (s.setRow r v).chx = s.chx := by unfold State.setRow; split <;> rfl
@[simp] theorem State.setRow_ledgQ (s : State) (r : Nat) (v : RowSt) : (s.setRow r v).ledgQ = s.ledgQ := by unfold State.setRow; split <;> rfl
@[simp] theorem State.setRow_ledgBuses (s : State) (r : Nat) (v : RowSt) : (s.setRow r v).ledgBuses = s.ledgBuses := by unfold State.setRow; split <;> rfl
@[simp] theorem State.setRow_rowMeas (s : State) (r : Nat) (v : RowSt) : (s.setRow r v).rowMeas = s.rowMeas := by unfold State.setRow; split <;> rfl
@[simp] theorem State.setRow_losses (s : State) (r : Nat) (v : RowSt) : (s.setRow r v).losses = s.losses := by unfold State.setRow; split <;> rfl
@[simp] theorem State.setRow_staged (s : State) (r : Nat) (v : RowSt) : (s.setRow r v).staged = s.staged := by unfold State.setRow; split <;> rfl
@[simp] theorem State.setRow_stepMap (s : State) (r : Nat) (v : RowSt) : (s.setRow r v).stepMap = s.stepMap := by unfold State.setRow; split <;> rfl
@[simp] theorem State.setRow_coefMap (s : State) (r : Nat) (v : RowSt) : (s.setRow r v).coefMap = s.coefMap := by unfold State.setRow; split <;> rfl
@[simp] theorem State.setRow_nowParts (s : State) (r : Nat) (v : RowSt) : (s.setRow r v).nowParts = s.nowParts := by unfold State.setRow; split <;> rfl
@[simp] theorem State.setRow_tastePlan (s : State) (r : Nat) (v : RowSt) : (s.setRow r v).tastePlan = s.tastePlan := by unfold State.setRow; split <;> rfl
@[simp] theorem State.setRow_tastes (s : State) (r : Nat) (v : RowSt) : (s.setRow r v).tastes = s.tastes := by unfold State.setRow; split <;> rfl
@[simp] theorem State.setRow_descOld (s : State) (r : Nat) (v : RowSt) : (s.setRow r v).descOld = s.descOld := by unfold State.setRow; split <;> rfl
@[simp] theorem State.setRow_planOld (s : State) (r : Nat) (v : RowSt) : (s.setRow r v).planOld = s.planOld := by unfold State.setRow; split <;> rfl
@[simp] theorem State.setRow_descPrev (s : State) (r : Nat) (v : RowSt) : (s.setRow r v).descPrev = s.descPrev := by unfold State.setRow; split <;> rfl
@[simp] theorem State.setRow_restored (s : State) (r : Nat) (v : RowSt) : (s.setRow r v).restored = s.restored := by unfold State.setRow; split <;> rfl
@[simp] theorem State.setRow_estWait (s : State) (r : Nat) (v : RowSt) : (s.setRow r v).estWait = s.estWait := by unfold State.setRow; split <;> rfl
@[simp] theorem State.setRow_copyWait (s : State) (r : Nat) (v : RowSt) : (s.setRow r v).copyWait = s.copyWait := by unfold State.setRow; split <;> rfl
@[simp] theorem State.setRow_calSince (s : State) (r : Nat) (v : RowSt) : (s.setRow r v).calSince = s.calSince := by unfold State.setRow; split <;> rfl
@[simp] theorem State.setRow_calRows (s : State) (r : Nat) (v : RowSt) : (s.setRow r v).calRows = s.calRows := by unfold State.setRow; split <;> rfl
@[simp] theorem State.setRow_calBad (s : State) (r : Nat) (v : RowSt) : (s.setRow r v).calBad = s.calBad := by unfold State.setRow; split <;> rfl
@[simp] theorem State.setRow_calStaged (s : State) (r : Nat) (v : RowSt) : (s.setRow r v).calStaged = s.calStaged := by unfold State.setRow; split <;> rfl
@[simp] theorem State.setRow_calHost (s : State) (r : Nat) (v : RowSt) : (s.setRow r v).calHost = s.calHost := by unfold State.setRow; split <;> rfl
@[simp] theorem State.setRow_calLast (s : State) (r : Nat) (v : RowSt) : (s.setRow r v).calLast = s.calLast := by unfold State.setRow; split <;> rfl
@[simp] theorem State.setRow_ports (s : State) (r : Nat) (v : RowSt) : (s.setRow r v).ports = s.ports := by unfold State.setRow; split <;> rfl
@[simp] theorem State.setRow_poss (s : State) (r : Nat) (v : RowSt) : (s.setRow r v).poss = s.poss := by unfold State.setRow; split <;> rfl
@[simp] theorem State.setRow_rackSeq (s : State) (r : Nat) (v : RowSt) : (s.setRow r v).rackSeq = s.rackSeq := by unfold State.setRow; split <;> rfl
@[simp] theorem State.setRow_rackApplied (s : State) (r : Nat) (v : RowSt) : (s.setRow r v).rackApplied = s.rackApplied := by unfold State.setRow; split <;> rfl
@[simp] theorem State.setRow_rackUnacked (s : State) (r : Nat) (v : RowSt) : (s.setRow r v).rackUnacked = s.rackUnacked := by unfold State.setRow; split <;> rfl
@[simp] theorem State.setRow_rackProgress (s : State) (r : Nat) (v : RowSt) : (s.setRow r v).rackProgress = s.rackProgress := by unfold State.setRow; split <;> rfl
@[simp] theorem State.setRow_rackSent (s : State) (r : Nat) (v : RowSt) : (s.setRow r v).rackSent = s.rackSent := by unfold State.setRow; split <;> rfl
@[simp] theorem State.setRow_rack (s : State) (r : Nat) (v : RowSt) : (s.setRow r v).rack = s.rack := by unfold State.setRow; split <;> rfl
@[simp] theorem State.setRow_cellarQ (s : State) (r : Nat) (v : RowSt) : (s.setRow r v).cellarQ = s.cellarQ := by unfold State.setRow; split <;> rfl
@[simp] theorem State.setRow_wall (s : State) (r : Nat) (v : RowSt) : (s.setRow r v).wall = s.wall := by unfold State.setRow; split <;> rfl
@[simp] theorem State.setRow_ptp (s : State) (r : Nat) (v : RowSt) : (s.setRow r v).ptp = s.ptp := by unfold State.setRow; split <;> rfl
@[simp] theorem State.setRow_rtcFired (s : State) (r : Nat) (v : RowSt) : (s.setRow r v).rtcFired = s.rtcFired := by unfold State.setRow; split <;> rfl
@[simp] theorem State.setRow_opt (s : State) (r : Nat) (v : RowSt) : (s.setRow r v).opt = s.opt := by unfold State.setRow; split <;> rfl
@[simp] theorem State.setRow_flushFor (s : State) (r : Nat) (v : RowSt) : (s.setRow r v).flushFor = s.flushFor := by unfold State.setRow; split <;> rfl
@[simp] theorem State.setRow_startOk (s : State) (r : Nat) (v : RowSt) : (s.setRow r v).startOk = s.startOk := by unfold State.setRow; split <;> rfl
@[simp] theorem State.setRow_wdtStart (s : State) (r : Nat) (v : RowSt) : (s.setRow r v).wdtStart = s.wdtStart := by unfold State.setRow; split <;> rfl
@[simp] theorem State.setRow_pins (s : State) (r : Nat) (v : RowSt) : (s.setRow r v).pins = s.pins := by unfold State.setRow; split <;> rfl
@[simp] theorem State.setRow_cask (s : State) (r : Nat) (v : RowSt) : (s.setRow r v).cask = s.cask := by unfold State.setRow; split <;> rfl
@[simp] theorem State.setRow_flash (s : State) (r : Nat) (v : RowSt) : (s.setRow r v).flash = s.flash := by unfold State.setRow; split <;> rfl
@[simp] theorem State.setRow_scrubDue (s : State) (r : Nat) (v : RowSt) : (s.setRow r v).scrubDue = s.scrubDue := by unfold State.setRow; split <;> rfl
@[simp] theorem State.setRow_recReq (s : State) (r : Nat) (v : RowSt) : (s.setRow r v).recReq = s.recReq := by unfold State.setRow; split <;> rfl
@[simp] theorem State.setRow_cb (s : State) (r : Nat) (v : RowSt) : (s.setRow r v).cb = s.cb := by unfold State.setRow; split <;> rfl
@[simp] theorem State.setRow_mgt (s : State) (r : Nat) (v : RowSt) : (s.setRow r v).mgt = s.mgt := by unfold State.setRow; split <;> rfl
@[simp] theorem State.setRow_flush (s : State) (r : Nat) (v : RowSt) : (s.setRow r v).flush = s.flush := by unfold State.setRow; split <;> rfl
@[simp] theorem State.setRow_ck (s : State) (r : Nat) (v : RowSt) : (s.setRow r v).ck = s.ck := by unfold State.setRow; split <;> rfl
@[simp] theorem State.setRow_eng (s : State) (r : Nat) (v : RowSt) : (s.setRow r v).eng = s.eng := by unfold State.setRow; split <;> rfl
@[simp] theorem State.setRow_can (s : State) (r : Nat) (v : RowSt) : (s.setRow r v).can = s.can := by unfold State.setRow; split <;> rfl
@[simp] theorem State.setRow_lio (s : State) (r : Nat) (v : RowSt) : (s.setRow r v).lio = s.lio := by unfold State.setRow; split <;> rfl
@[simp] theorem State.setRow_lioF (s : State) (r : Nat) (v : RowSt) : (s.setRow r v).lioF = s.lioF := by unfold State.setRow; split <;> rfl
@[simp] theorem State.setRow_panel (s : State) (r : Nat) (v : RowSt) : (s.setRow r v).panel = s.panel := by unfold State.setRow; split <;> rfl
@[simp] theorem State.setRow_busyAcc (s : State) (r : Nat) (v : RowSt) : (s.setRow r v).busyAcc = s.busyAcc := by unfold State.setRow; split <;> rfl
@[simp] theorem State.setRow_linesAcc (s : State) (r : Nat) (v : RowSt) : (s.setRow r v).linesAcc = s.linesAcc := by unfold State.setRow; split <;> rfl

/-! ### setPart -/

@[simp] theorem State.setPart_pending (s : State) (n : Nat) (v : PartSt) : (s.setPart n v).pending = s.pending := rfl
@[simp] theorem State.setPart_out (s : State) (n : Nat) (v : PartSt) : (s.setPart n v).out = s.out := rfl
@[simp] theorem State.setPart_free (s : State) (n : Nat) (v : PartSt) : (s.setPart n v).free = s.free := rfl
@[simp] theorem State.setPart_fuses (s : State) (n : Nat) (v : PartSt) : (s.setPart n v).fuses = s.fuses := rfl
@[simp] theorem State.setPart_regs (s : State) (n : Nat) (v : PartSt) : (s.setPart n v).regs = s.regs := rfl
@[simp] theorem State.setPart_latHi (s : State) (n : Nat) (v : PartSt) : (s.setPart n v).latHi = s.latHi := rfl
@[simp] theorem State.setPart_heldLo (s : State) (n : Nat) (v : PartSt) : (s.setPart n v).heldLo = s.heldLo := rfl
@[simp] theorem State.setPart_fnRegs (s : State) (n : Nat) (v : PartSt) : (s.setPart n v).fnRegs = s.fnRegs := rfl
@[simp] theorem State.setPart_spareNow (s : State) (n : Nat) (v : PartSt) : (s.setPart n v).spareNow = s.spareNow := rfl
@[simp] theorem State.setPart_mem (s : State) (n : Nat) (v : PartSt) : (s.setPart n v).mem = s.mem := rfl
@[simp] theorem State.setPart_ecc (s : State) (n : Nat) (v : PartSt) : (s.setPart n v).ecc = s.ecc := rfl
@[simp] theorem State.setPart_lt (s : State) (n : Nat) (v : PartSt) : (s.setPart n v).lt = s.lt := rfl
@[simp] theorem State.setPart_ltFrac (s : State) (n : Nat) (v : PartSt) : (s.setPart n v).ltFrac = s.ltFrac := rfl
@[simp] theorem State.setPart_cycle (s : State) (n : Nat) (v : PartSt) : (s.setPart n v).cycle = s.cycle := rfl
@[simp] theorem State.setPart_tn (s : State) (n : Nat) (v : PartSt) : (s.setPart n v).tn = s.tn := rfl
@[simp] theorem State.setPart_started (s : State) (n : Nat) (v : PartSt) : (s.setPart n v).started = s.started := rfl
@[simp] theorem State.setPart_applyOfs (s : State) (n : Nat) (v : PartSt) : (s.setPart n v).applyOfs = s.applyOfs := rfl
@[simp] theorem State.setPart_modeReqPend (s : State) (n : Nat) (v : PartSt) : (s.setPart n v).modeReqPend = s.modeReqPend := rfl
@[simp] theorem State.setPart_rows (s : State) (n : Nat) (v : PartSt) : (s.setPart n v).rows = s.rows := rfl
@[simp] theorem State.setPart_parts (s : State) (n : Nat) (v : PartSt) : (s.setPart n v).parts = SMap.put part0 n v s.parts := rfl
@[simp] theorem State.setPart_frames (s : State) (n : Nat) (v : PartSt) : (s.setPart n v).frames = s.frames := rfl
@[simp] theorem State.setPart_ctxs (s : State) (n : Nat) (v : PartSt) : (s.setPart n v).ctxs = s.ctxs := rfl
@[simp] theorem State.setPart_inflight (s : State) (n : Nat) (v : PartSt) : (s.setPart n v).inflight = s.inflight := rfl
@[simp] theorem State.setPart_tagEpochs (s : State) (n : Nat) (v : PartSt) : (s.setPart n v).tagEpochs = s.tagEpochs := rfl
@[simp] theorem State.setPart_scalarCmds (s : State) (n : Nat) (v : PartSt) : (s.setPart n v).scalarCmds = s.scalarCmds := rfl
@[simp] theorem State.setPart_triggers (s : State) (n : Nat) (v : PartSt) : (s.setPart n v).triggers = s.triggers := rfl
@[simp] theorem State.setPart_rfxMet (s : State) (n : Nat) (v : PartSt) : (s.setPart n v).rfxMet = s.rfxMet := rfl
@[simp] theorem State.setPart_heldGrants (s : State) (n : Nat) (v : PartSt) : (s.setPart n v).heldGrants = s.heldGrants := rfl
@[simp] theorem State.setPart_evLatch (s : State) (n : Nat) (v : PartSt) : (s.setPart n v).evLatch = s.evLatch := rfl
@[simp] theorem State.setPart_msix (s : State) (n : Nat) (v : PartSt) : (s.setPart n v).msix = s.msix := rfl
@[simp] theorem State.setPart_msixEn (s : State) (n : Nat) (v : PartSt) : (s.setPart n v).msixEn = s.msixEn := rfl
@[simp] theorem State.setPart_msixFmask (s : State) (n : Nat) (v : PartSt) : (s.setPart n v).msixFmask = s.msixFmask := rfl
@[simp] theorem State.setPart_vfs (s : State) (n : Nat) (v : PartSt) : (s.setPart n v).vfs = s.vfs := rfl
@[simp] theorem State.setPart_hq (s : State) (n : Nat) (v : PartSt) : (s.setPart n v).hq = s.hq := rfl
@[simp] theorem State.setPart_snaps (s : State) (n : Nat) (v : PartSt) : (s.setPart n v).snaps = s.snaps := rfl
@[simp] theorem State.setPart_noticePend (s : State) (n : Nat) (v : PartSt) : (s.setPart n v).noticePend = s.noticePend := rfl
@[simp] theorem State.setPart_almSeen (s : State) (n : Nat) (v : PartSt) : (s.setPart n v).almSeen = s.almSeen := rfl
@[simp] theorem State.setPart_almIssued (s : State) (n : Nat) (v : PartSt) : (s.setPart n v).almIssued = s.almIssued := rfl
@[simp] theorem State.setPart_undone (s : State) (n : Nat) (v : PartSt) : (s.setPart n v).undone = s.undone := rfl
@[simp] theorem State.setPart_chx (s : State) (n : Nat) (v : PartSt) : (s.setPart n v).chx = s.chx := rfl
@[simp] theorem State.setPart_ledgQ (s : State) (n : Nat) (v : PartSt) : (s.setPart n v).ledgQ = s.ledgQ := rfl
@[simp] theorem State.setPart_ledgBuses (s : State) (n : Nat) (v : PartSt) : (s.setPart n v).ledgBuses = s.ledgBuses := rfl
@[simp] theorem State.setPart_rowMeas (s : State) (n : Nat) (v : PartSt) : (s.setPart n v).rowMeas = s.rowMeas := rfl
@[simp] theorem State.setPart_losses (s : State) (n : Nat) (v : PartSt) : (s.setPart n v).losses = s.losses := rfl
@[simp] theorem State.setPart_staged (s : State) (n : Nat) (v : PartSt) : (s.setPart n v).staged = s.staged := rfl
@[simp] theorem State.setPart_stepMap (s : State) (n : Nat) (v : PartSt) : (s.setPart n v).stepMap = s.stepMap := rfl
@[simp] theorem State.setPart_coefMap (s : State) (n : Nat) (v : PartSt) : (s.setPart n v).coefMap = s.coefMap := rfl
@[simp] theorem State.setPart_nowParts (s : State) (n : Nat) (v : PartSt) : (s.setPart n v).nowParts = s.nowParts := rfl
@[simp] theorem State.setPart_tastePlan (s : State) (n : Nat) (v : PartSt) : (s.setPart n v).tastePlan = s.tastePlan := rfl
@[simp] theorem State.setPart_tastes (s : State) (n : Nat) (v : PartSt) : (s.setPart n v).tastes = s.tastes := rfl
@[simp] theorem State.setPart_descOld (s : State) (n : Nat) (v : PartSt) : (s.setPart n v).descOld = s.descOld := rfl
@[simp] theorem State.setPart_planOld (s : State) (n : Nat) (v : PartSt) : (s.setPart n v).planOld = s.planOld := rfl
@[simp] theorem State.setPart_descPrev (s : State) (n : Nat) (v : PartSt) : (s.setPart n v).descPrev = s.descPrev := rfl
@[simp] theorem State.setPart_restored (s : State) (n : Nat) (v : PartSt) : (s.setPart n v).restored = s.restored := rfl
@[simp] theorem State.setPart_estWait (s : State) (n : Nat) (v : PartSt) : (s.setPart n v).estWait = s.estWait := rfl
@[simp] theorem State.setPart_copyWait (s : State) (n : Nat) (v : PartSt) : (s.setPart n v).copyWait = s.copyWait := rfl
@[simp] theorem State.setPart_calSince (s : State) (n : Nat) (v : PartSt) : (s.setPart n v).calSince = s.calSince := rfl
@[simp] theorem State.setPart_calRows (s : State) (n : Nat) (v : PartSt) : (s.setPart n v).calRows = s.calRows := rfl
@[simp] theorem State.setPart_calBad (s : State) (n : Nat) (v : PartSt) : (s.setPart n v).calBad = s.calBad := rfl
@[simp] theorem State.setPart_calStaged (s : State) (n : Nat) (v : PartSt) : (s.setPart n v).calStaged = s.calStaged := rfl
@[simp] theorem State.setPart_calHost (s : State) (n : Nat) (v : PartSt) : (s.setPart n v).calHost = s.calHost := rfl
@[simp] theorem State.setPart_calLast (s : State) (n : Nat) (v : PartSt) : (s.setPart n v).calLast = s.calLast := rfl
@[simp] theorem State.setPart_ports (s : State) (n : Nat) (v : PartSt) : (s.setPart n v).ports = s.ports := rfl
@[simp] theorem State.setPart_poss (s : State) (n : Nat) (v : PartSt) : (s.setPart n v).poss = s.poss := rfl
@[simp] theorem State.setPart_rackSeq (s : State) (n : Nat) (v : PartSt) : (s.setPart n v).rackSeq = s.rackSeq := rfl
@[simp] theorem State.setPart_rackApplied (s : State) (n : Nat) (v : PartSt) : (s.setPart n v).rackApplied = s.rackApplied := rfl
@[simp] theorem State.setPart_rackUnacked (s : State) (n : Nat) (v : PartSt) : (s.setPart n v).rackUnacked = s.rackUnacked := rfl
@[simp] theorem State.setPart_rackProgress (s : State) (n : Nat) (v : PartSt) : (s.setPart n v).rackProgress = s.rackProgress := rfl
@[simp] theorem State.setPart_rackSent (s : State) (n : Nat) (v : PartSt) : (s.setPart n v).rackSent = s.rackSent := rfl
@[simp] theorem State.setPart_rack (s : State) (n : Nat) (v : PartSt) : (s.setPart n v).rack = s.rack := rfl
@[simp] theorem State.setPart_cellarQ (s : State) (n : Nat) (v : PartSt) : (s.setPart n v).cellarQ = s.cellarQ := rfl
@[simp] theorem State.setPart_wall (s : State) (n : Nat) (v : PartSt) : (s.setPart n v).wall = s.wall := rfl
@[simp] theorem State.setPart_ptp (s : State) (n : Nat) (v : PartSt) : (s.setPart n v).ptp = s.ptp := rfl
@[simp] theorem State.setPart_rtcFired (s : State) (n : Nat) (v : PartSt) : (s.setPart n v).rtcFired = s.rtcFired := rfl
@[simp] theorem State.setPart_opt (s : State) (n : Nat) (v : PartSt) : (s.setPart n v).opt = s.opt := rfl
@[simp] theorem State.setPart_flushFor (s : State) (n : Nat) (v : PartSt) : (s.setPart n v).flushFor = s.flushFor := rfl
@[simp] theorem State.setPart_startOk (s : State) (n : Nat) (v : PartSt) : (s.setPart n v).startOk = s.startOk := rfl
@[simp] theorem State.setPart_wdtStart (s : State) (n : Nat) (v : PartSt) : (s.setPart n v).wdtStart = s.wdtStart := rfl
@[simp] theorem State.setPart_pins (s : State) (n : Nat) (v : PartSt) : (s.setPart n v).pins = s.pins := rfl
@[simp] theorem State.setPart_cask (s : State) (n : Nat) (v : PartSt) : (s.setPart n v).cask = s.cask := rfl
@[simp] theorem State.setPart_flash (s : State) (n : Nat) (v : PartSt) : (s.setPart n v).flash = s.flash := rfl
@[simp] theorem State.setPart_scrubDue (s : State) (n : Nat) (v : PartSt) : (s.setPart n v).scrubDue = s.scrubDue := rfl
@[simp] theorem State.setPart_recReq (s : State) (n : Nat) (v : PartSt) : (s.setPart n v).recReq = s.recReq := rfl
@[simp] theorem State.setPart_cb (s : State) (n : Nat) (v : PartSt) : (s.setPart n v).cb = s.cb := rfl
@[simp] theorem State.setPart_mgt (s : State) (n : Nat) (v : PartSt) : (s.setPart n v).mgt = s.mgt := rfl
@[simp] theorem State.setPart_flush (s : State) (n : Nat) (v : PartSt) : (s.setPart n v).flush = s.flush := rfl
@[simp] theorem State.setPart_ck (s : State) (n : Nat) (v : PartSt) : (s.setPart n v).ck = s.ck := rfl
@[simp] theorem State.setPart_eng (s : State) (n : Nat) (v : PartSt) : (s.setPart n v).eng = s.eng := rfl
@[simp] theorem State.setPart_can (s : State) (n : Nat) (v : PartSt) : (s.setPart n v).can = s.can := rfl
@[simp] theorem State.setPart_lio (s : State) (n : Nat) (v : PartSt) : (s.setPart n v).lio = s.lio := rfl
@[simp] theorem State.setPart_lioF (s : State) (n : Nat) (v : PartSt) : (s.setPart n v).lioF = s.lioF := rfl
@[simp] theorem State.setPart_panel (s : State) (n : Nat) (v : PartSt) : (s.setPart n v).panel = s.panel := rfl
@[simp] theorem State.setPart_busyAcc (s : State) (n : Nat) (v : PartSt) : (s.setPart n v).busyAcc = s.busyAcc := rfl
@[simp] theorem State.setPart_linesAcc (s : State) (n : Nat) (v : PartSt) : (s.setPart n v).linesAcc = s.linesAcc := rfl

/-! ### setFrame -/

@[simp] theorem State.setFrame_pending (s : State) (k i : Nat) (v : Frame) : (s.setFrame k i v).pending = s.pending := rfl
@[simp] theorem State.setFrame_out (s : State) (k i : Nat) (v : Frame) : (s.setFrame k i v).out = s.out := rfl
@[simp] theorem State.setFrame_free (s : State) (k i : Nat) (v : Frame) : (s.setFrame k i v).free = s.free := rfl
@[simp] theorem State.setFrame_fuses (s : State) (k i : Nat) (v : Frame) : (s.setFrame k i v).fuses = s.fuses := rfl
@[simp] theorem State.setFrame_regs (s : State) (k i : Nat) (v : Frame) : (s.setFrame k i v).regs = s.regs := rfl
@[simp] theorem State.setFrame_latHi (s : State) (k i : Nat) (v : Frame) : (s.setFrame k i v).latHi = s.latHi := rfl
@[simp] theorem State.setFrame_heldLo (s : State) (k i : Nat) (v : Frame) : (s.setFrame k i v).heldLo = s.heldLo := rfl
@[simp] theorem State.setFrame_fnRegs (s : State) (k i : Nat) (v : Frame) : (s.setFrame k i v).fnRegs = s.fnRegs := rfl
@[simp] theorem State.setFrame_spareNow (s : State) (k i : Nat) (v : Frame) : (s.setFrame k i v).spareNow = s.spareNow := rfl
@[simp] theorem State.setFrame_mem (s : State) (k i : Nat) (v : Frame) : (s.setFrame k i v).mem = s.mem := rfl
@[simp] theorem State.setFrame_ecc (s : State) (k i : Nat) (v : Frame) : (s.setFrame k i v).ecc = s.ecc := rfl
@[simp] theorem State.setFrame_lt (s : State) (k i : Nat) (v : Frame) : (s.setFrame k i v).lt = s.lt := rfl
@[simp] theorem State.setFrame_ltFrac (s : State) (k i : Nat) (v : Frame) : (s.setFrame k i v).ltFrac = s.ltFrac := rfl
@[simp] theorem State.setFrame_cycle (s : State) (k i : Nat) (v : Frame) : (s.setFrame k i v).cycle = s.cycle := rfl
@[simp] theorem State.setFrame_tn (s : State) (k i : Nat) (v : Frame) : (s.setFrame k i v).tn = s.tn := rfl
@[simp] theorem State.setFrame_started (s : State) (k i : Nat) (v : Frame) : (s.setFrame k i v).started = s.started := rfl
@[simp] theorem State.setFrame_applyOfs (s : State) (k i : Nat) (v : Frame) : (s.setFrame k i v).applyOfs = s.applyOfs := rfl
@[simp] theorem State.setFrame_modeReqPend (s : State) (k i : Nat) (v : Frame) : (s.setFrame k i v).modeReqPend = s.modeReqPend := rfl
@[simp] theorem State.setFrame_rows (s : State) (k i : Nat) (v : Frame) : (s.setFrame k i v).rows = s.rows := rfl
@[simp] theorem State.setFrame_parts (s : State) (k i : Nat) (v : Frame) : (s.setFrame k i v).parts = s.parts := rfl
@[simp] theorem State.setFrame_frames (s : State) (k i : Nat) (v : Frame) : (s.setFrame k i v).frames = SMap.put frame0 (2 * k + i) v s.frames := rfl
@[simp] theorem State.setFrame_ctxs (s : State) (k i : Nat) (v : Frame) : (s.setFrame k i v).ctxs = s.ctxs := rfl
@[simp] theorem State.setFrame_inflight (s : State) (k i : Nat) (v : Frame) : (s.setFrame k i v).inflight = s.inflight := rfl
@[simp] theorem State.setFrame_tagEpochs (s : State) (k i : Nat) (v : Frame) : (s.setFrame k i v).tagEpochs = s.tagEpochs := rfl
@[simp] theorem State.setFrame_scalarCmds (s : State) (k i : Nat) (v : Frame) : (s.setFrame k i v).scalarCmds = s.scalarCmds := rfl
@[simp] theorem State.setFrame_triggers (s : State) (k i : Nat) (v : Frame) : (s.setFrame k i v).triggers = s.triggers := rfl
@[simp] theorem State.setFrame_rfxMet (s : State) (k i : Nat) (v : Frame) : (s.setFrame k i v).rfxMet = s.rfxMet := rfl
@[simp] theorem State.setFrame_heldGrants (s : State) (k i : Nat) (v : Frame) : (s.setFrame k i v).heldGrants = s.heldGrants := rfl
@[simp] theorem State.setFrame_evLatch (s : State) (k i : Nat) (v : Frame) : (s.setFrame k i v).evLatch = s.evLatch := rfl
@[simp] theorem State.setFrame_msix (s : State) (k i : Nat) (v : Frame) : (s.setFrame k i v).msix = s.msix := rfl
@[simp] theorem State.setFrame_msixEn (s : State) (k i : Nat) (v : Frame) : (s.setFrame k i v).msixEn = s.msixEn := rfl
@[simp] theorem State.setFrame_msixFmask (s : State) (k i : Nat) (v : Frame) : (s.setFrame k i v).msixFmask = s.msixFmask := rfl
@[simp] theorem State.setFrame_vfs (s : State) (k i : Nat) (v : Frame) : (s.setFrame k i v).vfs = s.vfs := rfl
@[simp] theorem State.setFrame_hq (s : State) (k i : Nat) (v : Frame) : (s.setFrame k i v).hq = s.hq := rfl
@[simp] theorem State.setFrame_snaps (s : State) (k i : Nat) (v : Frame) : (s.setFrame k i v).snaps = s.snaps := rfl
@[simp] theorem State.setFrame_noticePend (s : State) (k i : Nat) (v : Frame) : (s.setFrame k i v).noticePend = s.noticePend := rfl
@[simp] theorem State.setFrame_almSeen (s : State) (k i : Nat) (v : Frame) : (s.setFrame k i v).almSeen = s.almSeen := rfl
@[simp] theorem State.setFrame_almIssued (s : State) (k i : Nat) (v : Frame) : (s.setFrame k i v).almIssued = s.almIssued := rfl
@[simp] theorem State.setFrame_undone (s : State) (k i : Nat) (v : Frame) : (s.setFrame k i v).undone = s.undone := rfl
@[simp] theorem State.setFrame_chx (s : State) (k i : Nat) (v : Frame) : (s.setFrame k i v).chx = s.chx := rfl
@[simp] theorem State.setFrame_ledgQ (s : State) (k i : Nat) (v : Frame) : (s.setFrame k i v).ledgQ = s.ledgQ := rfl
@[simp] theorem State.setFrame_ledgBuses (s : State) (k i : Nat) (v : Frame) : (s.setFrame k i v).ledgBuses = s.ledgBuses := rfl
@[simp] theorem State.setFrame_rowMeas (s : State) (k i : Nat) (v : Frame) : (s.setFrame k i v).rowMeas = s.rowMeas := rfl
@[simp] theorem State.setFrame_losses (s : State) (k i : Nat) (v : Frame) : (s.setFrame k i v).losses = s.losses := rfl
@[simp] theorem State.setFrame_staged (s : State) (k i : Nat) (v : Frame) : (s.setFrame k i v).staged = s.staged := rfl
@[simp] theorem State.setFrame_stepMap (s : State) (k i : Nat) (v : Frame) : (s.setFrame k i v).stepMap = s.stepMap := rfl
@[simp] theorem State.setFrame_coefMap (s : State) (k i : Nat) (v : Frame) : (s.setFrame k i v).coefMap = s.coefMap := rfl
@[simp] theorem State.setFrame_nowParts (s : State) (k i : Nat) (v : Frame) : (s.setFrame k i v).nowParts = s.nowParts := rfl
@[simp] theorem State.setFrame_tastePlan (s : State) (k i : Nat) (v : Frame) : (s.setFrame k i v).tastePlan = s.tastePlan := rfl
@[simp] theorem State.setFrame_tastes (s : State) (k i : Nat) (v : Frame) : (s.setFrame k i v).tastes = s.tastes := rfl
@[simp] theorem State.setFrame_descOld (s : State) (k i : Nat) (v : Frame) : (s.setFrame k i v).descOld = s.descOld := rfl
@[simp] theorem State.setFrame_planOld (s : State) (k i : Nat) (v : Frame) : (s.setFrame k i v).planOld = s.planOld := rfl
@[simp] theorem State.setFrame_descPrev (s : State) (k i : Nat) (v : Frame) : (s.setFrame k i v).descPrev = s.descPrev := rfl
@[simp] theorem State.setFrame_restored (s : State) (k i : Nat) (v : Frame) : (s.setFrame k i v).restored = s.restored := rfl
@[simp] theorem State.setFrame_estWait (s : State) (k i : Nat) (v : Frame) : (s.setFrame k i v).estWait = s.estWait := rfl
@[simp] theorem State.setFrame_copyWait (s : State) (k i : Nat) (v : Frame) : (s.setFrame k i v).copyWait = s.copyWait := rfl
@[simp] theorem State.setFrame_calSince (s : State) (k i : Nat) (v : Frame) : (s.setFrame k i v).calSince = s.calSince := rfl
@[simp] theorem State.setFrame_calRows (s : State) (k i : Nat) (v : Frame) : (s.setFrame k i v).calRows = s.calRows := rfl
@[simp] theorem State.setFrame_calBad (s : State) (k i : Nat) (v : Frame) : (s.setFrame k i v).calBad = s.calBad := rfl
@[simp] theorem State.setFrame_calStaged (s : State) (k i : Nat) (v : Frame) : (s.setFrame k i v).calStaged = s.calStaged := rfl
@[simp] theorem State.setFrame_calHost (s : State) (k i : Nat) (v : Frame) : (s.setFrame k i v).calHost = s.calHost := rfl
@[simp] theorem State.setFrame_calLast (s : State) (k i : Nat) (v : Frame) : (s.setFrame k i v).calLast = s.calLast := rfl
@[simp] theorem State.setFrame_ports (s : State) (k i : Nat) (v : Frame) : (s.setFrame k i v).ports = s.ports := rfl
@[simp] theorem State.setFrame_poss (s : State) (k i : Nat) (v : Frame) : (s.setFrame k i v).poss = s.poss := rfl
@[simp] theorem State.setFrame_rackSeq (s : State) (k i : Nat) (v : Frame) : (s.setFrame k i v).rackSeq = s.rackSeq := rfl
@[simp] theorem State.setFrame_rackApplied (s : State) (k i : Nat) (v : Frame) : (s.setFrame k i v).rackApplied = s.rackApplied := rfl
@[simp] theorem State.setFrame_rackUnacked (s : State) (k i : Nat) (v : Frame) : (s.setFrame k i v).rackUnacked = s.rackUnacked := rfl
@[simp] theorem State.setFrame_rackProgress (s : State) (k i : Nat) (v : Frame) : (s.setFrame k i v).rackProgress = s.rackProgress := rfl
@[simp] theorem State.setFrame_rackSent (s : State) (k i : Nat) (v : Frame) : (s.setFrame k i v).rackSent = s.rackSent := rfl
@[simp] theorem State.setFrame_rack (s : State) (k i : Nat) (v : Frame) : (s.setFrame k i v).rack = s.rack := rfl
@[simp] theorem State.setFrame_cellarQ (s : State) (k i : Nat) (v : Frame) : (s.setFrame k i v).cellarQ = s.cellarQ := rfl
@[simp] theorem State.setFrame_wall (s : State) (k i : Nat) (v : Frame) : (s.setFrame k i v).wall = s.wall := rfl
@[simp] theorem State.setFrame_ptp (s : State) (k i : Nat) (v : Frame) : (s.setFrame k i v).ptp = s.ptp := rfl
@[simp] theorem State.setFrame_rtcFired (s : State) (k i : Nat) (v : Frame) : (s.setFrame k i v).rtcFired = s.rtcFired := rfl
@[simp] theorem State.setFrame_opt (s : State) (k i : Nat) (v : Frame) : (s.setFrame k i v).opt = s.opt := rfl
@[simp] theorem State.setFrame_flushFor (s : State) (k i : Nat) (v : Frame) : (s.setFrame k i v).flushFor = s.flushFor := rfl
@[simp] theorem State.setFrame_startOk (s : State) (k i : Nat) (v : Frame) : (s.setFrame k i v).startOk = s.startOk := rfl
@[simp] theorem State.setFrame_wdtStart (s : State) (k i : Nat) (v : Frame) : (s.setFrame k i v).wdtStart = s.wdtStart := rfl
@[simp] theorem State.setFrame_pins (s : State) (k i : Nat) (v : Frame) : (s.setFrame k i v).pins = s.pins := rfl
@[simp] theorem State.setFrame_cask (s : State) (k i : Nat) (v : Frame) : (s.setFrame k i v).cask = s.cask := rfl
@[simp] theorem State.setFrame_flash (s : State) (k i : Nat) (v : Frame) : (s.setFrame k i v).flash = s.flash := rfl
@[simp] theorem State.setFrame_scrubDue (s : State) (k i : Nat) (v : Frame) : (s.setFrame k i v).scrubDue = s.scrubDue := rfl
@[simp] theorem State.setFrame_recReq (s : State) (k i : Nat) (v : Frame) : (s.setFrame k i v).recReq = s.recReq := rfl
@[simp] theorem State.setFrame_cb (s : State) (k i : Nat) (v : Frame) : (s.setFrame k i v).cb = s.cb := rfl
@[simp] theorem State.setFrame_mgt (s : State) (k i : Nat) (v : Frame) : (s.setFrame k i v).mgt = s.mgt := rfl
@[simp] theorem State.setFrame_flush (s : State) (k i : Nat) (v : Frame) : (s.setFrame k i v).flush = s.flush := rfl
@[simp] theorem State.setFrame_ck (s : State) (k i : Nat) (v : Frame) : (s.setFrame k i v).ck = s.ck := rfl
@[simp] theorem State.setFrame_eng (s : State) (k i : Nat) (v : Frame) : (s.setFrame k i v).eng = s.eng := rfl
@[simp] theorem State.setFrame_can (s : State) (k i : Nat) (v : Frame) : (s.setFrame k i v).can = s.can := rfl
@[simp] theorem State.setFrame_lio (s : State) (k i : Nat) (v : Frame) : (s.setFrame k i v).lio = s.lio := rfl
@[simp] theorem State.setFrame_lioF (s : State) (k i : Nat) (v : Frame) : (s.setFrame k i v).lioF = s.lioF := rfl
@[simp] theorem State.setFrame_panel (s : State) (k i : Nat) (v : Frame) : (s.setFrame k i v).panel = s.panel := rfl
@[simp] theorem State.setFrame_busyAcc (s : State) (k i : Nat) (v : Frame) : (s.setFrame k i v).busyAcc = s.busyAcc := rfl
@[simp] theorem State.setFrame_linesAcc (s : State) (k i : Nat) (v : Frame) : (s.setFrame k i v).linesAcc = s.linesAcc := rfl

/-! ### setCx -/

@[simp] theorem State.setCx_pending (s : State) (c : Cx) (v : Ctx) : (s.setCx c v).pending = s.pending := rfl
@[simp] theorem State.setCx_out (s : State) (c : Cx) (v : Ctx) : (s.setCx c v).out = s.out := rfl
@[simp] theorem State.setCx_free (s : State) (c : Cx) (v : Ctx) : (s.setCx c v).free = s.free := rfl
@[simp] theorem State.setCx_fuses (s : State) (c : Cx) (v : Ctx) : (s.setCx c v).fuses = s.fuses := rfl
@[simp] theorem State.setCx_regs (s : State) (c : Cx) (v : Ctx) : (s.setCx c v).regs = s.regs := rfl
@[simp] theorem State.setCx_latHi (s : State) (c : Cx) (v : Ctx) : (s.setCx c v).latHi = s.latHi := rfl
@[simp] theorem State.setCx_heldLo (s : State) (c : Cx) (v : Ctx) : (s.setCx c v).heldLo = s.heldLo := rfl
@[simp] theorem State.setCx_fnRegs (s : State) (c : Cx) (v : Ctx) : (s.setCx c v).fnRegs = s.fnRegs := rfl
@[simp] theorem State.setCx_spareNow (s : State) (c : Cx) (v : Ctx) : (s.setCx c v).spareNow = s.spareNow := rfl
@[simp] theorem State.setCx_mem (s : State) (c : Cx) (v : Ctx) : (s.setCx c v).mem = s.mem := rfl
@[simp] theorem State.setCx_ecc (s : State) (c : Cx) (v : Ctx) : (s.setCx c v).ecc = s.ecc := rfl
@[simp] theorem State.setCx_lt (s : State) (c : Cx) (v : Ctx) : (s.setCx c v).lt = s.lt := rfl
@[simp] theorem State.setCx_ltFrac (s : State) (c : Cx) (v : Ctx) : (s.setCx c v).ltFrac = s.ltFrac := rfl
@[simp] theorem State.setCx_cycle (s : State) (c : Cx) (v : Ctx) : (s.setCx c v).cycle = s.cycle := rfl
@[simp] theorem State.setCx_tn (s : State) (c : Cx) (v : Ctx) : (s.setCx c v).tn = s.tn := rfl
@[simp] theorem State.setCx_started (s : State) (c : Cx) (v : Ctx) : (s.setCx c v).started = s.started := rfl
@[simp] theorem State.setCx_applyOfs (s : State) (c : Cx) (v : Ctx) : (s.setCx c v).applyOfs = s.applyOfs := rfl
@[simp] theorem State.setCx_modeReqPend (s : State) (c : Cx) (v : Ctx) : (s.setCx c v).modeReqPend = s.modeReqPend := rfl
@[simp] theorem State.setCx_rows (s : State) (c : Cx) (v : Ctx) : (s.setCx c v).rows = s.rows := rfl
@[simp] theorem State.setCx_parts (s : State) (c : Cx) (v : Ctx) : (s.setCx c v).parts = s.parts := rfl
@[simp] theorem State.setCx_frames (s : State) (c : Cx) (v : Ctx) : (s.setCx c v).frames = s.frames := rfl
@[simp] theorem State.setCx_ctxs (s : State) (c : Cx) (v : Ctx) : (s.setCx c v).ctxs = SMap.put ctx0 (cxIdx c) v s.ctxs := rfl
@[simp] theorem State.setCx_inflight (s : State) (c : Cx) (v : Ctx) : (s.setCx c v).inflight = s.inflight := rfl
@[simp] theorem State.setCx_tagEpochs (s : State) (c : Cx) (v : Ctx) : (s.setCx c v).tagEpochs = s.tagEpochs := rfl
@[simp] theorem State.setCx_scalarCmds (s : State) (c : Cx) (v : Ctx) : (s.setCx c v).scalarCmds = s.scalarCmds := rfl
@[simp] theorem State.setCx_triggers (s : State) (c : Cx) (v : Ctx) : (s.setCx c v).triggers = s.triggers := rfl
@[simp] theorem State.setCx_rfxMet (s : State) (c : Cx) (v : Ctx) : (s.setCx c v).rfxMet = s.rfxMet := rfl
@[simp] theorem State.setCx_heldGrants (s : State) (c : Cx) (v : Ctx) : (s.setCx c v).heldGrants = s.heldGrants := rfl
@[simp] theorem State.setCx_evLatch (s : State) (c : Cx) (v : Ctx) : (s.setCx c v).evLatch = s.evLatch := rfl
@[simp] theorem State.setCx_msix (s : State) (c : Cx) (v : Ctx) : (s.setCx c v).msix = s.msix := rfl
@[simp] theorem State.setCx_msixEn (s : State) (c : Cx) (v : Ctx) : (s.setCx c v).msixEn = s.msixEn := rfl
@[simp] theorem State.setCx_msixFmask (s : State) (c : Cx) (v : Ctx) : (s.setCx c v).msixFmask = s.msixFmask := rfl
@[simp] theorem State.setCx_vfs (s : State) (c : Cx) (v : Ctx) : (s.setCx c v).vfs = s.vfs := rfl
@[simp] theorem State.setCx_hq (s : State) (c : Cx) (v : Ctx) : (s.setCx c v).hq = s.hq := rfl
@[simp] theorem State.setCx_snaps (s : State) (c : Cx) (v : Ctx) : (s.setCx c v).snaps = s.snaps := rfl
@[simp] theorem State.setCx_noticePend (s : State) (c : Cx) (v : Ctx) : (s.setCx c v).noticePend = s.noticePend := rfl
@[simp] theorem State.setCx_almSeen (s : State) (c : Cx) (v : Ctx) : (s.setCx c v).almSeen = s.almSeen := rfl
@[simp] theorem State.setCx_almIssued (s : State) (c : Cx) (v : Ctx) : (s.setCx c v).almIssued = s.almIssued := rfl
@[simp] theorem State.setCx_undone (s : State) (c : Cx) (v : Ctx) : (s.setCx c v).undone = s.undone := rfl
@[simp] theorem State.setCx_chx (s : State) (c : Cx) (v : Ctx) : (s.setCx c v).chx = s.chx := rfl
@[simp] theorem State.setCx_ledgQ (s : State) (c : Cx) (v : Ctx) : (s.setCx c v).ledgQ = s.ledgQ := rfl
@[simp] theorem State.setCx_ledgBuses (s : State) (c : Cx) (v : Ctx) : (s.setCx c v).ledgBuses = s.ledgBuses := rfl
@[simp] theorem State.setCx_rowMeas (s : State) (c : Cx) (v : Ctx) : (s.setCx c v).rowMeas = s.rowMeas := rfl
@[simp] theorem State.setCx_losses (s : State) (c : Cx) (v : Ctx) : (s.setCx c v).losses = s.losses := rfl
@[simp] theorem State.setCx_staged (s : State) (c : Cx) (v : Ctx) : (s.setCx c v).staged = s.staged := rfl
@[simp] theorem State.setCx_stepMap (s : State) (c : Cx) (v : Ctx) : (s.setCx c v).stepMap = s.stepMap := rfl
@[simp] theorem State.setCx_coefMap (s : State) (c : Cx) (v : Ctx) : (s.setCx c v).coefMap = s.coefMap := rfl
@[simp] theorem State.setCx_nowParts (s : State) (c : Cx) (v : Ctx) : (s.setCx c v).nowParts = s.nowParts := rfl
@[simp] theorem State.setCx_tastePlan (s : State) (c : Cx) (v : Ctx) : (s.setCx c v).tastePlan = s.tastePlan := rfl
@[simp] theorem State.setCx_tastes (s : State) (c : Cx) (v : Ctx) : (s.setCx c v).tastes = s.tastes := rfl
@[simp] theorem State.setCx_descOld (s : State) (c : Cx) (v : Ctx) : (s.setCx c v).descOld = s.descOld := rfl
@[simp] theorem State.setCx_planOld (s : State) (c : Cx) (v : Ctx) : (s.setCx c v).planOld = s.planOld := rfl
@[simp] theorem State.setCx_descPrev (s : State) (c : Cx) (v : Ctx) : (s.setCx c v).descPrev = s.descPrev := rfl
@[simp] theorem State.setCx_restored (s : State) (c : Cx) (v : Ctx) : (s.setCx c v).restored = s.restored := rfl
@[simp] theorem State.setCx_estWait (s : State) (c : Cx) (v : Ctx) : (s.setCx c v).estWait = s.estWait := rfl
@[simp] theorem State.setCx_copyWait (s : State) (c : Cx) (v : Ctx) : (s.setCx c v).copyWait = s.copyWait := rfl
@[simp] theorem State.setCx_calSince (s : State) (c : Cx) (v : Ctx) : (s.setCx c v).calSince = s.calSince := rfl
@[simp] theorem State.setCx_calRows (s : State) (c : Cx) (v : Ctx) : (s.setCx c v).calRows = s.calRows := rfl
@[simp] theorem State.setCx_calBad (s : State) (c : Cx) (v : Ctx) : (s.setCx c v).calBad = s.calBad := rfl
@[simp] theorem State.setCx_calStaged (s : State) (c : Cx) (v : Ctx) : (s.setCx c v).calStaged = s.calStaged := rfl
@[simp] theorem State.setCx_calHost (s : State) (c : Cx) (v : Ctx) : (s.setCx c v).calHost = s.calHost := rfl
@[simp] theorem State.setCx_calLast (s : State) (c : Cx) (v : Ctx) : (s.setCx c v).calLast = s.calLast := rfl
@[simp] theorem State.setCx_ports (s : State) (c : Cx) (v : Ctx) : (s.setCx c v).ports = s.ports := rfl
@[simp] theorem State.setCx_poss (s : State) (c : Cx) (v : Ctx) : (s.setCx c v).poss = s.poss := rfl
@[simp] theorem State.setCx_rackSeq (s : State) (c : Cx) (v : Ctx) : (s.setCx c v).rackSeq = s.rackSeq := rfl
@[simp] theorem State.setCx_rackApplied (s : State) (c : Cx) (v : Ctx) : (s.setCx c v).rackApplied = s.rackApplied := rfl
@[simp] theorem State.setCx_rackUnacked (s : State) (c : Cx) (v : Ctx) : (s.setCx c v).rackUnacked = s.rackUnacked := rfl
@[simp] theorem State.setCx_rackProgress (s : State) (c : Cx) (v : Ctx) : (s.setCx c v).rackProgress = s.rackProgress := rfl
@[simp] theorem State.setCx_rackSent (s : State) (c : Cx) (v : Ctx) : (s.setCx c v).rackSent = s.rackSent := rfl
@[simp] theorem State.setCx_rack (s : State) (c : Cx) (v : Ctx) : (s.setCx c v).rack = s.rack := rfl
@[simp] theorem State.setCx_cellarQ (s : State) (c : Cx) (v : Ctx) : (s.setCx c v).cellarQ = s.cellarQ := rfl
@[simp] theorem State.setCx_wall (s : State) (c : Cx) (v : Ctx) : (s.setCx c v).wall = s.wall := rfl
@[simp] theorem State.setCx_ptp (s : State) (c : Cx) (v : Ctx) : (s.setCx c v).ptp = s.ptp := rfl
@[simp] theorem State.setCx_rtcFired (s : State) (c : Cx) (v : Ctx) : (s.setCx c v).rtcFired = s.rtcFired := rfl
@[simp] theorem State.setCx_opt (s : State) (c : Cx) (v : Ctx) : (s.setCx c v).opt = s.opt := rfl
@[simp] theorem State.setCx_flushFor (s : State) (c : Cx) (v : Ctx) : (s.setCx c v).flushFor = s.flushFor := rfl
@[simp] theorem State.setCx_startOk (s : State) (c : Cx) (v : Ctx) : (s.setCx c v).startOk = s.startOk := rfl
@[simp] theorem State.setCx_wdtStart (s : State) (c : Cx) (v : Ctx) : (s.setCx c v).wdtStart = s.wdtStart := rfl
@[simp] theorem State.setCx_pins (s : State) (c : Cx) (v : Ctx) : (s.setCx c v).pins = s.pins := rfl
@[simp] theorem State.setCx_cask (s : State) (c : Cx) (v : Ctx) : (s.setCx c v).cask = s.cask := rfl
@[simp] theorem State.setCx_flash (s : State) (c : Cx) (v : Ctx) : (s.setCx c v).flash = s.flash := rfl
@[simp] theorem State.setCx_scrubDue (s : State) (c : Cx) (v : Ctx) : (s.setCx c v).scrubDue = s.scrubDue := rfl
@[simp] theorem State.setCx_recReq (s : State) (c : Cx) (v : Ctx) : (s.setCx c v).recReq = s.recReq := rfl
@[simp] theorem State.setCx_cb (s : State) (c : Cx) (v : Ctx) : (s.setCx c v).cb = s.cb := rfl
@[simp] theorem State.setCx_mgt (s : State) (c : Cx) (v : Ctx) : (s.setCx c v).mgt = s.mgt := rfl
@[simp] theorem State.setCx_flush (s : State) (c : Cx) (v : Ctx) : (s.setCx c v).flush = s.flush := rfl
@[simp] theorem State.setCx_ck (s : State) (c : Cx) (v : Ctx) : (s.setCx c v).ck = s.ck := rfl
@[simp] theorem State.setCx_eng (s : State) (c : Cx) (v : Ctx) : (s.setCx c v).eng = s.eng := rfl
@[simp] theorem State.setCx_can (s : State) (c : Cx) (v : Ctx) : (s.setCx c v).can = s.can := rfl
@[simp] theorem State.setCx_lio (s : State) (c : Cx) (v : Ctx) : (s.setCx c v).lio = s.lio := rfl
@[simp] theorem State.setCx_lioF (s : State) (c : Cx) (v : Ctx) : (s.setCx c v).lioF = s.lioF := rfl
@[simp] theorem State.setCx_panel (s : State) (c : Cx) (v : Ctx) : (s.setCx c v).panel = s.panel := rfl
@[simp] theorem State.setCx_busyAcc (s : State) (c : Cx) (v : Ctx) : (s.setCx c v).busyAcc = s.busyAcc := rfl
@[simp] theorem State.setCx_linesAcc (s : State) (c : Cx) (v : Ctx) : (s.setCx c v).linesAcc = s.linesAcc := rfl

/-! ### emit -/

@[simp] theorem State.emit_pending (s : State) (m : Msg) : (s.emit m).pending = s.pending := rfl
@[simp] theorem State.emit_out (s : State) (m : Msg) : (s.emit m).out = m :: s.out := rfl
@[simp] theorem State.emit_free (s : State) (m : Msg) : (s.emit m).free = s.free := rfl
@[simp] theorem State.emit_fuses (s : State) (m : Msg) : (s.emit m).fuses = s.fuses := rfl
@[simp] theorem State.emit_regs (s : State) (m : Msg) : (s.emit m).regs = s.regs := rfl
@[simp] theorem State.emit_latHi (s : State) (m : Msg) : (s.emit m).latHi = s.latHi := rfl
@[simp] theorem State.emit_heldLo (s : State) (m : Msg) : (s.emit m).heldLo = s.heldLo := rfl
@[simp] theorem State.emit_fnRegs (s : State) (m : Msg) : (s.emit m).fnRegs = s.fnRegs := rfl
@[simp] theorem State.emit_spareNow (s : State) (m : Msg) : (s.emit m).spareNow = s.spareNow := rfl
@[simp] theorem State.emit_mem (s : State) (m : Msg) : (s.emit m).mem = s.mem := rfl
@[simp] theorem State.emit_ecc (s : State) (m : Msg) : (s.emit m).ecc = s.ecc := rfl
@[simp] theorem State.emit_lt (s : State) (m : Msg) : (s.emit m).lt = s.lt := rfl
@[simp] theorem State.emit_ltFrac (s : State) (m : Msg) : (s.emit m).ltFrac = s.ltFrac := rfl
@[simp] theorem State.emit_cycle (s : State) (m : Msg) : (s.emit m).cycle = s.cycle := rfl
@[simp] theorem State.emit_tn (s : State) (m : Msg) : (s.emit m).tn = s.tn := rfl
@[simp] theorem State.emit_started (s : State) (m : Msg) : (s.emit m).started = s.started := rfl
@[simp] theorem State.emit_applyOfs (s : State) (m : Msg) : (s.emit m).applyOfs = s.applyOfs := rfl
@[simp] theorem State.emit_modeReqPend (s : State) (m : Msg) : (s.emit m).modeReqPend = s.modeReqPend := rfl
@[simp] theorem State.emit_rows (s : State) (m : Msg) : (s.emit m).rows = s.rows := rfl
@[simp] theorem State.emit_parts (s : State) (m : Msg) : (s.emit m).parts = s.parts := rfl
@[simp] theorem State.emit_frames (s : State) (m : Msg) : (s.emit m).frames = s.frames := rfl
@[simp] theorem State.emit_ctxs (s : State) (m : Msg) : (s.emit m).ctxs = s.ctxs := rfl
@[simp] theorem State.emit_inflight (s : State) (m : Msg) : (s.emit m).inflight = s.inflight := rfl
@[simp] theorem State.emit_tagEpochs (s : State) (m : Msg) : (s.emit m).tagEpochs = s.tagEpochs := rfl
@[simp] theorem State.emit_scalarCmds (s : State) (m : Msg) : (s.emit m).scalarCmds = s.scalarCmds := rfl
@[simp] theorem State.emit_triggers (s : State) (m : Msg) : (s.emit m).triggers = s.triggers := rfl
@[simp] theorem State.emit_rfxMet (s : State) (m : Msg) : (s.emit m).rfxMet = s.rfxMet := rfl
@[simp] theorem State.emit_heldGrants (s : State) (m : Msg) : (s.emit m).heldGrants = s.heldGrants := rfl
@[simp] theorem State.emit_evLatch (s : State) (m : Msg) : (s.emit m).evLatch = s.evLatch := rfl
@[simp] theorem State.emit_msix (s : State) (m : Msg) : (s.emit m).msix = s.msix := rfl
@[simp] theorem State.emit_msixEn (s : State) (m : Msg) : (s.emit m).msixEn = s.msixEn := rfl
@[simp] theorem State.emit_msixFmask (s : State) (m : Msg) : (s.emit m).msixFmask = s.msixFmask := rfl
@[simp] theorem State.emit_vfs (s : State) (m : Msg) : (s.emit m).vfs = s.vfs := rfl
@[simp] theorem State.emit_hq (s : State) (m : Msg) : (s.emit m).hq = s.hq := rfl
@[simp] theorem State.emit_snaps (s : State) (m : Msg) : (s.emit m).snaps = s.snaps := rfl
@[simp] theorem State.emit_noticePend (s : State) (m : Msg) : (s.emit m).noticePend = s.noticePend := rfl
@[simp] theorem State.emit_almSeen (s : State) (m : Msg) : (s.emit m).almSeen = s.almSeen := rfl
@[simp] theorem State.emit_almIssued (s : State) (m : Msg) : (s.emit m).almIssued = s.almIssued := rfl
@[simp] theorem State.emit_undone (s : State) (m : Msg) : (s.emit m).undone = s.undone := rfl
@[simp] theorem State.emit_chx (s : State) (m : Msg) : (s.emit m).chx = s.chx := rfl
@[simp] theorem State.emit_ledgQ (s : State) (m : Msg) : (s.emit m).ledgQ = s.ledgQ := rfl
@[simp] theorem State.emit_ledgBuses (s : State) (m : Msg) : (s.emit m).ledgBuses = s.ledgBuses := rfl
@[simp] theorem State.emit_rowMeas (s : State) (m : Msg) : (s.emit m).rowMeas = s.rowMeas := rfl
@[simp] theorem State.emit_losses (s : State) (m : Msg) : (s.emit m).losses = s.losses := rfl
@[simp] theorem State.emit_staged (s : State) (m : Msg) : (s.emit m).staged = s.staged := rfl
@[simp] theorem State.emit_stepMap (s : State) (m : Msg) : (s.emit m).stepMap = s.stepMap := rfl
@[simp] theorem State.emit_coefMap (s : State) (m : Msg) : (s.emit m).coefMap = s.coefMap := rfl
@[simp] theorem State.emit_nowParts (s : State) (m : Msg) : (s.emit m).nowParts = s.nowParts := rfl
@[simp] theorem State.emit_tastePlan (s : State) (m : Msg) : (s.emit m).tastePlan = s.tastePlan := rfl
@[simp] theorem State.emit_tastes (s : State) (m : Msg) : (s.emit m).tastes = s.tastes := rfl
@[simp] theorem State.emit_descOld (s : State) (m : Msg) : (s.emit m).descOld = s.descOld := rfl
@[simp] theorem State.emit_planOld (s : State) (m : Msg) : (s.emit m).planOld = s.planOld := rfl
@[simp] theorem State.emit_descPrev (s : State) (m : Msg) : (s.emit m).descPrev = s.descPrev := rfl
@[simp] theorem State.emit_restored (s : State) (m : Msg) : (s.emit m).restored = s.restored := rfl
@[simp] theorem State.emit_estWait (s : State) (m : Msg) : (s.emit m).estWait = s.estWait := rfl
@[simp] theorem State.emit_copyWait (s : State) (m : Msg) : (s.emit m).copyWait = s.copyWait := rfl
@[simp] theorem State.emit_calSince (s : State) (m : Msg) : (s.emit m).calSince = s.calSince := rfl
@[simp] theorem State.emit_calRows (s : State) (m : Msg) : (s.emit m).calRows = s.calRows := rfl
@[simp] theorem State.emit_calBad (s : State) (m : Msg) : (s.emit m).calBad = s.calBad := rfl
@[simp] theorem State.emit_calStaged (s : State) (m : Msg) : (s.emit m).calStaged = s.calStaged := rfl
@[simp] theorem State.emit_calHost (s : State) (m : Msg) : (s.emit m).calHost = s.calHost := rfl
@[simp] theorem State.emit_calLast (s : State) (m : Msg) : (s.emit m).calLast = s.calLast := rfl
@[simp] theorem State.emit_ports (s : State) (m : Msg) : (s.emit m).ports = s.ports := rfl
@[simp] theorem State.emit_poss (s : State) (m : Msg) : (s.emit m).poss = s.poss := rfl
@[simp] theorem State.emit_rackSeq (s : State) (m : Msg) : (s.emit m).rackSeq = s.rackSeq := rfl
@[simp] theorem State.emit_rackApplied (s : State) (m : Msg) : (s.emit m).rackApplied = s.rackApplied := rfl
@[simp] theorem State.emit_rackUnacked (s : State) (m : Msg) : (s.emit m).rackUnacked = s.rackUnacked := rfl
@[simp] theorem State.emit_rackProgress (s : State) (m : Msg) : (s.emit m).rackProgress = s.rackProgress := rfl
@[simp] theorem State.emit_rackSent (s : State) (m : Msg) : (s.emit m).rackSent = s.rackSent := rfl
@[simp] theorem State.emit_rack (s : State) (m : Msg) : (s.emit m).rack = s.rack := rfl
@[simp] theorem State.emit_cellarQ (s : State) (m : Msg) : (s.emit m).cellarQ = s.cellarQ := rfl
@[simp] theorem State.emit_wall (s : State) (m : Msg) : (s.emit m).wall = s.wall := rfl
@[simp] theorem State.emit_ptp (s : State) (m : Msg) : (s.emit m).ptp = s.ptp := rfl
@[simp] theorem State.emit_rtcFired (s : State) (m : Msg) : (s.emit m).rtcFired = s.rtcFired := rfl
@[simp] theorem State.emit_opt (s : State) (m : Msg) : (s.emit m).opt = s.opt := rfl
@[simp] theorem State.emit_flushFor (s : State) (m : Msg) : (s.emit m).flushFor = s.flushFor := rfl
@[simp] theorem State.emit_startOk (s : State) (m : Msg) : (s.emit m).startOk = s.startOk := rfl
@[simp] theorem State.emit_wdtStart (s : State) (m : Msg) : (s.emit m).wdtStart = s.wdtStart := rfl
@[simp] theorem State.emit_pins (s : State) (m : Msg) : (s.emit m).pins = s.pins := rfl
@[simp] theorem State.emit_cask (s : State) (m : Msg) : (s.emit m).cask = s.cask := rfl
@[simp] theorem State.emit_flash (s : State) (m : Msg) : (s.emit m).flash = s.flash := rfl
@[simp] theorem State.emit_scrubDue (s : State) (m : Msg) : (s.emit m).scrubDue = s.scrubDue := rfl
@[simp] theorem State.emit_recReq (s : State) (m : Msg) : (s.emit m).recReq = s.recReq := rfl
@[simp] theorem State.emit_cb (s : State) (m : Msg) : (s.emit m).cb = s.cb := rfl
@[simp] theorem State.emit_mgt (s : State) (m : Msg) : (s.emit m).mgt = s.mgt := rfl
@[simp] theorem State.emit_flush (s : State) (m : Msg) : (s.emit m).flush = s.flush := rfl
@[simp] theorem State.emit_ck (s : State) (m : Msg) : (s.emit m).ck = s.ck := rfl
@[simp] theorem State.emit_eng (s : State) (m : Msg) : (s.emit m).eng = s.eng := rfl
@[simp] theorem State.emit_can (s : State) (m : Msg) : (s.emit m).can = s.can := rfl
@[simp] theorem State.emit_lio (s : State) (m : Msg) : (s.emit m).lio = s.lio := rfl
@[simp] theorem State.emit_lioF (s : State) (m : Msg) : (s.emit m).lioF = s.lioF := rfl
@[simp] theorem State.emit_panel (s : State) (m : Msg) : (s.emit m).panel = s.panel := rfl
@[simp] theorem State.emit_busyAcc (s : State) (m : Msg) : (s.emit m).busyAcc = s.busyAcc := rfl
@[simp] theorem State.emit_linesAcc (s : State) (m : Msg) : (s.emit m).linesAcc = s.linesAcc := rfl

end Sys2Proof.Machine
end

