-- ==== Sys2Proof/Laws/Store.lean ====
section
/-! SUPPORT. Laws of the sparse stores, of bit fields and of little-endian bytes. -/

namespace Sys2Proof.Machine

/-! ### Read after write -/

theorem SMap.get_ins_same {α : Type} (d : Nat → α) (k : Nat) (v : α) (m : SMap α) : SMap.get d (SMap.ins k v m) k = v := by
  induction m with
  | nil => simp [SMap.ins, SMap.get]
  | cons e m ih =>
    obtain ⟨k', v'⟩ := e
    simp only [SMap.ins]
    split
    · simp [SMap.get]
    · split <;> simp_all [SMap.get]

theorem SMap.get_ins_other {α : Type} (d : Nat → α) {k q : Nat} (v : α) (m : SMap α) (h : q ≠ k) :
    SMap.get d (SMap.ins k v m) q = SMap.get d m q := by
  induction m with
  | nil => simp [SMap.ins, SMap.get, h]
  | cons e m ih =>
    obtain ⟨k', v'⟩ := e
    simp only [SMap.ins]
    split
    · next hk => subst hk; simp [SMap.get, h]
    · split
      · simp [SMap.get, h]
      · simp [SMap.get, ih]

theorem SMap.get_del_same {α : Type} (d : Nat → α) (k : Nat) (m : SMap α) : SMap.get d (SMap.del k m) k = d k := by
  induction m with
  | nil => rfl
  | cons e m ih =>
    obtain ⟨k', v'⟩ := e
    by_cases hk : k' = k
    · simpa [SMap.del, hk] using ih
    · have : k ≠ k' := fun h => hk h.symm
      simpa [SMap.del, hk, SMap.get, this] using ih

theorem SMap.get_del_other {α : Type} (d : Nat → α) {k q : Nat} (m : SMap α) (h : q ≠ k) :
    SMap.get d (SMap.del k m) q = SMap.get d m q := by
  induction m with
  | nil => rfl
  | cons e m ih =>
    obtain ⟨k', v'⟩ := e
    by_cases hk : k' = k
    · subst hk
      simpa [SMap.del, SMap.get, h] using ih
    · simp only [SMap.del] at ih
      by_cases hq : q = k'
      · simp [SMap.del, hk, SMap.get, hq]
      · simpa [SMap.del, hk, SMap.get, hq] using ih

@[simp] theorem SMap.get_put_same {α : Type} [DecidableEq α] (d : Nat → α) (k : Nat) (v : α) (m : SMap α) :
    SMap.get d (SMap.put d k v m) k = v := by
  unfold SMap.put
  split
  · next h => rw [SMap.get_del_same, h]
  · exact SMap.get_ins_same d k v m

theorem SMap.get_put_other {α : Type} [DecidableEq α] (d : Nat → α) {k q : Nat} (v : α) (m : SMap α) (h : q ≠ k) :
    SMap.get d (SMap.put d k v m) q = SMap.get d m q := by
  unfold SMap.put
  split
  · exact SMap.get_del_other d m h
  · exact SMap.get_ins_other d v m h

/-- A write says once what every read after it gives. -/
theorem SMap.get_put {α : Type} [DecidableEq α] (d : Nat → α) (k q : Nat) (v : α) (m : SMap α) :
    SMap.get d (SMap.put d k v m) q = if q = k then v else SMap.get d m q := by
  split
  · next h => subst h; exact SMap.get_put_same d q v m
  · next h => exact SMap.get_put_other d v m h

/-- Clearing a range gives its keys their unlisted value, and leaves every other key. -/
theorem SMap.get_clearRange {α : Type} (d : Nat → α) (lo hi q : Nat) (m : SMap α) :
    SMap.get d (SMap.clearRange lo hi m) q = if lo ≤ q ∧ q < hi then d q else SMap.get d m q := by
  induction m with
  | nil => simp [SMap.clearRange, SMap.get]
  | cons e m ih =>
    obtain ⟨k, v⟩ := e
    unfold SMap.clearRange at ih ⊢
    by_cases hk : k < lo ∨ hi ≤ k
    · rw [List.filter_cons_of_pos (by simpa using hk)]
      simp only [SMap.get]
      by_cases hq : q = k
      · subst hq
        have : ¬ (lo ≤ q ∧ q < hi) := by omega
        simp [this]
      · simp only [hq, if_false]
        exact ih
    · rw [List.filter_cons_of_neg (by simpa using hk)]
      simp only [SMap.get]
      rw [ih]
      by_cases hq : q = k
      · subst hq
        have : lo ≤ q ∧ q < hi := by omega
        simp [this]
      · simp [hq]

/-! ### The canonical form -/

theorem SMap.wfFrom_mono {α : Type} [DecidableEq α] (d : Nat → α) {b c : Nat} (m : SMap α) (h : c ≤ b)
    (w : SMap.wfFrom d b m = true) : SMap.wfFrom d c m = true := by
  cases m with
  | nil => rfl
  | cons e m =>
    obtain ⟨k, v⟩ := e
    simp only [SMap.wfFrom, Bool.and_eq_true, decide_eq_true_eq] at w ⊢
    exact ⟨by omega, w.2⟩

theorem SMap.wfFrom_filter {α : Type} [DecidableEq α] (d : Nat → α) (p : Nat × α → Bool) :
    ∀ (b : Nat) (m : SMap α), SMap.wfFrom d b m = true → SMap.wfFrom d b (m.filter p) = true
  | _, [], _ => rfl
  | b, (k, v) :: m, w => by
    simp only [SMap.wfFrom, Bool.and_eq_true, decide_eq_true_eq] at w
    have ih := SMap.wfFrom_filter d p (k + 1) m w.2.2
    by_cases hp : p (k, v) = true
    · rw [List.filter_cons_of_pos hp]
      simp only [SMap.wfFrom, Bool.and_eq_true, decide_eq_true_eq]
      exact ⟨w.1, w.2.1, ih⟩
    · rw [List.filter_cons_of_neg hp]
      exact SMap.wfFrom_mono d _ (by omega) ih

theorem SMap.wfFrom_ins {α : Type} [DecidableEq α] (d : Nat → α) (k : Nat) (v : α) (hv : v ≠ d k) :
    ∀ (b : Nat) (m : SMap α), b ≤ k → SMap.wfFrom d b m = true → SMap.wfFrom d b (SMap.ins k v m) = true
  | b, [], hb, _ => by simp [SMap.ins, SMap.wfFrom, hb, hv]
  | b, (k', v') :: m, hb, w => by
    simp only [SMap.wfFrom, Bool.and_eq_true, decide_eq_true_eq] at w
    simp only [SMap.ins]
    split
    · next h => subst h; simp [SMap.wfFrom, hb, hv, w.2.2]
    · split
      · next h1 h2 =>
        simp only [SMap.wfFrom, Bool.and_eq_true, decide_eq_true_eq]
        exact ⟨hb, hv, by omega, w.2.1, w.2.2⟩
      · next h1 h2 =>
        simp only [SMap.wfFrom, Bool.and_eq_true, decide_eq_true_eq]
        exact ⟨w.1, w.2.1, SMap.wfFrom_ins d k v hv (k' + 1) m (by omega) w.2.2⟩

/-- A write keeps the canonical form. -/
theorem SMap.wf_put {α : Type} [DecidableEq α] (d : Nat → α) (k : Nat) (v : α) (m : SMap α) (w : SMap.wf d m = true) :
    SMap.wf d (SMap.put d k v m) = true := by
  unfold SMap.put
  split
  · exact SMap.wfFrom_filter d _ 0 m w
  · next h => exact SMap.wfFrom_ins d k v h 0 m (Nat.zero_le k) w

/-- Dropping entries keeps the canonical form. -/
theorem SMap.wf_filter {α : Type} [DecidableEq α] (d : Nat → α) (p : Nat × α → Bool) (m : SMap α) (w : SMap.wf d m = true) :
    SMap.wf d (m.filter p) = true := SMap.wfFrom_filter d p 0 m w

theorem SMap.wf_clearRange {α : Type} [DecidableEq α] (d : Nat → α) (lo hi : Nat) (m : SMap α) (w : SMap.wf d m = true) :
    SMap.wf d (SMap.clearRange lo hi m) = true := SMap.wfFrom_filter d _ 0 m w

@[simp] theorem SMap.wf_nil {α : Type} [DecidableEq α] (d : Nat → α) : SMap.wf d ([] : SMap α) = true := rfl

/-- The keys of a written store: those listed before, and the one written. -/
theorem SMap.mem_put {α : Type} [DecidableEq α] (d : Nat → α) (k : Nat) (v : α) (m : SMap α) (e : Nat × α)
    (h : e ∈ SMap.put d k v m) : e.1 = k ∨ e ∈ m := by
  unfold SMap.put at h
  split at h
  · exact .inr (List.mem_filter.1 h).1
  · induction m with
    | nil => simp only [SMap.ins, List.mem_singleton] at h; exact .inl (by rw [h])
    | cons x m ih =>
      obtain ⟨k', v'⟩ := x
      simp only [SMap.ins] at h
      split at h
      · rcases List.mem_cons.1 h with h | h
        · exact .inl (by rw [h])
        · exact .inr (List.mem_cons_of_mem _ h)
      · split at h
        · rcases List.mem_cons.1 h with h | h
          · exact .inl (by rw [h])
          · exact .inr h
        · rcases List.mem_cons.1 h with h | h
          · exact .inr (h ▸ List.mem_cons_self)
          · rcases ih h with h | h
            · exact .inl h
            · exact .inr (List.mem_cons_of_mem _ h)

/-! ### Byte memories of frames and scratch -/

@[simp] theorem Mem.rd_wr_same (m : Mem) (a : Nat) (b : Byte) : (Mem.wr m a b).rd a = b := SMap.get_put_same _ _ _ _

theorem Mem.rd_wr_other (m : Mem) {a q : Nat} (b : Byte) (h : q ≠ a) : (Mem.wr m a b).rd q = m.rd q := SMap.get_put_other _ _ _ h

theorem Mem.wf_wr (m : Mem) (a : Nat) (b : Byte) (w : Memory.wf m) : Memory.wf (Mem.wr m a b) := SMap.wf_put _ _ _ _ w

theorem Mem.wf_wrList (l : List Byte) : ∀ (m : Mem) (a : Nat), Memory.wf m → Memory.wf (Mem.wrList m a l) := by
  induction l with
  | nil => exact fun _ _ w => w
  | cons b l ih => exact fun m a w => ih _ _ (Mem.wf_wr m a b w)

theorem Mem.wf_wrLE (n : Nat) : ∀ (m : Mem) (a v : Nat), Memory.wf m → Memory.wf (Mem.wrLE m a n v) := by
  induction n with
  | zero => exact fun _ _ _ w => w
  | succ n ih => exact fun m a v w => ih _ _ _ (Mem.wf_wr m a _ w)

theorem Mem.rd_wrList_below (l : List Byte) : ∀ (m : Mem) (a q : Nat), q < a → (Mem.wrList m a l).rd q = m.rd q := by
  induction l with
  | nil => exact fun _ _ _ _ => rfl
  | cons b l ih =>
    intro m a q h
    simp only [Mem.wrList]
    rw [ih _ _ _ (by omega), Mem.rd_wr_other _ _ (by omega)]

/-- A write of a byte list says once what every read after it gives. -/
theorem Mem.rd_wrList (l : List Byte) : ∀ (m : Mem) (a q : Nat),
    (Mem.wrList m a l).rd q = if a ≤ q ∧ q < a + l.length then l.getD (q - a) 0 else m.rd q := by
  induction l with
  | nil => intro m a q; simp only [Mem.wrList, List.length_nil]; rw [if_neg (by omega)]
  | cons b l ih =>
    intro m a q
    simp only [Mem.wrList, List.length_cons]
    by_cases hq : q = a
    · subst hq
      rw [Mem.rd_wrList_below l _ _ _ (by omega), Mem.rd_wr_same, if_pos (by omega)]
      simp
    · rw [ih, Mem.rd_wr_other _ _ hq]
      by_cases h : a + 1 ≤ q ∧ q < a + 1 + l.length
      · rw [if_pos h, if_pos (by omega), show q - a = (q - (a + 1)) + 1 by omega, List.getD_cons_succ]
      · rw [if_neg h, if_neg (by omega)]

/-! ### Little-endian bytes -/

@[simp] theorem length_leBytes (n v : Nat) : (leBytes n v).length = n := by
  induction n generalizing v with
  | zero => rfl
  | succ n ih => simp [leBytes, ih]

@[simp] theorem ofLE_leBytes (n v : Nat) : ofLE (leBytes n v) = v % 2 ^ (8 * n) := by
  induction n generalizing v with
  | zero => simp [leBytes, ofLE, Nat.mod_one]
  | succ n ih =>
    have h : (2 : Nat) ^ (8 * (n + 1)) = 256 * 2 ^ (8 * n) := by rw [Nat.mul_add, Nat.pow_add]; simp [Nat.mul_comm]
    simp only [leBytes, ofLE, ih, BitVec.toNat_ofNat, h]
    have := Nat.mod_mul (x := v) (a := 256) (b := 2 ^ (8 * n))
    omega

theorem ofLE_lt (l : List Byte) : ofLE l < 2 ^ (8 * l.length) := by
  induction l with
  | nil => simp [ofLE]
  | cons b l ih =>
    have h : (2 : Nat) ^ (8 * (l.length + 1)) = 256 * 2 ^ (8 * l.length) := by rw [Nat.mul_add, Nat.pow_add]; simp [Nat.mul_comm]
    simp only [ofLE, List.length_cons, h]
    have := b.isLt
    omega

/-! ### Bit fields -/

theorem bitsOf_lt (v hi lo : Nat) : bitsOf v hi lo < 2 ^ (hi + 1 - lo) := Nat.mod_lt _ (Nat.two_pow_pos _)

theorem bitsOf_testBit (v hi lo i : Nat) : (bitsOf v hi lo).testBit i = (decide (i < hi + 1 - lo) && v.testBit (lo + i)) := by
  unfold bitsOf
  rw [Nat.testBit_mod_two_pow, Nat.testBit_div_two_pow, Nat.add_comm i lo]

/-- Bit by bit, what a field write gives. -/
theorem setBits_testBit (v hi lo x i : Nat) (h : lo ≤ hi) :
    (setBits v hi lo x).testBit i = if lo ≤ i ∧ i ≤ hi then x.testBit (i - lo) else v.testBit i := by
  have hv : v = v / 2 ^ (hi + 1) * 2 ^ (hi + 1) + bitsOf v hi lo * 2 ^ lo + v % 2 ^ lo := by
    have e : (2 : Nat) ^ (hi + 1) = 2 ^ lo * 2 ^ (hi + 1 - lo) := by rw [← Nat.pow_add]; congr 1; omega
    have h1 : v = 2 ^ lo * (v / 2 ^ lo) + v % 2 ^ lo := (Nat.div_add_mod v (2 ^ lo)).symm
    have h2 : v / 2 ^ lo = 2 ^ (hi + 1 - lo) * (v / 2 ^ lo / 2 ^ (hi + 1 - lo)) + v / 2 ^ lo % 2 ^ (hi + 1 - lo) :=
      (Nat.div_add_mod _ _).symm
    have h3 : v / 2 ^ lo / 2 ^ (hi + 1 - lo) = v / 2 ^ (hi + 1) := by rw [Nat.div_div_eq_div_mul, ← e]
    unfold bitsOf
    rw [h3] at h2
    calc v = 2 ^ lo * (v / 2 ^ lo) + v % 2 ^ lo := h1
      _ = 2 ^ lo * (2 ^ (hi + 1 - lo) * (v / 2 ^ (hi + 1)) + v / 2 ^ lo % 2 ^ (hi + 1 - lo)) + v % 2 ^ lo := by rw [← h2]
      _ = _ := by rw [e, Nat.mul_add, ← Nat.mul_assoc, Nat.mul_comm (2 ^ lo * _) (v / _), Nat.mul_comm (2 ^ lo) (v / 2 ^ lo % _)]
  have hs : setBits v hi lo x = v / 2 ^ (hi + 1) * 2 ^ (hi + 1) + (x % 2 ^ (hi + 1 - lo) * 2 ^ lo + v % 2 ^ lo) := by
    unfold setBits
    generalize hb : bitsOf v hi lo * 2 ^ lo = b at *
    generalize v / 2 ^ (hi + 1) * 2 ^ (hi + 1) = a at *
    generalize x % 2 ^ (hi + 1 - lo) * 2 ^ lo = c at *
    generalize hr : v % 2 ^ lo = r at *
    omega
  have lt1 : x % 2 ^ (hi + 1 - lo) * 2 ^ lo + v % 2 ^ lo < 2 ^ (hi + 1) := by
    have e : (2 : Nat) ^ (hi + 1) = 2 ^ (hi + 1 - lo) * 2 ^ lo := by rw [← Nat.pow_add]; congr 1; omega
    have a1 := Nat.mod_lt x (Nat.two_pow_pos (hi + 1 - lo))
    have a2 := Nat.mod_lt v (Nat.two_pow_pos lo)
    rw [e]
    calc _ < x % 2 ^ (hi + 1 - lo) * 2 ^ lo + 2 ^ lo := by omega
      _ = (x % 2 ^ (hi + 1 - lo) + 1) * 2 ^ lo := by rw [Nat.add_mul, Nat.one_mul]
      _ ≤ _ := Nat.mul_le_mul_right _ a1
  rw [hs, Nat.mul_comm (v / 2 ^ (hi + 1)), Nat.testBit_two_pow_mul_add _ lt1]
  by_cases h1 : i < hi + 1
  · rw [if_pos h1, Nat.mul_comm (x % _), Nat.testBit_two_pow_mul_add _ (Nat.mod_lt v (Nat.two_pow_pos lo))]
    by_cases h2 : i < lo
    · rw [if_pos h2, if_neg (by omega), Nat.testBit_mod_two_pow]
      simp [h2]
    · rw [if_neg h2, if_pos (by omega), Nat.testBit_mod_two_pow]
      simp [show i - lo < hi + 1 - lo by omega]
  · rw [if_neg h1, if_neg (by omega), Nat.testBit_div_two_pow]
    congr 1
    omega

/-- Reading the field written gives what was written, cut to the field's width. -/
theorem bitsOf_setBits_same (v hi lo x : Nat) (h : lo ≤ hi) : bitsOf (setBits v hi lo x) hi lo = x % 2 ^ (hi + 1 - lo) := by
  apply Nat.eq_of_testBit_eq
  intro i
  rw [bitsOf_testBit, setBits_testBit _ _ _ _ _ h, Nat.testBit_mod_two_pow]
  by_cases hi' : i < hi + 1 - lo
  · rw [if_pos (by omega)]; simp
  · simp [hi']

/-- Reading a field apart from the one written gives what it held. -/
theorem bitsOf_setBits_other (v hi lo hi' lo' x : Nat) (h : lo ≤ hi) (h' : hi < lo' ∨ hi' < lo) :
    bitsOf (setBits v hi lo x) hi' lo' = bitsOf v hi' lo' := by
  apply Nat.eq_of_testBit_eq
  intro i
  rw [bitsOf_testBit, bitsOf_testBit, setBits_testBit _ _ _ _ _ h]
  by_cases hi' : i < hi' + 1 - lo'
  · rw [if_neg (by omega)]
  · simp [hi']

theorem setBits_lt (v hi lo x n : Nat) (h : lo ≤ hi) (hn : hi < n) (hv : v < 2 ^ n) : setBits v hi lo x < 2 ^ n := by
  apply Nat.lt_pow_two_of_testBit
  intro i hi'
  rw [setBits_testBit _ _ _ _ _ h, if_neg (by omega)]
  exact Nat.testBit_lt_two_pow (Nat.lt_of_lt_of_le hv (Nat.pow_le_pow_right (by decide) hi'))

/-- One bit of the CRC-32 stays within 32 bits. -/
theorem crc32Bit_lt (c : Nat) (h : c < 2 ^ 32) : crc32Bit c < 2 ^ 32 := by
  unfold crc32Bit
  split
  · exact Nat.xor_lt_two_pow (by omega) (by decide)
  · omega

/-- The CRC-32 of any bytes is a word. -/
theorem crc32_lt (l : List Byte) : crc32 l < 2 ^ 32 := by
  have h : ∀ (l : List Byte) (c : Nat), c < 2 ^ 32 → l.foldl crc32Byte c < 2 ^ 32 := by
    intro l
    induction l with
    | nil => exact fun c hc => hc
    | cons b l ih =>
      intro c hc
      refine ih _ ?_
      unfold crc32Byte
      iterate 8 refine crc32Bit_lt _ ?_
      exact Nat.xor_lt_two_pow hc (Nat.lt_trans b.isLt (by decide))
  exact Nat.xor_lt_two_pow (h l _ (by decide)) (by decide)

end Sys2Proof.Machine
end

