-- ==== Sys2Proof/Laws/Ops.lean ====
section
/-! SUPPORT. What the shared operations over registers, stores, contexts, events and records do, said once for each. -/

namespace Sys2Proof.Machine

/-! ### Registers and their fields -/

/-- A register write says once what every read after it gives. -/
theorem State.reg_setReg (s : State) (o q : Nat) (v : Word) : (s.setReg o v).reg q = if q = o then v else s.reg q :=
  SMap.get_put _ _ _ _ _

@[simp] theorem State.reg_setReg_same (s : State) (o : Nat) (v : Word) : (s.setReg o v).reg o = v := SMap.get_put_same _ _ _ _

theorem State.reg_setReg_other (s : State) {o q : Nat} (v : Word) (h : q ≠ o) : (s.setReg o v).reg q = s.reg q :=
  SMap.get_put_other _ _ _ h

theorem State.reg_fset_other (s : State) {f : Fld} {q : Nat} (v : Nat) (h : q ≠ f.off) : (s.fset f v).reg q = s.reg q :=
  SMap.get_put_other _ _ _ h

theorem State.toNat_reg_fset (s : State) (f : Fld) (v : Nat) (h : f.lo ≤ f.hi) (w : f.hi < 32) :
    ((s.fset f v).reg f.off).toNat = setBits (s.reg f.off).toNat f.hi f.lo v := by
  unfold State.fset
  rw [State.reg_setReg_same, BitVec.toNat_ofNat, Nat.mod_eq_of_lt (setBits_lt _ _ _ _ _ h w (s.reg f.off).isLt)]

/-- Reading a field just written gives the value, cut to the field's width. -/
theorem State.fget_fset_same (s : State) (f : Fld) (v : Nat) (h : f.lo ≤ f.hi) (w : f.hi < 32) :
    (s.fset f v).fget f = v % 2 ^ (f.hi + 1 - f.lo) := by
  unfold State.fget
  rw [State.toNat_reg_fset s f v h w, bitsOf_setBits_same _ _ _ _ h]

/-- Reading a field of another register, or of bits apart from those written, gives what it held. -/
theorem State.fget_fset_other (s : State) (f g : Fld) (v : Nat) (h : f.lo ≤ f.hi) (w : f.hi < 32)
    (d : g.off ≠ f.off ∨ f.hi < g.lo ∨ g.hi < f.lo) : (s.fset f v).fget g = s.fget g := by
  unfold State.fget
  by_cases e : g.off = f.off
  · rw [e, State.toNat_reg_fset s f v h w, bitsOf_setBits_other _ _ _ _ _ _ h (d.resolve_left (fun n => n e))]
  · rw [State.reg_fset_other s v e]

theorem State.fget_lt (s : State) (f : Fld) : s.fget f < 2 ^ (f.hi + 1 - f.lo) := bitsOf_lt _ _ _

/-- A saturating count (R198). -/
theorem State.fget_fsat (s : State) (f : Fld) (h : f.lo ≤ f.hi) (w : f.hi < 32) :
    (s.fsat f).fget f = min (s.fget f + 1) (2 ^ (f.hi + 1 - f.lo) - 1) := by
  have := s.fget_lt f
  unfold State.fsat
  split
  · next hlt => rw [State.fget_fset_same s f _ h w, Nat.mod_eq_of_lt hlt]; omega
  · omega

/-- A wrapping count (R198). -/
theorem State.fget_fwrap (s : State) (f : Fld) (h : f.lo ≤ f.hi) (w : f.hi < 32) :
    (s.fwrap f).fget f = (s.fget f + 1) % 2 ^ (f.hi + 1 - f.lo) := State.fget_fset_same s f _ h w

/-- Changes of registers alone, one after the other. -/
theorem State.regsOnly_trans {s t u : State} (h : t = { s with regs := t.regs }) (k : u = { t with regs := u.regs }) :
    u = { s with regs := u.regs } := by
  rw [k, h]

theorem State.fset_only (s : State) (f : Fld) (v : Nat) : s.fset f v = { s with regs := (s.fset f v).regs } := rfl

theorem State.fsat_only (s : State) (f : Fld) :
    s.fsat f = { s with regs := (s.fsat f).regs } ∧ ∀ q, q ≠ f.off → (s.fsat f).reg q = s.reg q := by
  unfold State.fsat
  split
  · exact ⟨rfl, fun q h => State.reg_fset_other s _ h⟩
  · exact ⟨rfl, fun _ _ => rfl⟩

theorem State.fwrap_only (s : State) (f : Fld) :
    s.fwrap f = { s with regs := (s.fwrap f).regs } ∧ ∀ q, q ≠ f.off → (s.fwrap f).reg q = s.reg q :=
  ⟨rfl, fun _ h => State.reg_fset_other s _ h⟩

@[simp] theorem State.when_true (s : State) (f : State → State) : s.when true f = f s := rfl
@[simp] theorem State.when_false (s : State) (f : State → State) : s.when false f = s := rfl

/-- A property that a change keeps is kept where the change is made under a condition. -/
theorem State.when_keeps {p : State → Prop} {s : State} {f : State → State} (b : Bool) (h : p s) (k : p (f s)) : p (s.when b f) := by
  cases b <;> assumption

/-- A property that each change of a list keeps is kept by all of them in turn. -/
theorem State.foldl_keeps {α : Type} {p : State → Prop} {f : State → α → State} (k : ∀ s a, p s → p (f s a)) :
    ∀ (l : List α) (s : State), p s → p (l.foldl f s)
  | [], _, h => h
  | a :: l, s, h => State.foldl_keeps k l (f s a) (k s a h)

/-! ### The stores -/

theorem State.rdB_wrB (s : State) (a q : Nat) (b : Byte) : (s.wrB a b).rdB q = if q = a then b else s.rdB q :=
  SMap.get_put _ _ _ _ _

theorem State.wrBytes_only (l : List Byte) : ∀ (s : State) (a : Nat), s.wrBytes a l = { s with mem := (s.wrBytes a l).mem } := by
  induction l with
  | nil => exact fun _ _ => rfl
  | cons b l ih => intro s a; simp only [State.wrBytes]; rw [ih]; rfl

/-- A write of bytes says once what every read after it gives. -/
theorem State.rdB_wrBytes (l : List Byte) : ∀ (s : State) (a q : Nat),
    (s.wrBytes a l).rdB q = if a ≤ q ∧ q < a + l.length then l.getD (q - a) 0 else s.rdB q := by
  induction l with
  | nil => intro s a q; rw [if_neg (by simp only [List.length_nil]; omega)]; rfl
  | cons b l ih =>
    intro s a q
    simp only [State.wrBytes, List.length_cons]
    rw [ih, State.rdB_wrB]
    by_cases hq : q = a
    · subst hq
      rw [if_neg (by omega), if_pos rfl, if_pos (by omega)]
      simp
    · rw [if_neg hq]
      by_cases h : a + 1 ≤ q ∧ q < a + 1 + l.length
      · rw [if_pos h, if_pos (by omega), show q - a = (q - (a + 1)) + 1 by omega, List.getD_cons_succ]
      · rw [if_neg h, if_neg (by omega)]

/-! ### The canonical form -/

theorem State.memWf_wrB (s : State) (a : Nat) (b : Byte) (w : s.memWf) : (s.wrB a b).memWf := SMap.wf_put _ _ _ _ w

theorem State.memWf_wrBytes (l : List Byte) : ∀ (s : State) (a : Nat), s.memWf → (s.wrBytes a l).memWf := by
  induction l with
  | nil => exact fun _ _ w => w
  | cons b l ih => exact fun s a w => ih _ _ (State.memWf_wrB s a b w)

theorem State.memWf_wrLE (s : State) (a n v : Nat) (w : s.memWf) : (s.wrLE a n v).memWf := State.memWf_wrBytes _ s a w

theorem State.memWf_reset : State.reset.memWf := rfl

/-- The canonical form of the register file. -/
abbrev State.regsWf (s : State) : Prop := SMap.wf regReset s.regs = true

theorem State.regsWf_setReg (s : State) (o : Nat) (v : Word) (w : s.regsWf) : (s.setReg o v).regsWf := SMap.wf_put _ _ _ _ w

theorem State.regsWf_fset (s : State) (f : Fld) (v : Nat) (w : s.regsWf) : (s.fset f v).regsWf := SMap.wf_put _ _ _ _ w

theorem State.regsWf_fsat (s : State) (f : Fld) (w : s.regsWf) : (s.fsat f).regsWf := by
  unfold State.fsat
  split
  · exact State.regsWf_fset s f _ w
  · exact w

theorem State.regsWf_reset : State.reset.regsWf := rfl

/-- Scheduler data is kept for rows that exist alone. -/
theorem State.setRow_rowsOk (s : State) (r : Nat) (v : RowSt) (w : ∀ e ∈ s.rows, e.1 < 512) : ∀ e ∈ (s.setRow r v).rows, e.1 < 512 := by
  unfold State.setRow
  split
  · next hr =>
    intro e he
    rcases SMap.mem_put _ _ _ _ _ he with h | h
    · omega
    · exact w e h
  · exact w

/-! ### Contexts, frames, rows, partitions -/

theorem cxIdx_inj : ∀ {c d : Cx}, cxIdx c = cxIdx d → c = d
  | .press k, .press k', h => by simp only [cxIdx] at h; exact congrArg Cx.press (Fin.eq_of_val_eq h)
  | .scalar j, .scalar j', h => by simp only [cxIdx] at h; exact congrArg Cx.scalar (Fin.eq_of_val_eq (by omega))
  | .press k, .scalar j, h => by simp only [cxIdx] at h; omega
  | .scalar j, .press k, h => by simp only [cxIdx] at h; omega

@[simp] theorem State.cx_setCx_same (s : State) (c : Cx) (v : Ctx) : (s.setCx c v).cx c = v := SMap.get_put_same _ _ _ _

theorem State.cx_setCx_other (s : State) {c d : Cx} (v : Ctx) (h : d ≠ c) : (s.setCx c v).cx d = s.cx d :=
  SMap.get_put_other _ _ _ (fun e => h (cxIdx_inj e))

theorem State.reg_setCx (s : State) (c : Cx) (v : Ctx) (o : Nat) : (s.setCx c v).reg o = s.reg o := by
  unfold State.reg
  rw [State.setCx_regs]

theorem State.fget_setCx (s : State) (c : Cx) (v : Ctx) (f : Fld) : (s.setCx c v).fget f = s.fget f := by
  unfold State.fget
  rw [State.reg_setCx]

theorem State.frame_setFrame (s : State) (k i k' i' : Nat) (v : Frame) :
    (s.setFrame k i v).frame k' i' = if 2 * k' + i' = 2 * k + i then v else s.frame k' i' := SMap.get_put _ _ _ _ _

theorem State.row_setRow (s : State) (r q : Nat) (v : RowSt) (h : r < 512) : (s.setRow r v).row q = if q = r then v else s.row q := by
  unfold State.setRow
  rw [if_pos h]
  exact SMap.get_put _ _ _ _ _

theorem State.part_setPart (s : State) (n q : Nat) (v : PartSt) : (s.setPart n v).part q = if q = n then v else s.part q :=
  SMap.get_put _ _ _ _ _

/-! ### Events and records -/

/-- What a raise does (R206, R207): it is latched, or it merges. -/
theorem State.assertEv_cases (s : State) (e : Nat) :
    (SMap.get (fun _ => false) s.evLatch e = true
      ∧ s.assertEv e = ((s.fwrap fEVT_CNT_MERGE_COUNT).fset fEVT_STAT_MERGED 1).fwrap (fEVT_SRC_CNT_COUNT e))
    ∨ (SMap.get (fun _ => false) s.evLatch e = false
      ∧ s.assertEv e = { s with evLatch := SMap.put (fun _ => false) e true s.evLatch }) := by
  unfold State.assertEv
  cases h : SMap.get (fun _ => false) s.evLatch e
  · exact .inr ⟨rfl, rfl⟩
  · exact .inl ⟨rfl, rfl⟩

theorem State.fset3_only (s : State) (f g h : Fld) (a b c : Nat) :
    ((s.fset f a).fset g b).fset h c = { s with regs := (((s.fset f a).fset g b).fset h c).regs } := rfl

theorem State.latched_assertEv (s : State) (e : Nat) : SMap.get (fun _ => false) (s.assertEv e).evLatch e = true := by
  rcases s.assertEv_cases e with ⟨h, r⟩ | ⟨_, r⟩ <;> rw [r]
  · exact h
  · exact SMap.get_put_same (fun _ => false) e true s.evLatch

theorem State.latch_assertEv_other (s : State) {e q : Nat} (h : q ≠ e) :
    SMap.get (fun _ => false) (s.assertEv e).evLatch q = SMap.get (fun _ => false) s.evLatch q := by
  rcases s.assertEv_cases e with ⟨_, r⟩ | ⟨_, r⟩ <;> rw [r]
  · rfl
  · exact SMap.get_put_other (fun _ => false) true s.evLatch h

theorem State.reg_assertEv_other (s : State) {e o : Nat} (h1 : o ≠ fEVT_CNT_MERGE_COUNT.off) (h2 : o ≠ fEVT_STAT_MERGED.off)
    (h3 : o ≠ (fEVT_SRC_CNT_COUNT e).off) : (s.assertEv e).reg o = s.reg o := by
  rcases s.assertEv_cases e with ⟨_, r⟩ | ⟨_, r⟩ <;> rw [r]
  · rw [(State.fwrap_only _ _).2 _ h3, State.reg_fset_other _ _ h2, (State.fwrap_only _ _).2 _ h1]
  · rfl

theorem State.regsWf_assertEv (s : State) (e : Nat) (w : s.regsWf) : (s.assertEv e).regsWf := by
  unfold State.assertEv
  split
  · exact State.regsWf_fset _ _ _ (State.regsWf_fset _ _ _ (State.regsWf_fset _ _ _ w))
  · exact w

/-- A choice gives one of its two branches. -/
theorem ite_or {α : Sort _} (p : Prop) [Decidable p] (a b : α) : (if p then a else b) = a ∨ (if p then a else b) = b := by
  split
  · exact .inl rfl
  · exact .inr rfl

/-- What a record does (R579): the boot ROM writes none, it is lost and counted, or it waits at the intake. -/
theorem State.cellarAs_cases (s : State) (code src p0 p1 p2 fl : Nat) :
    s.cellarAs code src p0 p1 p2 fl = s
    ∨ s.cellarAs code src p0 p1 p2 fl
        = { (s.fsat fMGT_CB_LOST_COUNT).fset fMGT_CB_STAT_LOST 1 with cb := { s.cb with untold := s.cb.untold + 1 } }
    ∨ s.cellarAs code src p0 p1 p2 fl
        = { s with cellarQ := s.cellarQ ++ [s.mkRec code src p0 p1 p2 (fl + 32 * b2n s.mgt.down)] } := by
  unfold State.cellarAs
  exact (ite_or _ _ _).imp_right (fun e => by rw [e]; exact ite_or _ _ _)

theorem State.reg_with_cb (s : State) (c : Cellar) (o : Nat) : ({ s with cb := c } : State).reg o = s.reg o := rfl
theorem State.reg_with_cellarQ (s : State) (q : List CellarRec) (o : Nat) : ({ s with cellarQ := q } : State).reg o = s.reg o := rfl
theorem State.regs_with_cb (s : State) (c : Cellar) : ({ s with cb := c } : State).regs = s.regs := rfl

theorem State.reg_cellarAs_other (s : State) (code src p0 p1 p2 fl : Nat) {o : Nat} (h1 : o ≠ fMGT_CB_LOST_COUNT.off)
    (h2 : o ≠ fMGT_CB_STAT_LOST.off) : (s.cellarAs code src p0 p1 p2 fl).reg o = s.reg o := by
  rcases s.cellarAs_cases code src p0 p1 p2 fl with r | r | r
  · rw [r]
  · rw [r, State.reg_with_cb, State.reg_fset_other _ _ h2, (State.fsat_only s _).2 _ h1]
  · rw [r, State.reg_with_cellarQ]

theorem State.regsWf_cellarAs (s : State) (code src p0 p1 p2 fl : Nat) (w : s.regsWf) : (s.cellarAs code src p0 p1 p2 fl).regsWf := by
  rcases s.cellarAs_cases code src p0 p1 p2 fl with r | r | r <;> rw [r]
  · exact w
  · unfold State.regsWf
    rw [State.regs_with_cb]
    exact State.regsWf_fset _ fMGT_CB_STAT_LOST 1 (State.regsWf_fsat s fMGT_CB_LOST_COUNT w)
  · exact w

end Sys2Proof.Machine
end

