-- ==== Sys2Proof/Laws/Judin.lean ====
section
/-! SUPPORT. What the shared operations of the Judin instructions do, said once for each. -/

namespace Sys2Proof.Machine

open Sys2Proof.Safety

/-- All that the count of clocks does. -/
theorem State.clocks_spec (s : State) (c : Cx) (n stall : Nat) :
    (s.clocks c n stall).cx c = { s.cx c with clkUsed := (s.cx c).clkUsed + n } ∧ OnlyCtx c s (s.clocks c n stall) := by
  refine ⟨State.cx_setCx_same _ c _, rfl, fun d h => State.cx_setCx_other _ _ h, fun o h => ?_⟩
  simp only [clockRegs, List.mem_cons, List.not_mem_nil, or_false, not_or] at h
  unfold State.clocks State.fwrapN
  rw [State.reg_fset_other _ _ h.2, State.reg_fset_other _ _ h.1]
  rfl

/-- What two changes of a context alone give. -/
theorem onlyCtx_trans {c : Cx} {s t u : State} (h : OnlyCtx c s t) (k : OnlyCtx c t u) : OnlyCtx c s u := by
  obtain ⟨h1, h2, h3⟩ := h
  obtain ⟨k1, k2, k3⟩ := k
  refine ⟨?_, fun d hd => (k2 d hd).trans (h2 d hd), fun o ho => (k3 o ho).trans (h3 o ho)⟩
  rw [k1, h1]

theorem onlyCtx_setCx (s : State) (c : Cx) (x : Ctx) : OnlyCtx c s (s.setCx c x) :=
  ⟨rfl, fun _ h => State.cx_setCx_other s x h, fun _ _ => rfl⟩

/-- All that moving past an instruction does. -/
theorem State.advance_spec (s : State) (c : Cx) (len n stall : Nat) :
    (s.advance c len n stall).cx c
        = { s.cx c with pc := (s.cx c).pc + BitVec.ofNat 16 len, clkUsed := (s.cx c).clkUsed + n }
      ∧ OnlyCtx c s (s.advance c len n stall) := by
  have h := State.clocks_spec (s.setCx c { s.cx c with pc := (s.cx c).pc + BitVec.ofNat 16 len }) c n stall
  refine ⟨?_, onlyCtx_trans (onlyCtx_setCx s c _) h.2⟩
  have e := h.1
  rw [State.cx_setCx_same] at e
  exact e

/-! ### The read of an instruction's words (spec/01_architecture.md R40) -/

/-- Two changes of registers, check bits and event latches, one after the other. -/
theorem corr_trans {s t u : State} (h : t = { s with regs := t.regs, ecc := t.ecc, evLatch := t.evLatch })
    (k : u = { t with regs := u.regs, ecc := u.ecc, evLatch := u.evLatch }) :
    u = { s with regs := u.regs, ecc := u.ecc, evLatch := u.evLatch } := by
  rw [k, h]

theorem corr_of_regs {s t : State} (h : t = { s with regs := t.regs }) : t = { s with regs := t.regs, ecc := t.ecc, evLatch := t.evLatch } := by
  have e : t.ecc = s.ecc := by rw [h]
  have l : t.evLatch = s.evLatch := by rw [h]
  rw [e, l]
  exact h

theorem State.assertEv_corr (s : State) (e : Nat) :
    s.assertEv e = { s with regs := (s.assertEv e).regs, ecc := (s.assertEv e).ecc, evLatch := (s.assertEv e).evLatch } := by
  rcases s.assertEv_cases e with ⟨_, r⟩ | ⟨_, r⟩ <;> rw [r]
  exact corr_of_regs (State.regsOnly_trans (State.regsOnly_trans (State.fwrap_only s _).1 (State.fset_only _ _ _)) (State.fwrap_only _ _).1)

/-- What the correction of a single error leaves alone. -/
theorem State.integCorr_only (s : State) :
    s.integCorr = { s with regs := s.integCorr.regs, ecc := s.integCorr.ecc, evLatch := s.integCorr.evLatch }
      ∧ RegsBut corrRegs s s.integCorr := by
  constructor
  · have h := corr_of_regs (State.regsOnly_trans (State.fsat_only s fSYS_INTEG_CORR_COUNT).1 (State.fset_only _ fSYS_ERR_STAT_INTEG_CORR 1))
    exact corr_trans h (State.assertEv_corr _ 682)
  · intro o ho
    simp only [corrRegs, List.mem_cons, List.not_mem_nil, or_false, not_or] at ho
    obtain ⟨h1, h2, h3, h4, h5⟩ := ho
    unfold State.integCorr
    rw [State.reg_assertEv_other _ h3 h4 h5, State.reg_fset_other _ _ h2, (State.fsat_only _ _).2 _ h1]

/-- One word's share of `State.scrubWords`. -/
def State.scrubWord (t : State) (w : Nat) : State :=
  if SMap.get (fun _ => 0) t.ecc w = 1 then { t with ecc := SMap.put (fun _ => 0) w 0 t.ecc }.integCorr else t

theorem State.scrubWord_only (s : State) (w : Nat) :
    s.scrubWord w = { s with regs := (s.scrubWord w).regs, ecc := (s.scrubWord w).ecc, evLatch := (s.scrubWord w).evLatch }
      ∧ RegsBut corrRegs s (s.scrubWord w) := by
  unfold State.scrubWord
  split
  · have h := State.integCorr_only { s with ecc := SMap.put (fun _ => 0) w 0 s.ecc }
    exact ⟨corr_trans (t := { s with ecc := SMap.put (fun _ => 0) w 0 s.ecc }) rfl h.1, fun o ho => (h.2 o ho).trans rfl⟩
  · exact ⟨rfl, fun _ _ => rfl⟩

theorem State.scrubFold_only (l : List Nat) (s : State) :
    let t := l.foldl State.scrubWord s
    t = { s with regs := t.regs, ecc := t.ecc, evLatch := t.evLatch } ∧ RegsBut corrRegs s t := by
  induction l generalizing s with
  | nil => exact ⟨rfl, fun _ _ => rfl⟩
  | cons w l ih =>
    have h := s.scrubWord_only w
    have k := ih (s.scrubWord w)
    exact ⟨corr_trans h.1 k.1, fun o ho => (k.2 o ho).trans (h.2 o ho)⟩

theorem State.scrubFold_clean (l : List Nat) (s : State) (h : ∀ w ∈ l, SMap.get (fun _ => 0) s.ecc w ≠ 1) :
    l.foldl State.scrubWord s = s := by
  induction l with
  | nil => rfl
  | cons w l ih =>
    have e : s.scrubWord w = s := if_neg (h w (List.mem_cons_self ..))
    rw [List.foldl_cons, e]
    exact ih fun v hv => h v (List.mem_cons_of_mem _ hv)

theorem State.scrubWords_eq (s : State) (bars : List Nat) :
    s.scrubWords bars = ((bars.map (fun a => a / 8)).eraseDups).foldl State.scrubWord s := rfl

/-- Words without a single error are left alone. -/
theorem State.scrubWords_clean (s : State) (bars : List Nat) (h : ∀ a ∈ bars, s.eccAt a ≠ 1) : s.scrubWords bars = s := by
  refine State.scrubFold_clean _ s fun w hw => ?_
  rw [List.mem_eraseDups, List.mem_map] at hw
  obtain ⟨a, ha, rfl⟩ := hw
  exact h a ha

/-- All that the read of the instruction's words does. -/
theorem State.fetched_spec (s : State) (c : Cx) : Fetches c s (s.fetched c) := by
  unfold State.fetched
  split
  · exact ⟨rfl, fun _ _ => rfl, fun _ => rfl⟩
  · rw [State.scrubWords_eq]
    refine ⟨(State.scrubFold_only _ s).1, (State.scrubFold_only _ s).2, fun h => ?_⟩
    rw [← State.scrubWords_eq]
    refine State.scrubWords_clean s _ fun a ha => ?_
    simp only [List.mem_append, List.mem_singleton] at ha
    rcases ha with rfl | ha
    · exact h.1
    · split at ha
      · rw [List.mem_singleton] at ha
        rw [ha]
        exact h.2
      · exact absurd ha (List.not_mem_nil)

@[simp] theorem State.fetched_cx (s : State) (c d : Cx) : (s.fetched c).cx d = s.cx d := by
  have h := (State.fetched_spec s c).1
  unfold State.cx
  rw [h]

/-- An effect on the context after the read of the instruction's words. -/
theorem onlyCx_fetched {c : Cx} {s t : State} (h : OnlyCtx c (s.fetched c) t) : OnlyCx c s t := ⟨_, State.fetched_spec s c, h⟩

/-- An instruction on registers alone: its whole effect (R127). -/
theorem State.regLanes_spec (s : State) (c : Cx) (len n : Nat) (f : Lane → Lane) (h : s.issues c = true) :
    RegOp c len n f s (s.regLanes c len n f) := by
  unfold State.regLanes
  rw [if_pos h]
  have a := State.advance_spec
    ((s.fetched c).setCx c { s.cx c with lanes := (s.cx c).lanes.mapIdx (fun i l => if (s.cx c).enabled i then f l else l) }) c len
    (if ((s.cx c).acting false).isEmpty then 1 else n) 0
  simp only [State.fetched_cx]
  refine ⟨?_, onlyCx_fetched (onlyCtx_trans (onlyCtx_setCx _ c _) a.2)⟩
  have e := a.1
  rw [State.cx_setCx_same] at e
  exact e

/-- A context that issues nothing is left alone. -/
theorem State.regLanes_idle (s : State) (c : Cx) (len n : Nat) (f : Lane → Lane) (h : s.issues c = false) :
    s.regLanes c len n f = s := by
  unfold State.regLanes
  rw [if_neg (by simp [h])]

/-! ### Taking an exception (R151, R152) -/

/-- The module-wide counter of an exception's cause. -/
def cmnFld (c : Cx) (cause : Nat) : Fld :=
  match c with | .press _ => fPRESS_CMN_EXC_COUNT cause | .scalar _ => fSCALAR_CMN_EXC_COUNT cause

theorem cmnFld_eq (c : Cx) (n : Nat) :
    cmnFld c n = (match c with | .press _ => fPRESS_CMN_EXC_COUNT n | .scalar _ => fSCALAR_CMN_EXC_COUNT n) := rfl

theorem cmnFld_apart (c : Cx) {n k : Nat} (hn : n < 16) (hk : k < 0x1000) : (cmnFld c n).off ≠ cxPage c + k := by
  cases c with
  | press q => have := q.isLt; simp only [cmnFld, cxPage, pressPage, rPRESS_CMN_EXC]; split <;> omega
  | scalar j => have := j.isLt; simp only [cmnFld, cxPage, scalarPage, rSCALAR_CMN_EXC]; omega

/-- The context that has pushed an entry. -/
theorem Ctx.push_ok (x : Ctx) (e : StackEnt) (h : x.rsFull = false) : x.push e = some (pushed x e) := by
  unfold Ctx.push pushed
  rw [if_neg (by simp [h])]
  by_cases k : x.rsp = 63
  · simp [k, Ctx.setRsp]
  · have k' : ¬ x.rsp = 63#6 := k
    simp [k', Ctx.setRsp]

/-- What the registers of the pair show of an exception taken. -/
def State.excRegs (s : State) (c : Cx) (cause part pc : Nat) : State :=
  (((((s.fsat (fPAIR_CNT_EXC_COUNT (cxPage c))).fsat (cmnFld c cause)).fset (fPAIR_LAST_EXC_CAUSE (cxPage c)) cause).fset
    (fPAIR_LAST_EXC_PARTITION (cxPage c)) part).fset (fPAIR_LAST_EXC_PC (cxPage c)) pc).fset (fPAIR_STAT_STATE (cxPage c)) stExec

theorem State.excRegs_only (s : State) (c : Cx) (cause part pc : Nat) :
    s.excRegs c cause part pc = { s with regs := (s.excRegs c cause part pc).regs } := by
  have h := State.regsOnly_trans (State.fsat_only s (fPAIR_CNT_EXC_COUNT (cxPage c))).1 (State.fsat_only _ (cmnFld c cause)).1
  exact State.regsOnly_trans (State.regsOnly_trans (State.regsOnly_trans (State.regsOnly_trans h (State.fset_only _ _ _))
    (State.fset_only _ _ _)) (State.fset_only _ _ _)) (State.fset_only _ _ _)

theorem State.excRegs_spec (s : State) (c : Cx) (cause part pc : Nat) (hc : cause < 16) (hp : pc < 2 ^ 16) :
    let t := s.excRegs c cause part pc
    let pg := cxPage c
    t.fget (fPAIR_LAST_EXC_CAUSE pg) = cause ∧ t.fget (fPAIR_LAST_EXC_PARTITION pg) = part % 256
    ∧ t.fget (fPAIR_LAST_EXC_PC pg) = pc ∧ t.fget (fPAIR_STAT_STATE pg) = stExec
    ∧ t.fget (fPAIR_CNT_EXC_COUNT pg) = min (s.fget (fPAIR_CNT_EXC_COUNT pg) + 1) 0xFFFFFFFF
    ∧ t.fget (cmnFld c cause) = min (s.fget (cmnFld c cause) + 1) 0xFFFFFFFF
    ∧ ∀ o, o ∉ [pg + 0x20, pg + 0, pg + 0x1c, (cmnFld c cause).off] → t.reg o = s.reg o := by
  have w : (cmnFld c cause).lo = 0 ∧ (cmnFld c cause).hi = 31 := by cases c <;> exact ⟨rfl, rfl⟩
  have a0 := cmnFld_apart c hc (k := 0) (by decide)
  have a20 := cmnFld_apart c hc (k := 0x20) (by decide)
  have a1c := cmnFld_apart c hc (k := 0x1c) (by decide)
  simp only [State.excRegs]
  generalize hs1 : (s.fsat (fPAIR_CNT_EXC_COUNT (cxPage c))).fsat (cmnFld c cause) = s1
  refine ⟨?_, ?_, ?_, ?_, ?_, ?_, fun o ho => ?_⟩
  · rw [State.fget_fset_other _ _ _ _ (by simp) (by simp) (.inl (by simp only [rPAIR_LAST_EXC, rPAIR_STAT]; omega)),
      State.fget_fset_other _ _ _ _ (by simp) (by simp) (.inr (by simp)),
      State.fget_fset_other _ _ _ _ (by simp) (by simp) (.inr (by simp)), State.fget_fset_same _ _ _ (by simp) (by simp)]
    exact Nat.mod_eq_of_lt (by simp only; omega)
  · rw [State.fget_fset_other _ _ _ _ (by simp) (by simp) (.inl (by simp only [rPAIR_LAST_EXC, rPAIR_STAT]; omega)),
      State.fget_fset_other _ _ _ _ (by simp) (by simp) (.inr (by simp)), State.fget_fset_same _ _ _ (by simp) (by simp)]
    rfl
  · rw [State.fget_fset_other _ _ _ _ (by simp) (by simp) (.inl (by simp only [rPAIR_LAST_EXC, rPAIR_STAT]; omega)),
      State.fget_fset_same _ _ _ (by simp) (by simp)]
    exact Nat.mod_eq_of_lt (by simpa using hp)
  · rw [State.fget_fset_same _ _ _ (by simp) (by simp)]
    rfl
  · rw [State.fget_fset_other _ _ _ _ (by simp) (by simp) (.inl (by simp only [rPAIR_CNT_EXC, rPAIR_STAT]; omega)),
      State.fget_fset_other _ _ _ _ (by simp) (by simp) (.inl (by simp only [rPAIR_CNT_EXC, rPAIR_LAST_EXC]; omega)),
      State.fget_fset_other _ _ _ _ (by simp) (by simp) (.inl (by simp only [rPAIR_CNT_EXC, rPAIR_LAST_EXC]; omega)),
      State.fget_fset_other _ _ _ _ (by simp) (by simp) (.inl (by simp only [rPAIR_CNT_EXC, rPAIR_LAST_EXC]; omega)), ← hs1]
    unfold State.fget
    rw [(State.fsat_only _ _).2 _ (by simp only [rPAIR_CNT_EXC]; exact Ne.symm a1c)]
    exact State.fget_fsat s (fPAIR_CNT_EXC_COUNT (cxPage c)) (by simp) (by simp)
  · rw [State.fget_fset_other _ _ _ _ (by simp) (by simp) (.inl (by simpa only [rPAIR_STAT] using a0)),
      State.fget_fset_other _ _ _ _ (by simp) (by simp) (.inl (by simpa only [rPAIR_LAST_EXC] using a20)),
      State.fget_fset_other _ _ _ _ (by simp) (by simp) (.inl (by simpa only [rPAIR_LAST_EXC] using a20)),
      State.fget_fset_other _ _ _ _ (by simp) (by simp) (.inl (by simpa only [rPAIR_LAST_EXC] using a20)), ← hs1,
      State.fget_fsat _ _ (by omega) (by omega), w.1, w.2]
    unfold State.fget
    rw [(State.fsat_only _ _).2 _ (by simp only [rPAIR_CNT_EXC]; exact a1c)]
    try rfl
  · simp only [List.mem_cons, List.not_mem_nil, or_false, not_or] at ho
    obtain ⟨h1, h2, h3, h4⟩ := ho
    rw [State.reg_fset_other _ _ h2, State.reg_fset_other _ _ h1, State.reg_fset_other _ _ h1, State.reg_fset_other _ _ h1, ← hs1,
      (State.fsat_only _ _).2 _ h4, (State.fsat_only _ _).2 _ h3]

theorem State.countCause_eq (s : State) (c : Cx) (cause : Nat) : s.countCause c cause = s.fsat (cmnFld c cause) := by
  cases c <;> rfl

/-- The context that has entered an exception, before its clocks. -/
def Ctx.excIn (x y : Ctx) (t : Trap) (excPc : BitVec 16) : Ctx :=
  { y with excCause := t.cause, excLane := lowestLane t.lanes, excPc := excPc, excAddr := t.addr, excBar := t.bar
           excLanes := t.lanes, pc := BitVec.ofNat 16 x.ver.entry, stall := none }

theorem State.takeExc_eq (s : State) (c : Cx) (t : Trap) (excPc ret : BitVec 16) (h : CanPush c s) :
    s.takeExc c t excPc ret
      = ((s.setCx c ((s.cx c).excIn (pushed (s.cx c) ((s.cx c).entry ret true)) t excPc)).excRegs c t.cause (s.cx c).part excPc.toNat).clocks c 6 0 := by
  unfold State.takeExc
  rw [if_pos h.1, Ctx.push_ok _ _ h.2]
  simp only [State.countCause_eq]
  unfold State.excRegs Ctx.excIn
  rfl

/-- Exception entry: its whole effect, where the push can be made (R152). -/
theorem State.takeExc_spec (s : State) (c : Cx) (t : Trap) (excPc ret : BitVec 16) (h : CanPush c s) (hc : t.cause < 16) :
    Enters c t.cause t.addr t.bar t.lanes excPc ret s (s.takeExc c t excPc ret) := by
  rw [State.takeExc_eq s c t excPc ret h]
  have o0 := onlyCtx_setCx s c ((s.cx c).excIn (pushed (s.cx c) ((s.cx c).entry ret true)) t excPc)
  have x0 := State.cx_setCx_same s c ((s.cx c).excIn (pushed (s.cx c) ((s.cx c).entry ret true)) t excPc)
  have f0 := State.fget_setCx s c ((s.cx c).excIn (pushed (s.cx c) ((s.cx c).entry ret true)) t excPc)
  have q0 := State.reg_setCx s c ((s.cx c).excIn (pushed (s.cx c) ((s.cx c).entry ret true)) t excPc)
  generalize s.setCx c ((s.cx c).excIn (pushed (s.cx c) ((s.cx c).entry ret true)) t excPc) = s0 at *
  have r := State.excRegs_spec s0 c t.cause (s.cx c).part excPc.toNat hc excPc.isLt
  have e := State.excRegs_only s0 c t.cause (s.cx c).part excPc.toNat
  generalize s0.excRegs c t.cause (s.cx c).part excPc.toNat = s1 at *
  have x1 : ∀ d, s1.cx d = s0.cx d := fun d => by
    have q := congrArg State.ctxs e
    unfold State.cx
    rw [q]
  have k := State.clocks_spec s1 c 6 0
  generalize s1.clocks c 6 0 = u at *
  obtain ⟨k1, k2, k3, k4⟩ := k
  obtain ⟨r1, r2, r3, r4, r5, r6, r7⟩ := r
  have kf : ∀ f : Fld, f.off ∉ clockRegs c → u.fget f = s1.fget f := fun f hf => by unfold State.fget; rw [k4 _ hf]
  have n : ∀ j, j < 0x1000 → j ≠ 0x14 → j ≠ 0x18 → cxPage c + j ∉ clockRegs c := fun j _ h1 h2 => by
    simp only [clockRegs, rPAIR_CNT_CLK, rPAIR_CNT_STALL, List.mem_cons, List.not_mem_nil, or_false, not_or]
    omega
  have nc : (cmnFld c t.cause).off ∉ clockRegs c := by
    simp only [clockRegs, rPAIR_CNT_CLK, rPAIR_CNT_STALL, List.mem_cons, List.not_mem_nil, or_false, not_or]
    exact ⟨cmnFld_apart c hc (by decide), cmnFld_apart c hc (by decide)⟩
  refine ⟨?_, ?_, ?_, ?_, ?_, ?_, ?_, s, ⟨rfl, fun _ _ => rfl, fun _ => rfl⟩, ?_, ?_, ?_⟩
  · rw [k1, x1, x0]; rfl
  · rw [kf _ (n 0x20 (by decide) (by decide) (by decide))]; exact r1
  · rw [kf _ (n 0x20 (by decide) (by decide) (by decide))]; exact r2
  · rw [kf _ (n 0x20 (by decide) (by decide) (by decide))]; exact r3
  · rw [kf _ (n 0 (by decide) (by decide) (by decide))]; exact r4
  · rw [kf _ (n 0x1c (by decide) (by decide) (by decide)), ← f0]; exact r5
  · have w : u.fget (cmnFld c t.cause) = min (s.fget (cmnFld c t.cause) + 1) 0xFFFFFFFF := by rw [kf _ nc, ← f0]; exact r6
    rw [cmnFld_eq] at w
    exact w
  · rw [k2, e, o0.1]
  · exact fun d hd => (k3 d hd).trans ((x1 d).trans (o0.2.1 d hd))
  · intro o ho
    have w : o ∉ clockRegs c ∧ o ∉ [cxPage c + 0x20, cxPage c + 0, cxPage c + 0x1c, (cmnFld c t.cause).off] := by
      rw [List.mem_append, not_or] at ho
      rw [cmnFld_eq]
      exact ho
    rw [k4 o w.1, r7 o w.2, q0]

end Sys2Proof.Machine
end

