-- ==== Sys2Proof/Machine/Fetch.lean ====
section
/-! DEFINITION. What a context's code words spell (spec/04_judin_model.md R126; spec/05_judin_reference.md R160 … R162). -/

namespace Sys2Proof.Machine

/-- The command that context `c` is to be sent next: the instruction at its PC, UNDEFINED_OPCODE for a reserved word, and
INSTRUCTION_FETCH_FAULT where a word lies beyond the code region (R161) or cannot be corrected (spec/03_partitions_fabric.md R89). -/
def State.fetch (s : State) (c : Cx) : Instr :=
  let x := s.cx c
  let pc := x.pc.toNat
  let next := (pc + 1) % 65536
  let words := x.ver.codeKb * 512
  let w := s.codeWord x pc
  if words ≤ pc then .instructionFetchFault c false
  else if s.eccAt (x.wordBar pc) = 2 then .instructionFetchFault c true
  else if judinLong w then
    (if words ≤ next then .instructionFetchFault c false
     else if s.eccAt (x.wordBar next) = 2 then .instructionFetchFault c true
     else judinDecode c w (s.codeWord x next))
  else judinDecode c w 0

end Sys2Proof.Machine
end

