-- ==== Sys2Proof/Tests/Slice0.lean ====
section
/-! SUPPORT. Tests: words of spec/05_judin_reference.md, ill-formed terms that the check refuses, worked examples of the spec, and for each statement that has hypotheses a state that meets them. -/

namespace Sys2Proof.Tests

set_option Elab.async false

open Sys2Proof Sys2Proof.Machine Sys2Proof.Safety Sys2Proof.Claims

/-! ### Words (spec/05_judin_reference.md) -/

/-- R175's example: LD X, [0x0150] is 0x1402 0x0150. -/
theorem test_word_ld (c : Cx) : judinDecode? c 0x1402 0x0150 = some (.jLd c .x (.abs 0x0150)) := by rfl

/-- R175's example: CMPW X, #5696 and CPCW Y, #64, then LCC GT. -/
theorem test_word_cmpw (c : Cx) : judinDecode? c 0x5804 0x1640 = some (.jCmpw c .x (.imm 0x1640)) := by rfl
theorem test_word_cpcw (c : Cx) : judinDecode? c 0x5807 0x0040 = some (.jCpcw c .y (.imm 0x0040)) := by rfl
theorem test_word_lcc (c : Cx) : judinDecode? c 0x640C 0 = some (.jLcc c .gt) := by rfl

/-- R184's example: TON with the 100 µs base at 0x0160 is 0xB040 0x0160. -/
theorem test_word_ton (c : Cx) : judinDecode? c 0xB040 0x0160 = some (.jTon c 1 (.abs 0x0160)) := by rfl

/-- R186: the system words. -/
theorem test_word_system (c : Cx) : [0x0400, 0x0401, 0x0402, 0x0403, 0x0404, 0x0405].map (fun w => judinDecode? c w 0)
    = [some (.jNop c), some (.jEnd c), some (.jFence c), some (.jBrk c), some (.jRet c), some (.jRte c)] := by rfl

/-- R172, R189: ADD A, #1 is major 0x0B; CPC B, #2 is major 0x13 with bits 9:8 = 01. -/
theorem test_word_add (c : Cx) : judinDecode? c 0x2C01 0 = some (.jAdd c .a (.imm 1)) := by rfl
theorem test_word_cpc (c : Cx) : judinDecode? c 0x4D02 0 = some (.jCpc c .b (.imm 2)) := by rfl

/-- R173: INC B; R171: TFR X, DP; R170: LDI F, #31. -/
theorem test_word_inc (c : Cx) : judinDecode? c 0x5001 0 = some (.jInc c .b) := by rfl
theorem test_word_tfr (c : Cx) : judinDecode? c 0x0815 0 = some (.jTfr c .x .dp) := by rfl
theorem test_word_ldi (c : Cx) : judinDecode? c 0x0E1F 0 = some (.jLdiI8 c .f 31) := by rfl

/-- R176: LDB [0x0148].7 and OUT A.2. -/
theorem test_word_ldb (c : Cx) : judinDecode? c 0x6807 0x0148 = some (.jLdb c (.mem (.abs 0x0148) 7)) := by rfl
theorem test_word_out (c : Cx) : judinDecode? c 0x7402 0 = some (.jOut c (.reg .a 2)) := by rfl

/-- R178, R179: BR EQ back by one word, JMP, BALL; R181: PUSH Y; R186: WUNTIL 0x3FF, MREAD 127, TRIG 63. -/
theorem test_word_br (c : Cx) : judinDecode? c 0x803F 0 = some (.jBr c .eq 0x3F) := by rfl
theorem test_word_jmp (c : Cx) : judinDecode? c 0x9400 0x1234 = some (.jJmp c 0x1234) := by rfl
theorem test_word_ball (c : Cx) : judinDecode? c 0x8904 0 = some (.jBall c 4) := by rfl
theorem test_word_push (c : Cx) : judinDecode? c 0xA403 0 = some (.jPush c .y) := by rfl
theorem test_word_wuntil (c : Cx) : judinDecode? c 0xCBFF 0 = some (.jWuntil c 0x3FF) := by rfl
theorem test_word_mread (c : Cx) : judinDecode? c 0xCD7F 0 = some (.jMread c 127) := by rfl
theorem test_word_trig (c : Cx) : judinDecode? c 0xD03F 0 = some (.jTrig c 63) := by rfl

/-- R162, R189: the all-zero word, the all-ones word and a reserved value inside a major spell no instruction. -/
theorem test_word_reserved (c : Cx) : [0x0000, 0xFFFF, 0x0406, 0x7C00, 0xC300, 0x8B00].map (fun w => judinDecode? c w 0)
    = [none, none, none, none, none, none] := by rfl

/-- R160: LD X, [0x0150] takes an extension word, LDB [X].7 takes none. -/
theorem test_word_length : judinLong 0x1402 = true ∧ judinLong 0x6827 = false := by decide

/-! ### Ill-formed commands -/

def h0 : TrHdr := { gen := 1, cycle := 1, lt := 0, row := 0, src := 0x90, flags := 0, len := 0, port := 0 }
theorem test_illformed_trellis_header : ({ h0 with gen := 0x10000 } : TrHdr).wf = false ∧ h0.wf = true := by decide
theorem test_illformed_ld : (Instr.jLd (.press 0) .x (.postInc .x)).wf = false ∧ (Instr.jLd (.press 0) .y (.postInc .x)).wf = true := by decide
theorem test_illformed_lea : (Instr.jLea (.press 0) .x (.preDec .y)).wf = false ∧ (Instr.jLea (.press 0) .x (.ind .y)).wf = true := by decide
theorem test_illformed_ldi : (Instr.jLdiI8 (.press 0) .f 32).wf = false ∧ (Instr.jLdiI8 (.press 0) .a 32).wf = true := by decide
theorem test_illformed_tfr : (Instr.jTfr (.press 0) .a .dp).wf = false ∧ (Instr.jTfr (.press 0) .xh .a).wf = true := by decide
theorem test_illformed_addw : (Instr.jAddw (.press 0) .x (.mem (.preDec .x))).wf = false
    ∧ (Instr.jSubw (.press 0) .y (.mem (.postInc .y))).wf = false ∧ (Instr.jCmpw (.press 0) .x (.mem (.preDec .x))).wf = true := by decide
theorem test_illformed_sev : (Instr.jSev (.press 0) 768).wf = false ∧ (Instr.jWfe (.press 0) 1023).wf = false
    ∧ (Instr.jWuntil (.press 0) 1022).wf = false ∧ (Instr.jWuntil (.press 0) 1023).wf = true := by decide
theorem test_illformed_bar : (Instr.busPostedWrite (.press 0) 0x4000000 0).wf = false := by decide
theorem test_illformed_master : (Instr.cfgRejectClear 0x0FF 0).wf = false ∧ (Instr.cfgRejectClear 0x200 0).wf = true := by decide
theorem test_illformed_register : (Instr.registerWrite 0x200 0 []).wf = false ∧ (Instr.storeWindowRead 0x200 0x1000000 0).wf = false
    ∧ (Instr.lowWordRead 0x200 0x4000000).wf = false := by decide
theorem test_illformed_msix : (MsixWr.entry 1024 0 0 false).wf = false ∧ (MsixWr.sriov 257).wf = false := by decide
theorem test_illformed_can : ({ xtd := false, rtr := false, id := 2048, fdf := false, brs := false, esi := false, dlc := 0, data := [], sof := 0 } : CanFrame).wf = false := by decide
theorem test_illformed_eng : ({ ip := 0, port := 0x10000, seq := 0, len := 0, crc := 0, payload := [] } : EngReq).wf = false := by decide
theorem test_illformed_rack : ({ gen := 0, cycle := 0, lt := 0, seq := 2 ^ 32, lane := 0, role := 0 } : RackHdr).wf = false := by decide
theorem test_illformed_sizes : (Instr.calSaveDone 513).wf = false ∧ (Instr.arpRequest (2 ^ 32) 0).wf = false := by decide

/-! ### Judin: states that meet the statements' hypotheses -/

/-- A state in which press pair 0 holds the context. -/
def st (x : Ctx) : State := State.reset.setCx (.press 0) x

/-- A lane context of partition 1 with two lanes enabled; L is 1 in lane 1. -/
def lanes2 : Ctx := { running := true, lanes := [{}, { f := 1 }], lm := 3, part := 1, row := 1, cycle := 5 }

/-- A scalar context of partition 1 with its one lane enabled. -/
def one : Ctx := { running := true, scalar := true, lanes := [{}], lm := 1, part := 1 }

theorem witness_issues : (st lanes2).issues (.press 0) = true := by decide +kernel

/-- A byte source at the ends of lane scratch, through an index register, and no access at all for an immediate. -/
theorem witness_byte_sources : Accessible (.press 0) false (srcAccs (.mem (.abs 0))) (st lanes2)
    ∧ Accessible (.press 0) false (srcAccs (.mem (.abs 0xFF))) (st lanes2)
    ∧ Accessible (.press 0) false (srcAccs (.mem (.postInc .x))) (st lanes2) ∧ Accessible (.press 0) false (srcAccs (.imm 7)) (st lanes2) := by
  unfold Accessible; decide +kernel

/-- A word source at the last word of lane scratch and in channel variables; registers and immediates access nothing. -/
theorem witness_word_sources : Accessible (.press 0) false (wMem (.abs 0xFE)).accs (st lanes2)
    ∧ Accessible (.press 0) false (wMem (.abs 0x18E)).accs (st lanes2) ∧ Accessible (.press 0) false (wReg 2 (fun _ => 5)).accs (st lanes2)
    ∧ (MOp.postInc .y ≠ .postInc .x ∧ MOp.postInc .y ≠ .preDec .x) := by
  unfold Accessible; decide +kernel

theorem witness_ld : ¬ clash .x (.abs 0x150) ∧ ¬ clash .x (.postInc .y) ∧ ¬ clash .f (.postInc .x)
    ∧ Accessible (.press 0) false (rgAccs .x (.abs 0x150) false) (st lanes2) := by unfold Accessible clash; decide +kernel

theorem witness_st : BufRoom (.press 0) (st lanes2) ∧ Accessible (.press 0) false (rgAccs .y (.abs 0x120) true) (st lanes2)
    ∧ BindOk (.press 0) false (rgAccs .y (.abs 0x120) true) (fun _ _ l => [((mopEa (.abs 0x120) l 2).1.toNat, 2, storeVal .y l)]) (st lanes2) := by
  unfold BufRoom Accessible BindOk; decide +kernel

/-- A scalar context's store to BIND of the last channel that exists. -/
theorem witness_st_bind : BindOk (.press 0) false (rgAccs .y (.abs 0xFF22) true) (fun _ _ _ => [(0xFF22, 2, 1)]) (st one)
    ∧ ¬ BindOk (.press 0) false (rgAccs .y (.abs 0xFF22) true) (fun _ _ _ => [(0xFF22, 2, 2)]) (st one) := by
  unfold BindOk; decide +kernel

theorem witness_lea : ∀ b, MOp.ind .x ≠ .postInc b ∧ MOp.ind .x ≠ .preDec b := by intro b; cases b <;> decide
theorem witness_tfr : tfrLegal .xh .a = true ∧ tfrLegal .x .dp = true ∧ RT.a ≠ RT.dp ∧ (31 : BitVec 8).toNat < 32 := by decide

theorem witness_bits : Accessible (.press 0) false (bitAccs (.mem (.abs 0x148) 7) false) (st lanes2)
    ∧ Accessible (.press 0) false (bitAccs (.mem (.ind .x) 0) true) (st lanes2)
    ∧ BindOk (.press 0) false (bitAccs (.mem (.ind .x) 0) true) (fun _ _ _ => [(0, 1, 1)]) (st lanes2) := by
  unfold Accessible BindOk; decide +kernel

/-- Taken by every enabled lane, by none, and by one of two, for LO (C) on lanes that agree and EQ on lanes that do not. -/
theorem witness_branch : ((live ((st lanes2).cx (.press 0))).filter (fun e => ccHolds .lo e.2.f) = [])
    ∧ (∀ e ∈ live ((st lanes2).cx (.press 0)), ccHolds .hs e.2.f = true)
    ∧ ((live ((st lanes2).cx (.press 0))).filter (fun e => ccHolds .hs e.2.f) ≠ [])
    ∧ ((live ((st lanes2).cx (.press 0))).filter (fun e => ccHolds .l1 e.2.f) ≠ [])
    ∧ (∃ e ∈ live ((st lanes2).cx (.press 0)), ccHolds .l1 e.2.f = false) ∧ CanPush (.press 0) (st lanes2) := by
  unfold CanPush; decide +kernel

theorem witness_reduce : anyL (live ((st lanes2).cx (.press 0))) ∧ ¬ allL (live ((st lanes2).cx (.press 0)))
    ∧ ¬ anyL (live ((st { lanes2 with lm := 1 }).cx (.press 0))) ∧ allL (live ((st { lanes2 with lm := 2 }).cx (.press 0))) := by
  unfold anyL allL; decide +kernel

theorem witness_jumps : agree ((st lanes2).cx (.press 0)) .x ∧ ¬ agree ((st { lanes2 with lanes := [{ x := 1 }, {}] }).cx (.press 0)) .x
    ∧ ((st lanes2).cx (.press 0)).rsp ≠ 63 ∧ ((st { lanes2 with rsp := 63, rsPar := rspParity 63 false }).cx (.press 0)).rsp = 63
    ∧ CanPush (.press 0) (st { lanes2 with rsp := 63, rsPar := rspParity 63 false }) ∧ ((st { lanes2 with lm := 0 }).cx (.press 0)).lm = 0 := by
  unfold agree CanPush; decide +kernel

/-- A call that would fill the last entry: RSP 63 with its parity. -/
theorem witness_call_full : CanPush (.press 0) (st { lanes2 with rsp := 63, rsPar := rspParity 63 false })
    ∧ ((st { lanes2 with rsp := 63 }).cx (.press 0)).rsp = 63 := by unfold CanPush; decide +kernel

theorem witness_returns : canPop ((st { lanes2 with rsp := 1, rsPar := rspParity 1 false }).cx (.press 0))
    ∧ canPop ((st { lanes2 with rsp := 63, rsFull := true, rsPar := rspParity 63 true }).cx (.press 0))
    ∧ ((st lanes2).cx (.press 0)).rspGood = true ∧ ((st lanes2).cx (.press 0)).rsFull = false ∧ ((st lanes2).cx (.press 0)).rsp = 0 := by
  unfold canPop; decide +kernel

/-- A data stack of 16 bytes at 0x1000: PART_DATA and PART_STACK of partition 1. -/
def stack1 (dp : BitVec 16) : State :=
  (((st { one with dp := dp }).fset (fPART_DATA_SIZE 1) 1).fset (fPART_STACK_LO 1) 0x1000).fset (fPART_STACK_HI 1) 0x1010

theorem witness_push : scalarLane (.press 0) (stack1 0x1002) ∧ BufRoom (.press 0) (stack1 0x1002)
    ∧ inData (stack1 0x1002) 1 0x1000 2 ∧ Accessible (.press 0) false (fun _ _ => [⟨0x1000, 2, true⟩]) (stack1 0x1002)
    ∧ BindOk (.press 0) false (fun _ _ => [⟨0x1000, 2, true⟩]) (fun _ _ l => [(0x1000, 2, storeVal .x l)]) (stack1 0x1002) := by
  unfold scalarLane BufRoom inData Accessible BindOk; decide +kernel

theorem witness_pop : scalarLane (.press 0) (stack1 0x100E) ∧ inData (stack1 0x100E) 1 0x100E 2
    ∧ Accessible (.press 0) false (fun _ _ => [⟨0x100E, 2, false⟩]) (stack1 0x100E) := by unfold scalarLane inData Accessible; decide +kernel

/-- A PUSH that writes the lowest bytes of the data stack and a POP that reads its highest are next states with DP moved. -/
theorem test_push_pop : (match exec (.jPush (.press 0) .x) (stack1 0x1002) with | .next t => ((t.cx (.press 0)).dp, (t.cx (.press 0)).pc) | _ => (0, 0)) = (0x1000, 1)
    ∧ (match exec (.jPop (.press 0) .y) (stack1 0x100E) with | .next t => ((t.cx (.press 0)).dp, (t.cx (.press 0)).pc) | _ => (0, 0)) = (0x1010, 1) := by
  decide +kernel

/-- PUSH below LO and POP beyond HI − 1, where the access itself raises nothing, with room on the return stack; a POP beyond the private data. -/
theorem witness_stack_bounds : CanPush (.press 0) (stack1 0x1009) ∧ scalarLane (.press 0) (stack1 0x1009)
    ∧ ¬ inData ((stack1 0x1009).fset (fPART_STACK_LO 1) 0x1008) 1 0x1007 2
    ∧ ((stack1 0x1009).fset (fPART_STACK_LO 1) 0x1008).accTrap ((stack1 0x1009).cx (.press 0)) 0 ⟨0x1007, 2, true⟩ = none
    ∧ ¬ inData ((stack1 0x100D).fset (fPART_STACK_HI 1) 0x100E) 1 0x100D 2
    ∧ ((stack1 0x100D).fset (fPART_STACK_HI 1) 0x100E).accTrap ((stack1 0x100D).cx (.press 0)) 0 ⟨0x100D, 2, false⟩ = none
    ∧ (∃ e bar, (stack1 0xF000).accTrap ((stack1 0xF000).cx (.press 0)) 0 ⟨0xF000, 2, false⟩ = some (cAddr, e, bar))
    ∧ (stack1 0xF000).needsMigration ((stack1 0xF000).cx (.press 0)) ⟨0xF000, 2, false⟩ = false := by
  refine ⟨by unfold CanPush; decide +kernel, by unfold scalarLane; decide +kernel, by unfold inData; decide +kernel, by decide +kernel,
    by unfold inData; decide +kernel, by decide +kernel, ⟨(((stack1 0xF000).accTrap ((stack1 0xF000).cx (.press 0)) 0 ⟨0xF000, 2, false⟩).getD default).2.1,
      (((stack1 0xF000).accTrap ((stack1 0xF000).cx (.press 0)) 0 ⟨0xF000, 2, false⟩).getD default).2.2, by decide +kernel⟩, by decide +kernel⟩
theorem witness_stack_disabled : (st { one with lm := 0 }).issues (.press 0) = true ∧ ((st { one with lm := 0 }).cx (.press 0)).scalar = true
    ∧ ((st { one with lm := 0 }).cx (.press 0)).enabled 0 = false := by decide +kernel

theorem witness_push_lane : ((st lanes2).cx (.press 0)).scalar = false ∧ CanPush (.press 0) (st lanes2) := by unfold CanPush; decide +kernel

/-- The first and the last record of lane scratch and one in channel variables. -/
theorem witness_records : Accessible (.press 0) false (timerAccs (.abs 0xF8)) (st lanes2)
    ∧ BindOk (.press 0) false (timerAccs (.abs 0xF8)) (fun _ _ _ => [(0xFA, 2, 0), (0xFC, 3, 0), (0xFF, 1, 0)]) (st lanes2)
    ∧ Accessible (.press 0) false (counterAccs (fun _ => true) (.abs 0xFB)) (st lanes2)
    ∧ BindOk (.press 0) false (counterAccs (fun _ => true) (.abs 0xFB)) (fun _ _ _ => [(0xFD, 2, 0), (0xFF, 1, 0)]) (st lanes2)
    ∧ Accessible (.press 0) false (counterAccs (fun l => l) (.abs 0xFB)) (st lanes2)
    ∧ Accessible (.press 0) false (fun _ l => [⟨(ropEa (.abs 0x150) l).toNat, 1, false⟩, ⟨(ropEa (.abs 0x150) l).toNat, 1, true⟩]) (st lanes2) := by
  unfold Accessible BindOk; decide +kernel

theorem witness_lane_mask : (∀ l ∈ ((st lanes2).cx (.press 0)).lanes, (mopEa (.abs 0xFF) l 1).1.toNat < 0x100)
    ∧ Accessible (.press 0) true (fun _ l => [⟨(mopEa (.abs 0xFF) l 1).1.toNat, 1, true⟩]) (st lanes2)
    ∧ Accessible (.press 0) true (fun _ l => [⟨(mopEa (.abs 0) l 1).1.toNat, 1, false⟩]) (st lanes2)
    ∧ (∃ l ∈ ((st lanes2).cx (.press 0)).lanes, 0x100 ≤ (mopEa (.abs 0x100) l 1).1.toNat) := by unfold Accessible; decide +kernel

/-- A fabric write in flight of press pair 0. -/
def busy (s : State) : State :=
  { s with inflight := [{ tag := 0, initiator := 0, master := 1, ruleEpoch := 0, tagEpoch := 0, cycle := 0, write := true, addr := 0x3680000
                          bytes := [(0x3680000, 1)], cx := some 0, lanes := 1, waited := 0 }] }

theorem witness_fence : (st lanes2).outstanding (.press 0) = 0 ∧ (busy (st lanes2)).outstanding (.press 0) ≠ 0
    ∧ InRange (.press 0) (st lanes2) ∧ Settled (.press 0) (st lanes2)
    ∧ (((st lanes2).row 1).jobLate = false ∧ ((st lanes2).row 1).counted 5 = false ∧ ((st lanes2).row 1).dec 5 = none) := by
  unfold InRange Settled; decide +kernel

theorem witness_end_scalar : (State.reset.setCx (.scalar 15) one).issues (.scalar 15) = true
    ∧ (State.reset.setCx (.scalar 15) one).outstanding (.scalar 15) = 0 ∧ Settled (.scalar 15) (State.reset.setCx (.scalar 15) one) := by
  unfold Settled; decide +kernel

/-- Partition 1's own software event 129; source 767 bound to it, source 766 not; 0x3FF with its deadline past and to come. -/
def evs (p : List Nat) : State :=
  (((st one).fset (fPART_SEV_BIND_SRC1 1 1) 767).fset (fPART_WAIT_BIND_SRC1 1 3) 767).setPart 1 { part0 1 with pend := p }

theorem witness_events : maySend (evs []) 1 129 ∧ maySend (evs []) 1 767 ∧ ¬ maySend (evs []) 1 766 ∧ mayWait (evs []) 1 767 ∧ ¬ mayWait (evs []) 1 766
    ∧ 767 ∈ ((evs [767]).part 1).pend ∧ 767 ∉ ((evs []).part 1).pend ∧ CanPush (.press 0) (evs []) := by
  unfold maySend mayWait CanPush; decide +kernel

theorem witness_deadline : ((evs []).cx (.press 0)).deadline ≤ (evs []).lt.toNat
    ∧ (evs []).lt.toNat < ((st { one with lanes := [{ x := 1 }] }).cx (.press 0)).deadline := by decide +kernel

/-! ### Mailboxes and exceptions -/

/-- A state with fields set. -/
def put (l : List (Fld × Nat)) (s : State) : State := l.foldl (fun t e => t.fset e.1 e.2) s

/-- Mailbox channel 127: partition 1 both its sender and its receiver. -/
def mbx1 (l : List (Fld × Nat)) (x : Ctx) : State :=
  put ([(fMBX_BIND_EN 127, 1), (fMBX_BIND_SENDER 127, 1), (fMBX_BIND_RECEIVER 127, 1)] ++ l) (st x)

theorem witness_mailbox : (mbx1 [] lanes2).mbxSends 127 1 = true ∧ (mbx1 [] lanes2).mbxReceives 127 1 = true
    ∧ (mbx1 [] lanes2).mbxSends 126 1 = false ∧ (mbx1 [] lanes2).mbxReceives 126 1 = false
    ∧ (mbx1 [] lanes2).accTrap ((mbx1 [] lanes2).cx (.press 0)) 0 ⟨0, 32, false⟩ = none
    ∧ (mbx1 [] lanes2).needsMigration ((mbx1 [] lanes2).cx (.press 0)) ⟨0, 32, false⟩ = false
    ∧ (busy (mbx1 [] lanes2)).outstanding (.press 0) ≠ 0 ∧ (mbx1 [] lanes2).mgt.down = false
    ∧ ({ mbx1 [] lanes2 with mgt := { down := true } } : State).mgt.down = true
    ∧ (∀ e ∈ live ((mbx1 [] lanes2).cx (.press 0)), (mbx1 [] lanes2).accTrap ((mbx1 [] lanes2).cx (.press 0)) e.1 ⟨e.2.x.toNat, 32, true⟩ = none)
    ∧ (mbx1 [(fMBX_CH_STAT_GO 127, 1)] lanes2).fbit (fMBX_CH_STAT_GO 127) = true ∧ (mbx1 [] lanes2).fbit (fMBX_CH_STAT_GO 127) = false := by
  decide +kernel

theorem witness_exceptions : (st lanes2).mainRuns = true ∧ (st { lanes2 with stall := some (.mbxRead 127) }).mainRuns = true ∧ (st { lanes2 with stall := some (.fence (.sev 5) 0) }).mainRuns = true ∧ ((st lanes2).cx (.press 0)).part ≠ 0 ∧ ((st lanes2).cx (.press 0)).defersExc = false
    ∧ ((st { lanes2 with stall := some (.mbxRead 127) }).cx (.press 0)).defersExc = true
    ∧ ((st { lanes2 with stall := some (.fence (.sev 5) 0) }).cx (.press 0)).defersExc = true
    ∧ ((st { lanes2 with stall := some (.mbxRead 127) }).cx (.press 0)).running = true := by decide +kernel

/-- A context that has used its budget of one base cycle at 1,250 clocks a microsecond, and one whose TIMEOUT has been raised. -/
theorem witness_timeout : (st { lanes2 with clkUsed := 12500 }).mainRuns = true ∧ (st { lanes2 with toSeen := true }).mainRuns = true ∧ 1250 * (st { lanes2 with clkUsed := 12500 }).bc ≤ ((st { lanes2 with clkUsed := 12500 }).cx (.press 0)).clkUsed
    ∧ ((st lanes2).cx (.press 0)).toSeen = false ∧ ((st { lanes2 with toSeen := true }).cx (.press 0)).toSeen = true
    ∧ ((st { lanes2 with toSeen := true }).cx (.press 0)).rspGood = true ∧ InRange (.press 0) (st { lanes2 with toSeen := true }) := by
  unfold InRange; decide +kernel

/-- The return stack is full: a double fault. -/
theorem witness_double_fault : ((st { lanes2 with rsp := 63, rsFull := true, rsPar := rspParity 63 true }).cx (.press 0)).rspGood = true
    ∧ ((st { lanes2 with rsp := 63, rsFull := true, rsPar := rspParity 63 true }).cx (.press 0)).rsFull = true := by decide +kernel

/-! ### Steps, boundaries, the scheduler -/

theorem witness_idle : State.reset.pending = [] ∧ State.reset.ltFrac < 2 ^ 32 ∧ State.reset.lt.toNat < 2 ^ 63
    ∧ State.reset.fbit fCONV_PERSIST_BUSY = false ∧ (∀ e ∈ State.reset.ctxs, e.2.buf = []) := by decide +kernel

/-- An active module that operates and has started its cycles. -/
def op (l : List (Fld × Nat)) : State :=
  { put ([(fRST_START_PHASE, phOperating), (fRACK_STAT_ROLE, roleActive)] ++ l) State.reset with started := true }

theorem witness_boundary : (op []).fget fRST_START_PHASE = phOperating ∧ (op []).started = true ∧ (op []).active = true
    ∧ (op []).rack.takeAt = none ∧ (op []).lt.toNat < (op []).tn.toNat + (op []).bc * 1000
    ∧ ({ op [] with lt := 10000 } : State).tn.toNat + ({ op [] with lt := 10000 } : State).bc * 1000 ≤ 10000 := by decide +kernel

theorem witness_canonical : Canonical (op []) := by unfold Canonical RowsOk; decide +kernel

/-- Row 511 of partition 1, at position 0 of port 31. -/
def row1 (l : List (Fld × Nat)) (v : RowSt) : State :=
  ((op ([(fPART_ROW_OWNER_VALID 511, 1), (fPART_ROW_OWNER_PARTITION 511, 1), (fTRL_PORT_CTRL_EN 31, 1)] ++ l)).wrLE
    ((op []).schedTbl 31 0) 1 1 |>.wrLE ((op []).schedTbl 31 0 + 0x20) 2 511).setRow 511 v

/-- One free frame, one ready row. -/
def ready (c : Nat) : State :=
  { row1 ([(fPART_CFG_CLASS 1, c), (fSCHED_ROW_STAT_CLAIM 511, clReady), (fPAIR_STAT_STATE (pressPage 0), stIdle)]
      ++ (List.range 34).map (fun k => (fPAIR_STAT_STATE (pressPage k), if k = 0 then stIdle else stFenced))) { job := some 3 } with
    spareNow := [], frames := [(1, { row := some 5 })] }

theorem witness_placement : (ready 0).mainRuns = true ∧ RowsOk (ready 0) ∧ (ready 0).spareNow = [] ∧ (ready 0).freeFrames = [(0, 0)] ∧ (ready 0).readyRows = [511]
    ∧ (ready 0).owner 511 = some 1 ∧ (ready 0).classOf 511 ≤ 1 := by unfold RowsOk; decide +kernel

/-- Frame 1 of pair 33 holds row 511, to be loaded, and loaded. -/
def loadS (b : Bool) : State :=
  put [(fPAIR_STAT_STATE (pressPage 33), stIdle), (fSCHED_ROW_STAT_CLAIM 511, clLoaded)]
    ((op []).setFrame 33 1 { row := some 511, part := 1, cycle := 3, loaded := b })

theorem witness_frame_load : (loadS false).mainRuns = true ∧ (loadS true).mainRuns = true ∧ ((loadS false).frame 33 1).row = some 511 ∧ ((loadS false).frame 33 1).loaded = false
    ∧ ((loadS false).frame 33 0).row = none ∧ ((loadS true).frame 33 1).loaded = true ∧ ((loadS false).row 511).old 3 = none ∧ ((loadS false).row 511).convWait = none
    ∧ noneStaged (loadS false) ∧ (∀ q ∈ (loadS false).inflight, q.frm = some (33, 1) → q.void = false)
    ∧ (∀ q ∈ (loadS true).inflight, q.frm ≠ some (33, 1))
    ∧ (loadS false).arrBit (rPART_GRF_ROWMIG 0) 511 = true := by unfold noneStaged; decide +kernel
/-- The same, its load's request in flight after the claim was released. -/
def loadV : State := { loadS false with inflight := [{ tag := 511, initiator := inLoader 33, master := 1, ruleEpoch := 0, tagEpoch := 0, cycle := 3
                                                       write := false, addr := 0, bytes := [], cx := none, lanes := 0, waited := 0, frm := some (33, 1), void := true }] }
theorem witness_load_void : loadV.mainRuns = true ∧ (∃ q ∈ loadV.inflight, q.frm = some (33, 1)) ∧ (∀ q ∈ loadV.inflight, q.frm = some (33, 1) → q.void = true) := by
  decide +kernel

theorem witness_execution_start : (loadS true).mainRuns = true ∧ (loadS true).fget (fPAIR_STAT_STATE (pressPage 33)) = stIdle ∧ (loadS true).fget fRST_START_PHASE < phFlush
    ∧ (loadS true).fget (fSCHED_ROW_STAT_CLAIM 511) = clLoaded ∧ ((loadS true).frame 33 0).loaded = false := by decide +kernel

/-- Partition 255 waits for scalar pair 15. -/
def scalarS : State :=
  put [(fPAIR_STAT_STATE (scalarPage 15), stIdle), (fPART_CFG_SCALAR_PAIR 255, 15)] ((op []).setPart 255 { part0 255 with scalarWait := some 3 })

theorem witness_scalar_start : scalarS.mainRuns = true ∧ scalarS.active = true ∧ scalarS.fget (fPAIR_STAT_STATE (scalarPage 15)) = stIdle ∧ (scalarS.cx (.scalar 15)).running = false
    ∧ scalarS.fget fRST_START_PHASE < phFlush ∧ (scalarS.part 255).scalarWait = some 3 ∧ scalarS.fget (fPART_CFG_SCALAR_PAIR 255) = 15
    ∧ (∀ e ∈ scalarS.parts, e.2.scalarWait.isSome = true → scalarS.fget (fPART_CFG_SCALAR_PAIR e.1) = 15 → e.1 = 255) := by decide +kernel

/-- An ended execution that wrote the first and the last granule of its channel variables. -/
def endedS (v : RowSt) : State :=
  ((op []).setCx (.press 33) { row := 511, part := 1, cycle := 3, ended := true, granules := [0x500, 0x8FF] }).setRow 511 v

theorem witness_write_back : (endedS { job := some 3 }).mainRuns = true ∧ ((endedS {}).cx (.press 33)).ended = true ∧ ((endedS {}).cx (.press 33)).row < 512
    ∧ ((endedS {}).cx (.press 33)).cmdLanes = 0 ∧ ((endedS {}).cx (.press 33)).migrated = false
    ∧ (∀ g ∈ ((endedS {}).cx (.press 33)).granules, 0x500 ≤ g ∧ g < 0x900)
    ∧ ((endedS { job := some 3 }).row 511).next = [] ∧ ((endedS { next := [(4, false)] }).row 511).next = [(4, false)]
    ∧ (endedS {}).migrating 511 = false := by decide +kernel

/-- The cut-off of row 511 in the cycle before: classes S, F and G, not begun and begun. -/
def cutS (c cl : Nat) : State :=
  { row1 [(fPART_CFG_CLASS 1, c), (fSCHED_ROW_STAT_CLAIM 511, cl)] { job := some 6 } with cycle := 7 }

theorem witness_cutoff : (cutS 0 clReady).mainRuns = true ∧ (cutS 2 clReady).mainRuns = true ∧ (cutS 0 clReady).classOf 511 = 0 ∧ (cutS 1 clReady).classOf 511 = 1
    ∧ (∃ m, (cutS 0 clReady).cutoffCycle 511 = some m ∧ (((cutS 0 clReady).setRow 511 { job := some m }).row 511).job = some m ∧ 6 ≤ m ∧ m ≤ 7)
    ∧ ((cutS 0 clReady).row 511).dec 6 = none ∧ ((cutS 0 clReady).row 511).stretched ≠ some 6
    ∧ ((cutS 2 clReady).row 511).counted 6 = false ∧ (cutS 2 clReady).migrating 511 = false ∧ (cutS 3 clExec).migrating 511 = false
    ∧ ((cutS 2 clReady).row 511).next = [] ∧ (((cutS 2 clReady).setRow 511 { job := some 6, next := [(7, false)] }).row 511).next = [(7, false)]
    ∧ 2 ≤ (cutS 2 clReady).classOf 511 ∧ (cutS 2 clReady).fget (fSCHED_ROW_STAT_CLAIM 511) = clReady
    ∧ (cutS 3 clExec).fget (fSCHED_ROW_STAT_CLAIM 511) ≠ clReady := by
  refine ⟨by decide +kernel, by decide +kernel, by decide +kernel, by decide +kernel, ⟨((cutS 0 clReady).cutoffCycle 511).getD 0, by decide +kernel, rfl, by decide +kernel, by decide +kernel⟩, ?_⟩
  decide +kernel

/-- The latest ripe instant of a due row of a running partition, and of a stopped one's row. -/
theorem witness_latest_ripe : (cutS 0 clReady).mainRuns = true ∧ (cutS 0 clReady).posOf 511 = some (31, 0) ∧ ((cutS 0 clReady).row 511).ripe ≠ some ((cutS 0 clReady).ripeCycle 511)
    ∧ ((cutS 0 clReady).row 511).noHarvest ≠ some ((cutS 0 clReady).ripeCycle 511) ∧ (cutS 0 clReady).planAt 31 ((cutS 0 clReady).ripeCycle 511) = none
    ∧ ((cutS 0 clReady).row 511).convWait = none ∧ noneStaged (cutS 0 clReady)
    ∧ (cutS 0 clReady).owner 511 = some 1 ∧ (put [(fPART_STAT_CUR 1, 0)] (cutS 0 clReady)).partMode 1 = 0
    ∧ (put [(fPART_STAT_CUR 1, 0)] (cutS 0 clReady)).rowDue 1 511 ((put [(fPART_STAT_CUR 1, 0)] (cutS 0 clReady)).ripeCycle 511) = true
    ∧ (cutS 0 clReady).partMode 1 = 1 := by unfold noneStaged; decide +kernel

/-- A pour slot of the cycle before: its output record stands in the row's pours. -/
def pourS : State :=
  { row1 [(fTRL_POS_STAT_STATE 31 0, 3), (fTRL_PORT_STAT_LINK 31, lkUp), (fRACK_STAT_GATE, 1)]
      { decs := [(6, 1)], pours := [(6, some (List.replicate 4096 1))] } with cycle := 7, lt := 1000000 }

theorem witness_pour_place : pourS.mainRuns = true ∧ pourS.rowAt 31 0 = 511 ∧ pourS.portEn 31 = true ∧ 0 < pourS.boards 31 ∧ pourS.cycle.toNat ≠ 0 ∧ pourS.active = true
    ∧ pourS.fget fRST_START_PHASE = phOperating ∧ pourS.fget (fTRL_POS_STAT_STATE 31 0) = 3 ∧ pourS.portSends 31 = true := by decide +kernel
theorem witness_pour : (pourS.row 511).dec (pourS.cycle.toNat - 1) = some 1 ∧ (pourS.row 511).stretched = none
    ∧ pourS.tn.toNat + pourS.slotOfs 31 0 ≤ pourS.lt.toNat ∧ (pourS.row 511).poured ≠ some (pourS.cycle.toNat - 1)
    ∧ ∃ out, (pourS.row 511).pours.find? (fun e => decide (e.1 = pourS.cycle.toNat - 1)) = some (pourS.cycle.toNat - 1, some out)
        ∧ out.length = 4096 :=
  ⟨by decide +kernel, by decide +kernel, by decide +kernel, by decide +kernel, List.replicate 4096 1, rfl, List.length_replicate⟩

theorem witness_ripe : (row1 [] { harv := some 0 }).mainRuns = true ∧ ((row1 [] { harv := some 0 }).row 511).harv = some 0 ∧ (row1 [] { harv := some 0 }).cycle.toNat ≤ 0 + 1
    ∧ ({ row1 [] { harv := some 0 } with cycle := 1 } : State).cycle.toNat ≤ 0 + 1
    ∧ ((row1 [] { harv := some 0 }).row 511).convWait = none ∧ noneStaged (row1 [] { harv := some 0 }) ∧ (row1 [] { harv := some 0 }).loadWaits 511 = false
    ∧ (row1 [] { harv := some 0, job := some 0, next := [(0, true)] }).loadWaits 511 = true
    ∧ ((row1 [] { harv := some 0 }).row 511).ripe ≠ some 0 ∧ ((row1 [] { harv := some 0 }).row 511).noHarvest ≠ some 0
    ∧ (row1 [] { harv := some 0 }).posOf 511 = some (31, 0) := by unfold noneStaged; decide +kernel

/-- A pass of a row of a stopped partition, and of one with no owner. -/
theorem witness_step_pass : (row1 [] { ripe := some 0 }).mainRuns = true ∧ ((row1 [] { ripe := some 0 }).row 511).ripe = some 0 ∧ (row1 [] { ripe := some 0 }).cycle.toNat ≤ 0 + 1
    ∧ ((row1 [] { ripe := some 0 }).row 511).passed ≠ some 0 ∧ (row1 [] { ripe := some 0 }).owner 511 = some 1
    ∧ (row1 [] { ripe := some 0 }).partMode 1 = 1 ∧ (row1 [] { ripe := some 0 }).owner 510 = none := by decide +kernel

/-! ### The step sequencer -/

/-- What holds of a readable entry and the state after its read. -/
def entIs (r : Except Nat StepEnt × State) (p : StepEnt → State → Bool) : Bool :=
  match r with | (.ok e, u) => p e u | (.error _, _) => false

theorem entIs_spec {r : Except Nat StepEnt × State} {p : StepEnt → State → Bool} (h : entIs r p = true) :
    ∃ e u, r = (.ok e, u) ∧ p e u = true := by
  obtain ⟨x, u⟩ := r
  cases x with
  | ok e => exact ⟨e, u, rfl, h⟩
  | error _ => cases h

/-- What holds of bytes read and the state after the read. -/
def optIs (r : Option (List Byte) × State) (p : List Byte → State → Bool) : Bool :=
  match r with | (some l, u) => p l u | (none, _) => false

theorem optIs_spec {r : Option (List Byte) × State} {p : List Byte → State → Bool} (h : optIs r p = true) :
    ∃ l u, r = (some l, u) ∧ p l u = true := by
  obtain ⟨x, u⟩ := r
  cases x with
  | some l => exact ⟨l, u, rfl, h⟩
  | none => cases h

/-- Partition 1 runs, owns row 511 and has four steps, 4 … 7, in bank 0; the last channel's step stands at step 4. Its NEXT is END where
`nx` is 0x7FFF. -/
def stepS (status nx : Nat) : State :=
  let s := op [(fPART_ROW_OWNER_VALID 511, 1), (fPART_ROW_OWNER_PARTITION 511, 1), (fPART_STAT_CUR 1, 0), (fSTEP_PART_LIM_COUNT 1, 1),
    (fSTEP_PART_RANGE_BASE 1, 4), (fSTEP_PART_RANGE_LEN 1, 4)]
  ([4, 5, 6, 7].foldl (fun u i => u.wrLE (u.entryAddr 0 i + 0x0B) 6 (nx * 0x100010001)) s).wrBytes (stepAddr 131071) ({ s.stepSt 131071 with step := 4, status := status } : StepSt).bytes

theorem witness_cmd_ok : CmdOk (stepS 1 5) 1 131071 7 4 ∧ CmdOk (stepS 1 5) 1 131071 7 0xFFFF ∧ CmdOk (stepS 4 5) 1 131071 8 4
    ∧ CmdOk (stepS 4 5) 1 131071 9 4 ∧ CmdOk (stepS 1 5) 1 131071 10 4 ∧ CmdOk (stepS 0 5) 1 131071 1 0xFFFF ∧ CmdOk (stepS 3 5) 1 131071 6 4
    ∧ CmdOk (stepS 1 5) 1 131071 5 4 ∧ CmdOk (stepS 1 5) 1 131071 2 4 := by unfold CmdOk; decide +kernel

theorem witness_cmd_live : ((stepS 1 5).stepSt 131071).status = 1 ∧ (∀ b, (stepS 1 5).booking 131071 = some b → b.kind ≠ .tentative)
    ∧ ((stepS 1 5).stepSt 131071).live = true ∧ ((stepS 0 5).stepSt 131071).live = false
    ∧ (stepS 1 5).targetOk 1 4 = true ∧ (stepS 1 5).targetOk 1 7 = true ∧ (stepS 1 5).targetOk 1 0x7FFF = true
    ∧ (stepS 1 5).targetOk 1 3 = false ∧ (stepS 1 5).targetOk 1 8 = false := by
  refine ⟨by decide +kernel, fun b h => ?_, by decide +kernel⟩
  have e : (stepS 1 5).booking 131071 = none := by decide +kernel
  rw [e] at h; cases h

/-- NEXT to END, and NEXT to step 5, whose entry is readable and whose booking does not grow. -/
theorem witness_next_end : ∃ e u, (stepS 1 0x7FFF).readEntry 1 ((stepS 1 0x7FFF).stepSt 131071).step = (.ok e, u)
    ∧ decide (e.next = 0x7FFF ∧ e.result = false) = true := entIs_spec (by decide +kernel)
theorem witness_next_step : ∃ e u, (stepS 1 5).readEntry 1 ((stepS 1 5).stepSt 131071).step = (.ok e, u)
    ∧ entIs (u.readEntry 1 (inBank (stepS 1 5) 1 e.next)) (fun ne w =>
        decide (e.next < 0x7FFF) && !raises (w.booked 131071) (w.estimate 131071 ne ((stepS 1 5).sample 131071).v)) = true :=
  entIs_spec (by decide +kernel)
theorem witness_start : ∃ e w, (stepS 0 5).readEntry 1 (inBank (stepS 0 5) 1 7) = (.ok e, w)
    ∧ decide (raises (w.booked 131071) (w.estimate 131071 e ((stepS 0 5).sample 131071).v) = false) = true := entIs_spec (by decide +kernel)

/-- Commands that do not apply: no owner; RELEASE of a running step; another step expected. -/
theorem witness_stale : (∀ n, ¬ CmdOk (stepS 1 5) n 0 2 0xFFFF) ∧ (∀ n, ¬ CmdOk (stepS 1 5) n 131071 8 4) ∧ (∀ n, ¬ CmdOk (stepS 1 5) n 131071 7 5) := by
  have a : (stepS 1 5).owner (0 / 256) = none := by decide +kernel
  have b : cmdApplies 8 ((stepS 1 5).stepSt 131071).status = false := by decide +kernel
  have d : ¬ ((5 : BitVec 16).toNat = 0xFFFF ∨ ((stepS 1 5).stepSt 131071).step % 0x8000 = (5 : BitVec 16).toNat) := by decide +kernel
  exact ⟨fun n h => by rw [CmdOk, a] at h; exact absurd h.1 (by simp), fun n h => by rw [CmdOk, b] at h; exact absurd h.2.2.2 (by simp), fun n h => d h.2.2.1⟩

/-- A scalar pair's command on its way to channel 131071. -/
def handS : State := { stepS 1 5 with scalarCmds := [{ cx := 79, ch := 131071, bytes := [7, 0, 0, 0, 4, 0, 0, 0] }] }
theorem witness_handover : handS.mainRuns = true ∧ handS.scalarCmds.find? (fun q => decide (q.cx = 64 + 15)) = some { cx := 79, ch := 131071, bytes := [7, 0, 0, 0, 4, 0, 0, 0] }
    ∧ (handS.cx (.scalar 15)).stall = none := by decide +kernel

/-! ### Calibration, fabric, mailboxes, twins, reflexes -/

def tasteS (p : Nat) : State := { op [] with tastes := [{ ch := 131071, point := p, dv := -1, di := 2 }] }
theorem witness_taste : (tasteS 0).mainRuns = true ∧ (tasteS 1).mainRuns = true ∧ (tasteS 0).tastes.find? (fun t => decide (t.ch = 131071)) = some { ch := 131071, point := 0, dv := -1, di := 2 }
    ∧ (tasteS 1).tastes.find? (fun t => decide (t.ch = 131071)) = some { ch := 131071, point := 1, dv := -1, di := 2 } := by decide +kernel
theorem witness_taste_entry : ∃ l u, ({ tasteS 1 with tastes := [] } : State).coefRd 131071 = (some l, u) ∧ decide (bitsOf (leAt l 0 1) 3 2 = 0) = true :=
  optIs_spec (by decide +kernel)

theorem witness_stage_held : (op [(fCONV_EPOCH_REQ, 1)]).stageHeld = false
    ∧ ({ op [(fCONV_EPOCH_REQ, 1)] with calLast := some 5, rows := [(511, { convWait := some 4 })] } : State).stageHeld = true
    ∧ ({ op [(fCONV_EPOCH_REQ, 1)] with calLast := some 5, rows := [(511, { convWait := some 5 })] } : State).stageHeld = false := by decide +kernel
theorem witness_stage_end : (op [(fCONV_EPOCH_REQ, 1)]).mainRuns = true ∧ (op [(fCONV_EPOCH_REQ, 1)]).fbit fCONV_EPOCH_REQ = true ∧ (op [(fCONV_EPOCH_REQ, 1)]).fget fCONV_STAGE_CNT_COUNT = 0
    ∧ (op [(fCONV_EPOCH_REQ, 1)]).calHost = false := by decide +kernel

/-- A staged list of one entry, for the last channel. -/
def stageS : State :=
  (op [(fCONV_EPOCH_REQ, 1), (fCONV_STAGE_CNT_COUNT, 1), (fCONV_TBL_STAGE_BASE, 1)]).wrLE 0x1001000 4 131071
theorem witness_stage : stageS.mainRuns = true ∧ stageS.fget fCONV_STAGE_CNT_COUNT = 1 ∧ ∃ q u, stageS.tblRd (tblAt (stageS.fget fCONV_TBL_STAGE_BASE * 4096)) 16 = (some q, u)
    ∧ (decide (leAt q 0 4 = 131071 ∧ leAt q 0x0E 1 = 0 ∧ leAt q 0x0F 1 = 0) && optIs (u.coefRd 131071) (fun _ _ => true)) = true :=
  ⟨by decide +kernel, by decide +kernel, optIs_spec (by decide +kernel)⟩

theorem witness_cal_save : (op [(fSYS_MODULE_MODE_CUR, 0), (fCONV_PERSIST_PERIOD, 1)]).fget fSYS_MODULE_MODE_CUR = 0
    ∧ (op [(fCONV_PERSIST_PERIOD, 1)]).fget fCONV_PERSIST_PERIOD ≠ 0 ∧ (op [(fCONV_PERSIST_PERIOD, 1)]).fbit fCONV_PERSIST_BUSY = false
    ∧ (op [(fCONV_PERSIST_BUSY, 1), (fCONV_PERSIST_RESTORED, 1)]).fbit fCONV_PERSIST_BUSY = true
    ∧ (op [(fCONV_PERSIST_BUSY, 1), (fCONV_PERSIST_RESTORED, 1)]).fbit fCONV_PERSIST_RESTORED = true
    ∧ (op [(fCONV_PERSIST_BUSY, 1)]).fbit fCONV_PERSIST_RESTORED = false := by decide +kernel

theorem witness_fabric : (busy (st { lanes2 with lm := 1 })).mainRuns = true ∧ (busy (st lanes2)).mainRuns = true ∧ (busy (st { lanes2 with lm := 1 })).inflight.find? (fun p => decide (p.tag = 0)) = (busy State.reset).inflight.head?
    ∧ (∀ q ∈ (busy State.reset).inflight, SMap.get (fun _ => 0) (busy State.reset).tagEpochs q.initiator = q.tagEpoch
        ∧ (q.bytes.map (fun b => b.1)).Nodup ∧ q.waited = 0 ∧ q.frm = none)
    ∧ (∀ p ∈ (busy State.reset).inflight, p.initiator = 0 → p.addr / 128 = 0x3680000 / 128 → p.tag = 0)
    ∧ NoneBuffered (busy (st lanes2)) ∧ (st lanes2).tagEpoch (cxIdx (.press 0)) = 0
    ∧ ({ st lanes2 with tagEpochs := [(0, 1)] } : State).tagEpoch (cxIdx (.press 0)) ≠ 0
    ∧ (∀ i ∈ [0, 79, inLoader 33, inRack, inLadle, inPcie, inMgmt], 0 < tagsReserved i ∧ ¬ (192 ≤ i ∧ i < 224)) := by unfold NoneBuffered; decide +kernel
theorem witness_no_stall : ∀ c ∈ allCx, ((busy (st lanes2)).cx c).stall = none := by decide +kernel
theorem witness_response : respErr .denied = true ∧ Resp.denied ≠ .parity := by decide

theorem witness_round_trip : (mbx1 [] { lanes2 with stall := some (.mbxSend 127 (List.replicate 8 0)) }).mainRuns = true ∧ (∃ msg, ((mbx1 [] { lanes2 with stall := some (.mbxSend 127 (List.replicate 8 0)) }).cx (.press 0)).stall
      = some (.mbxSend 127 msg) ∧ msg.length = (mbx1 [] lanes2).mbxWords 127)
    ∧ ((mbx1 [] lanes2).cx (.press 0)).busPend = none ∧ ((mbx1 [] lanes2).cx (.press 0)).toPend = false ∧ ((mbx1 [] lanes2).cx (.press 0)).buf = []
    ∧ CanPush (.press 0) ({ mbx1 [] lanes2 with mgt := { down := true } } : State)
    ∧ (∀ e ∈ live ((mbx1 [] lanes2).cx (.press 0)), e.2.x.toNat + 4 * (mbx1 [] lanes2).mbxWords 127 ≤ 0x100) := by
  exact ⟨by decide +kernel, ⟨List.replicate 8 0, by decide +kernel, by decide +kernel⟩, by decide +kernel, by decide +kernel, by decide +kernel,
    by unfold CanPush; decide +kernel, by decide +kernel⟩

/-- Running pairs whose comparator sees a difference in a valid bit and in the target, and none in a bit of an item not produced. -/
theorem witness_twin_sees : (∃ d, ((op []).setCx (.press 33) lanes2).twinSees (.press 33) [{ bit := 19, lanes := 2 }] = some d)
    ∧ (∃ d, ((op []).setCx (.scalar 15) one).twinSees (.scalar 15) [{ bit := 100 }] = some d)
    ∧ ((op []).setCx (.press 33) lanes2).twinSees (.press 33) [{ bit := 0, lanes := 2 }] = none
    ∧ (op []).fbit (fTWIN_STAT_CAPTURED (pressPage 33)) = false ∧ failedPatterns false [] = [] ∧ failedPatterns false [(953, {}), (954, {})] ≠ []
    ∧ (1 : BitVec 256) ≠ 0 := by
  refine ⟨⟨(((op []).setCx (.press 33) lanes2).twinSees (.press 33) [{ bit := 19, lanes := 2 }]).getD {}, by decide +kernel⟩,
    ⟨(((op []).setCx (.scalar 15) one).twinSees (.scalar 15) [{ bit := 100 }]).getD {}, by decide +kernel⟩, by decide +kernel, by decide +kernel, by decide, by decide +kernel, by decide⟩

theorem witness_twins : (op [(fPAIR_STAT_STATE (pressPage 33), stTest)]).mainRuns = true ∧ (op [(fPAIR_STAT_STATE (pressPage 33), stIdle)]).fget (fPAIR_STAT_STATE (pressPage 33)) ≠ stTest
    ∧ (op [(fPAIR_STAT_STATE (pressPage 33), stIdle)]).fget (fPAIR_STAT_STATE (pressPage 33)) ≠ stFenced
    ∧ InRange (.press 33) (op []) ∧ (op [(fPAIR_STAT_STATE (pressPage 33), stTest)]).fget (fPAIR_STAT_STATE (pressPage 33)) = stTest
    ∧ (op [(fPAIR_STAT_STATE (pressPage 33), stFenced)]).fget (fPAIR_STAT_STATE (pressPage 33)) = stFenced
    ∧ (op [(fPAIR_STAT_STATE (scalarPage 15), stIdle)]).fget (fPAIR_STAT_STATE (scalarPage 15)) ≠ stTest ∧ (op []).fget fRST_START_PHASE ≠ phFlush ∧ (op []).fget fRST_START_PHASE ≠ phHeld
    ∧ (op []).fget fRST_START_PHASE ≠ phStarting ∧ (∀ i < 2, ((op []).frame 33 i).row = none) := by
  unfold InRange; decide +kernel

/-- Entry 255 raises a TRIP on trigger 3 of partition 1; and no entry enabled. -/
def rfxS (b : Bool) : State :=
  let s := { op [(fTRL_RFX_CTRL_TBL, 1)] with triggers := [{ kind := 1, arg := 3, row := 511, lanes := 1 }] }
  if b then s.wrBytes (s.rfxAt 255) [1, 1, 1, 1, 3, 0] else s
theorem witness_reflex_ecc : (∀ e < 256, (rfxS true).eccAt ((rfxS true).rfxAt e) = 0 ∧ (rfxS true).eccAt ((rfxS true).rfxAt e + 8) = 0
    ∧ (rfxS true).rfxAt e % 8 = 0) := by decide +kernel
theorem witness_reflex : (rfxS true).mainRuns = true ∧ (∀ q < 256, q ≠ 255 → bitOf ((rfxS true).rdB ((rfxS true).rfxAt q + 3)).toNat 0 = false)
    ∧ (∀ q < 256, bitOf ((rfxS false).rdB ((rfxS false).rfxAt q + 3)).toNat 0 = false)
    ∧ bitOf (leAt ((rfxS true).rdList ((rfxS true).rfxAt 255) 16) 3 1) 0 = true ∧ leAt ((rfxS true).rdList ((rfxS true).rfxAt 255) 16) 0 1 = 1
    ∧ rfxOk ((rfxS true).rdList ((rfxS true).rfxAt 255) 16) = true
    ∧ rfxHit ((rfxS true).rdList ((rfxS true).rfxAt 255) 16) { kind := 1, arg := 3, row := 511, lanes := 1 } = true := by decide +kernel

/-! ### Grafts, events, alarms -/

/-- Partition 255's graft in a state. -/
def grf (n : Nat) (v : PartSt) : State := (op [(fPART_GRF_STAT_STATE 255, n)]).setPart 255 v
theorem witness_graft : (grf 3 {}).grfState 255 = 3 ∧ (grf 7 {}).grfState 255 = 7 ∧ ((grf 7 { rollback := true }).part 255).commitAt = none
    ∧ (grf 5 {}).grfState 255 = 5 ∧ ((grf 5 { windowEnd := some 0 }).part 255).windowEnd = some 0 ∧ 0 ≤ (grf 5 {}).lt.toNat
    ∧ (grf 6 {}).grfState 255 = 6 ∧ ((grf 6 {}).part 255).rollback = false := by decide +kernel
theorem witness_graft_sweep : ∀ r ∈ (grf 6 {}).rowsOfPart 255, (grf 6 {}).arrBit (rPART_GRF_ROWMIG 0) r = true := by decide +kernel
def migS (b : Bool) : State := State.reset.setCx (.scalar 15) { one with stall := some (.migrate 511 b) }
theorem witness_migration : (migS false).mainRuns = true ∧ (migS true).mainRuns = true ∧ ((migS false).cx (.scalar 15)).stall = some (.migrate 511 false) ∧ (migS false).pressClaim 511 = false
    ∧ (put [(fSCHED_ROW_STAT_CLAIM 511, clExec)] (migS false)).pressClaim 511 = true ∧ ((migS true).cx (.scalar 15)).stall = some (.migrate 511 true)
    ∧ Settled (.scalar 15) (migS true) ∧ ((migS false).setReg (rPART_GRF_ROWMIG 15) 0).arrBit (rPART_GRF_ROWMIG 0) 511 = false := by
  unfold Settled; decide +kernel

/-- Source 767 latched; partition 1 in RUN awaits it, with no context waiting and with press pair 0 waiting. -/
def raiseS (x : Ctx) : State :=
  { put [(fPART_STAT_CUR 1, 0), (fPART_WAIT_BIND_SRC1 1 3, 767)] (st x) with evLatch := [(767, true)] }
theorem witness_raise : (raiseS {}).nextServed 767 = true ∧ (raiseS {}).nextServed 766 = false
    ∧ ({ raiseS {} with evLatch := [(5, true), (767, true)] } : State).nextServed 767 = false ∧ (raiseS {}).partMode 1 ≠ 1 ∧ mayWait (raiseS {}) 1 767
    ∧ (∀ c ∈ allCx, ((raiseS {}).cx c).part = 1 → ((raiseS {}).cx c).waitsOn 767 = false) := by unfold mayWait; decide +kernel
theorem witness_wake : (raiseS { one with stall := some (.event 767 (some 5) none) }).mainRuns = true ∧ ((raiseS { one with stall := some (.event 767 (some 5) none) }).cx (.press 0)).part = 1
    ∧ ((raiseS { one with stall := some (.event 767 (some 5) none) }).cx (.press 0)).running = true
    ∧ ((raiseS { one with stall := some (.event 767 (some 5) none) }).cx (.press 0)).stall = some (.event 767 (some 5) none)
    ∧ (raiseS {}).lt.toNat < 5 ∧ ((st { one with stall := some (.event 767 none (some 767)) }).cx (.press 0)).stall = some (.event 767 none (some 767))
    ∧ ((st { one with stall := some (.event 0x3FF (some 0) none) }).cx (.press 0)).stall = some (.event 0x3FF (some 0) none)
    ∧ 0 ≤ (st one).lt.toNat := by decide +kernel

/-- Alarm 63: a target in the past, once and periodic; and a sample of the first word beyond the table store. -/
theorem witness_alarm_lt : (op [(fEVT_ALM_CTRL_EN 63, 1)]).mainRuns = true ∧ (op [(fEVT_ALM_CTRL_EN 63, 1)]).fbit (fEVT_ALM_CTRL_EN 63) = true
    ∧ (op [(fEVT_ALM_CTRL_EN 63, 1)]).almTarget 63 ≤ (op []).lt.toNat ∧ (op [(fEVT_ALM_CTRL_EN 63, 1)]).fget (fEVT_ALM_CTRL_MODE 63) = 0
    ∧ (op [(fEVT_ALM_CTRL_MODE 63, 1), (fEVT_ALM_HYST_VALUE 63, 1000)]).fget (fEVT_ALM_CTRL_MODE 63) = 1
    ∧ (op [(fEVT_ALM_CTRL_MODE 63, 1), (fEVT_ALM_HYST_VALUE 63, 1000)]).fget (fEVT_ALM_HYST_VALUE 63) ≠ 0
    ∧ (op []).lt.toNat + 2 ^ 32 < 2 ^ 64 := by decide +kernel
def alm (b : Bool) (l : List (Fld × Nat)) : State :=
  { (op ([(fEVT_ALM_CTRL_EN 63, 1), (fEVT_ALM_CTRL_MODE 63, 2), (fEVT_ALM_CTRL_WIDTH 63, 2), (fEVT_ALM_CTRL_SIGNED 63, 1),
      (fEVT_ALM_ADDR_ADDR 63, 0x3680000)] ++ l)).wrLE 0x3680000 4 5 with almIssued := [63], almSeen := if b then [(63, true)] else [] }
theorem witness_alarm_sample : (alm true []).mainRuns = true ∧ 63 ∈ (alm true []).almIssued ∧ (alm true []).fbit (fEVT_ALM_CTRL_EN 63) = true
    ∧ (alm true []).fget (fEVT_ALM_CTRL_MODE 63) = 2 ∧ (alm true []).fget (fEVT_ALM_CTRL_WIDTH 63) = 2 ∧ (alm true []).fbit (fEVT_ALM_CTRL_SIGNED 63) = true
    ∧ 0x1800000 ≤ (alm true []).fget (fEVT_ALM_ADDR_ADDR 63) ∧ SMap.get (fun _ => false) (alm true []).almSeen 63 = true
    ∧ SMap.get (fun _ => false) (alm false []).almSeen 63 = false ∧ (alm true []).fbit (fEVT_ALM_CTRL_ACTIVE 63) = false
    ∧ sgn 32 ((alm true []).reg (rEVT_ALM_A 63)).toNat < sgn 32 ((alm true []).rdLE 0x3680000 4)
    ∧ (alm true []).fget (fEVT_ALM_CTRL_EDGE 63) = 0 := by decide +kernel

/-- The PF's last vector, and the last vector of VF 256. -/
def msixS : State := { op [] with vfs := 256, msixEn := [256], msix := [(256 * 1024 + 7, { pending := true })] }
theorem witness_msix : msixS.fnExists 0 = true ∧ msixS.fnExists 256 = true ∧ (SMap.get msix0 msixS.msix (256 * 1024 + 7)).pending = true
    ∧ 256 ∈ msixS.msixEn ∧ 256 ∉ msixS.msixFmask := by decide +kernel

/-! ### The field link -/

/-- Port 31 is up with one board, position 0. -/
def link (l : List (Fld × Nat)) : State := row1 ([(fTRL_PORT_STAT_LINK 31, lkUp), (fRACK_STAT_GATE, 1)] ++ l) {}
def h31 : TrHdr := { gen := 0, cycle := 0, lt := 0, row := 511, src := 0, flags := 0, len := 4096, port := 31 }
theorem witness_header : HdrOk (link [(fTRL_GEN_GEN, 0)]) 31 h31 := by unfold HdrOk; decide +kernel
theorem witness_harvest : Harvested ((link [(fTRL_POS_STAT_STATE 31 0, posMeasured)]).wrLE ((op []).schedTbl 31 0 + 4) 4 1000) 31 h31 := by
  unfold Harvested; decide +kernel
theorem witness_reject : FieldBad.hcrc ≠ .aborted ∧ (op []).fget fRACK_STAT_ROLE ≠ roleStandby := by decide +kernel
/-- An identity block of board 0: module number and identity as in the table in force. -/
def helloPay : List Byte := [2, 0] ++ List.replicate 42 0 ++ leBytes 2 256 ++ [0, 0, 0, 3, 6, 8, 10, 13, 14, 0] ++ List.replicate 72 0
theorem witness_hello : helloPay.length = 128 ∧ leAt helloPay 0 1 = 2 ∧ zeros helloPay [(2, 6), (0x27, 1), (0x2F, 1)] ∧ leAt helloPay 0x2E 1 < 2
    ∧ leAt helloPay 1 1 < (link []).boards 31 ∧ leAt helloPay 0x2C 2 = 256
    ∧ (helloPay.drop 0x30).take 8 = (link []).rdList ((link []).tblInForce 31 + 0x10) 8
    ∧ (op []).fget (fTRL_POS_STAT_STATE 31 0) = posAbsent := by unfold zeros; decide +kernel
def mgmtPay : List Byte := [2, 0, 7, 0, 0, 4, 0, 0]
theorem witness_management : leAt mgmtPay 0 1 = 2 ∧ zeros mgmtPay [(3, 1), (6, 2)] ∧ leAt mgmtPay 4 2 ≤ 1024 ∧ 8 + leAt mgmtPay 4 2 = 1032
    ∧ (link []).fbit (fTRL_MGMT_RX_VALID 31) = false ∧ (link [(fTRL_MGMT_RX_VALID 31, 1)]).fbit (fTRL_MGMT_RX_VALID 31) = true := by
  unfold zeros; decide +kernel
/-- A delay answer with no residence: round trips of −1, 0, 20,000 × 2^16 and one more, in 2^−16 ns. -/
def delayPay : List Byte := [2, 0, 1, 0] ++ List.replicate 44 0
theorem witness_delay : leAt delayPay 0 1 = 2 ∧ zeros delayPay [(4, 4), (0x20, 16)] ∧ leAt delayPay 1 1 = 0 ∧ leAt delayPay 2 2 = 1
    ∧ (((link []).setPort 31 { stamps := [(0, 1, 1)] }).port 31).stamps.find? (fun e => decide (e.1 = 0) && decide (e.2.1 = 1)) = some (0, 1, 1)
    ∧ ((link []).posn 31 0).meas = [] ∧ (link []).isFar 31 0 = false
    ∧ (65535 : Int) - 1 * 65536 < 0 ∧ (0 : Int) ≤ 65536 - 1 * 65536 ∧ (1310785536 : Int) - 1 * 65536 ≤ 20000 * 65536
    ∧ (20000 : Int) * 65536 < 1310785537 - 1 * 65536 := by unfold zeros; decide +kernel

theorem witness_link : (link [(fTRL_PORT_STAT_LINK 31, lkTraining)]).portEn 31 = true
    ∧ (link [(fTRL_PORT_STAT_LINK 31, lkTraining)]).fget (fTRL_PORT_STAT_LINK 31) = lkTraining
    ∧ (link [(fTRL_PORT_STAT_LINK 31, lkRetrain)]).fget (fTRL_PORT_STAT_LINK 31) = lkRetrain
    ∧ (link []).fget (fTRL_PORT_STAT_LINK 31) = lkUp ∧ (link [(fTRL_PORT_STAT_LINK 31, lkReset)]).fget (fTRL_PORT_STAT_LINK 31) = lkReset := by decide +kernel
theorem witness_discovery : ((link []).posn 31 15).answered = false ∧ ((link []).posn 31 15).miss < 2
    ∧ 2 ≤ (((link []).setPosn 31 15 { miss := 2 }).posn 31 15).miss := by decide +kernel
theorem witness_period : (link []).mainRuns = true ∧ (link []).portSends 31 = true ∧ (link []).fget fRACK_STAT_ROLE = 1 ∧ (link []).rack.takeAt = none
    ∧ (link []).commitBits = [] ∧ (link []).rack.swapW = none ∧ ((link []).port 31).ctlAt ≠ some (link []).cycle.toNat
    ∧ (let s : State := { link [] with lt := 9800 }; s.tn.toNat + s.boards 31 * s.pourLen 31 ≤ s.lt.toNat ∧ s.lt.toNat + 200 ≤ s.tn.toNat + s.bc * 1000)
    ∧ (((link []).setPort 31 { ctlAt := some 0 }).port 31).ctlAt = some (link []).cycle.toNat
    ∧ (link []).lt.toNat < (link []).tn.toNat + (((link []).wrLE ((link []).schedTbl 31 0 + 8) 2 2000).boards 31) * ((link []).wrLE ((link []).schedTbl 31 0 + 8) 2 2000).pourLen 31 := by
  decide +kernel
/-- A standby on a line whose far end it serves. -/
def standbyS : State := put [(fRACK_STAT_ROLE, roleStandby)] (link [])
theorem witness_line_end : standbyS.portEn 31 = true ∧ standbyS.fget (fTRL_PORT_STAT_LINK 31) = lkUp ∧ standbyS.fget fRACK_STAT_ROLE = roleStandby
    ∧ leAt ([1, 0xFE] : List Byte) 0 1 = 1 ∧ leAt ([1, 0xFE] : List Byte) 1 1 = 0xFE
    ∧ ({ h31 with src := srcActive } : TrHdr).src = srcActive := by decide +kernel
/-- A SYNC missed at the standby, whose count reaches DETECT with a racking lane up. -/
theorem witness_sync_missed : (let s := put [(fTRL_CTRL_SPLIT_EN, 1), (fRACK_STAT_LANES, 1), (fTRL_SPLIT_CFG_DETECT, 1)] standbyS
    s.fbit fTRL_CTRL_SPLIT_EN = true ∧ s.rackLanes ≠ [] ∧ s.fget fTRL_SPLIT_CFG_DETECT ≤ (s.port 31).missed + 1 ∧ (s.port 31).far = none ∧ s.mainRuns = true)
    ∧ (put [(fTRL_CTRL_SPLIT_EN, 0)] standbyS).fbit fTRL_CTRL_SPLIT_EN = false ∧ (link []).portHears 31 = true := by decide +kernel
/-- A far segment of one position, before its fourth measurement from this side and after it; the standby's end of it. -/
def splitS (n : Nat) (s : State) : State :=
  (put [(fTRL_POS_STAT_STATE 31 0, posFar)] (s.setPort 31 { far := some (0, 0), heard := n })).setPosn 31 0 { near := List.replicate n default }
theorem witness_split : (link []).fget fRACK_STAT_ROLE = 1 ∧ ((splitS 4 (link [])).port 31).far = some (0, 0) ∧ ((splitS 4 (link [])).port 31).leaveAt = none
    ∧ (∀ k ∈ (splitS 4 (link [])).farPositions 31 0, 4 ≤ ((splitS 4 (link [])).posn 31 k).near.length)
    ∧ (∃ k ∈ (splitS 3 (link [])).farPositions 31 0, ((splitS 3 (link [])).posn 31 k).near.length < 4)
    ∧ 0 < (splitS 4 (link [])).boards 31 ∧ (splitS 4 (link [])).isFar 31 0 = true := by decide +kernel
theorem witness_split_standby : (splitS 9 standbyS).fget fRACK_STAT_ROLE = roleStandby ∧ ((splitS 9 standbyS).port 31).far = some (0, 0)
    ∧ (splitS 9 standbyS).fget fTRL_SPLIT_CFG_DETECT ≤ ((splitS 9 standbyS).port 31).heard
    ∧ ((splitS 0 standbyS).port 31).heard < (put [(fTRL_SPLIT_CFG_DETECT, 1)] (splitS 0 standbyS)).fget fTRL_SPLIT_CFG_DETECT := by decide +kernel

/-! ### Racking -/

def hr (q : Nat) (r : Fin 3) : RackHdr := { gen := 1, cycle := 0, lt := 0, seq := q, lane := 0, role := r }
theorem witness_hears : Hears standbyS ∧ NextOrdered standbyS (hr 1 1) ∧ NextOrdered { standbyS with rackApplied := 0xFFFFFFFF } (hr 0 1)
    ∧ NextOrdered { standbyS with rack := { fresh := true } } (hr 7 1) ∧ (hr 0 1).role.val = roleActive := by unfold NextOrdered Hears; decide +kernel
theorem witness_coef : ([(0, List.replicate 32 0), (131071, List.replicate 32 1)] : List (Fin 131072 × List Byte)).Pairwise (fun a b => a.1 ≠ b.1)
    ∧ ∀ e ∈ ([(0, List.replicate 32 0), (131071, List.replicate 32 1)] : List (Fin 131072 × List Byte)), e.2.length = 32 := by decide +kernel
theorem witness_stepev : (standbyS.ch 131071).rack = none ∧ (List.replicate 32 (0 : Byte)).length = 32 := by decide +kernel
theorem witness_rack_code : (put [(fPART_GRF_STAT_STATE 255, 3)] standbyS).grfState 255 = 3 ∧ (put [(fPART_GRF_STAT_STATE 255, 4)] standbyS).grfState 255 = 4 := by
  decide +kernel
/-- The last bytes of the table store. -/
theorem witness_rack_config : 0x17FFFFE + [(1 : Byte), 2].length ≤ 0x1800000 ∧ (∀ p < 32, ∀ k < 2, standbyS.schedTbl p k + 256 ≤ 0x17FFFFE) := by decide +kernel
theorem witness_pour_observed : standbyS.portEn 31 = true ∧ h31.gen = standbyS.fget fTRL_GEN_GEN ∧ h31.row < 512
    ∧ SMap.get (fun _ => none) standbyS.rack.pours 511 = none := by decide +kernel
theorem witness_relay : ((standbyS.setPort 31 { far := some (1, 0) }).port 31).far.isSome = true ∧ standbyS.portEn 31 = true
    ∧ standbyS.fget (fTRL_PORT_STAT_LINK 31) = lkUp ∧ (put [(fTRL_PORT_STAT_LINK 31, lkRetrain)] standbyS).fget (fTRL_PORT_STAT_LINK 31) ≠ lkUp := by
  decide +kernel

theorem witness_resend : (let s : State := { op [(fRACK_STAT_LANES, 1)] with rackUnacked := [⟨3, 1, []⟩], cycle := 4 }
    s.rackUnacked ≠ [] ∧ s.rackLanes ≠ [] ∧ s.rackProgress + 4 ≤ s.cycle.toNat) := by decide +kernel
theorem witness_sweep : (op [(fRACK_STAT_SYNC, 3)]).racks = true ∧ (op [(fRACK_STAT_SYNC, 2)]).racks = true
    ∧ (op []).fget fRACK_CFG_SWEEP_MAX < 0xFFFFFFFF ∧ (op [(fRACK_STAT_SYNC, 2), (fRACK_FILL_PHASE, 2)]).fget fRACK_STAT_SYNC = 2
    ∧ (op [(fRACK_STAT_SYNC, 2), (fRACK_FILL_PHASE, 2)]).fget fRACK_FILL_PHASE = 2 ∧ (op []).flush.quiet = false := by decide +kernel
/-- A later generation, the same with SLOT_ID 1, and the same with SLOT_ID 0. -/
theorem witness_yields : Yields (op []) 1 ∧ Yields (op [(fRACK_STAT_SLOT_ID, 1)]) 0 ∧ ¬ Yields (op []) 0 ∧ ¬ Yields (op []) 0xFFFF ∧ ResetsNow (op []) 8 := by
  unfold Yields ResetsNow; decide +kernel

/-- A start with no peer, a silent peer, a peer in the same slot and an active peer in the other. -/
def starting (p : Option (Bool × Nat)) (l : List (Fld × Nat)) : State :=
  { put ([(fRST_START_PHASE, phStarting), (fRACK_STAT_ROLE, 0)] ++ l) State.reset with rack := { peer := p } }
theorem witness_role : (starting none []).fget fRST_START_PHASE = phStarting ∧ (starting none []).fget fRACK_STAT_ROLE = 0
    ∧ (starting none []).rack.settle = none ∧ (starting none []).rack.peer = none ∧ (starting none []).fbit fRACK_STAT_PEER_IN = false
    ∧ (starting none [(fRACK_STAT_PEER_IN, 1)]).fbit fRACK_STAT_PEER_IN = true
    ∧ (starting (some (true, 1)) []).rack.peer = some (true, 1) := by decide +kernel
def settling (c : Nat) (l : List (Fld × Nat)) : State := { op l with rack := { settle := some c } }
theorem witness_settle : (settling 0 []).rack.settle.isSome = true ∧ (settling 0 []).fbit fRACK_STAT_PEER_IN = false
    ∧ (settling 7 [(fRACK_STAT_ACTIVE_OUT, 1)]).rack.settle = some 7 ∧ (settling 7 [(fRACK_STAT_ACTIVE_OUT, 1)]).fbit fRACK_STAT_ACTIVE_OUT = true
    ∧ (settling 7 [(fRACK_STAT_ACTIVE_OUT, 1)]).fbit fRACK_STAT_GATE = false := by decide +kernel
/-- Two microseconds into a cycle of which no BEAT has come. -/
def noBeat (l : List (Fld × Nat)) : State := { put ((fRACK_STAT_SYNC, 3) :: l) standbyS with lt := 2000, tn := 0 }
theorem witness_beat_missed : ∀ l ∈ [[], [(fRACK_CFG_BEAT_LOSS, 1), (fRACK_STAT_PEER_IN, 1)], [(fRACK_CFG_BEAT_LOSS, 1)]],
    (noBeat l).fget fRACK_STAT_ROLE = roleStandby ∧ (noBeat l).rack.beat ≠ some (noBeat l).cycle.toNat ∧ (noBeat l).rack.missAt ≠ some (noBeat l).cycle.toNat
    ∧ (noBeat l).tn.toNat + 2000 ≤ (noBeat l).lt.toNat ∧ (noBeat l).fget fRACK_STAT_SYNC = 3 ∧ (noBeat l).rack.settle = none
    ∧ (l = [] ↔ (noBeat l).rack.missed + 1 ≠ (noBeat l).fget fRACK_CFG_BEAT_LOSS)
    ∧ (l.length = 2 ↔ (noBeat l).fbit fRACK_STAT_PEER_IN = true) := by decide +kernel
theorem witness_peer_edges : (put [(fRACK_STAT_SYNC, 3), (fRACK_STAT_PEER_IN, 1)] standbyS).fbit fRACK_STAT_PEER_IN = true
    ∧ standbyS.fget fRST_START_PHASE = phOperating ∧ standbyS.rack.yielded = false ∧ standbyS.rack.settle = none
    ∧ (put [(fRACK_STAT_SYNC, 3)] standbyS).fget fRACK_STAT_SYNC = 3 ∧ standbyS.fget fRACK_STAT_SYNC ≠ 3 ∧ standbyS.fbit fRACK_STAT_ACTIVE_OUT = false
    ∧ (op [(fRACK_STAT_ACTIVE_OUT, 1)]).fbit fRACK_STAT_ACTIVE_OUT = true ∧ (op [(fRACK_STAT_SLOT_ID, 1)]).fbit fRACK_STAT_SLOT_ID = true
    ∧ (op [(fRACK_STAT_GATE, 1)]).fbit fRACK_STAT_GATE = true := by decide +kernel
theorem witness_swap : (let s : State := { op [] with rack := { swapW := some 0 } }
    s.rack.swapW = some s.cycle.toNat ∧ s.fget fRACK_STAT_ROLE = roleActive ∧ s.pourEnd ≤ s.lt.toNat) := by decide +kernel

/-! ### The register space -/

theorem witness_round_trip_judin : (Instr.jTon (.scalar 15) 3 (.disp .y 0xFFFF)).wf = true
    ∧ judinEncode (.jTon (.scalar 15) 3 (.disp .y 0xFFFF)) = some (0xB0E8, some 0xFFFF)
    ∧ judinDecode? (.scalar 15) 0xB0E8 0xFFFF = some (.jTon (.scalar 15) 3 (.disp .y 0xFFFF)) := by decide

/-- The PF reaches each of these registers with each of these values on a module in STOP. -/
theorem witness_reach : ∀ e ∈ [(rTIME_SLEW, 0), (rSTEP_HOST_ARG, 0xFFFFFFFF), (rHOST_RQ_BASE_HI 256, 1), (rSCHED_CNT_CLR, 1), (rSCHED_P_CLR 255, 1),
      (rFAB_CNT_CLR, 1), (rPAIR_CNT_CLR (pressPage 33), 1), (rPAIR_CNT_CLR (scalarPage 15), 1), (rPRESS_CMN_CLR, 1), (rSCALAR_CMN_CLR, 1),
      (rEVT_CNT_CLR, 1), (rSTEP_CNT_CLR, 1), (rCONV_CNT_CLR, 1), (rLEDG_CNT_CLR, 1), (rTRL_CNT_CLR 31, 1), (rTRL_RFX_CLR, 1), (rRACK_CNT_CLR, 1),
      (rTIME_CNT_CLR, 1), (rHOST_PWE_CLR, 1), (rHOST_CNT_CLR, 1), (rCAN_CNT_CLR 3, 1), (rLIO_CNT_CLR, 1)], Reach (op []) 0x200 e.1 e.2 := by
  unfold Reach; decide +kernel
theorem witness_reach_commands : ∀ e ∈ [((fMBX_CMD_GO 127).off, 1), (rMBX_MSG 127 15, 5), (rPART_GRF_CTRL 255, 2 ^ 31), (rPART_GRF_GROUP, 1),
      (rPART_GRF_ALLOC 255, 2 ^ 24), (rTRL_PORT_CTRL 31, 3), (rPART_CTRL 255, 2), (rSYS_MODULE_MODE, 16), (rSYS_MODULE_MODE, 32), (rRST_CTRL, 0xA501),
      (rRST_CTRL, 2), (rSYS_ERR_STAT, 1), (rPART_WIN_CTRL 255 3, 0x101), (rPART_WIN_BASE 255 3, 0x3680000), (rTWIN_CMD (pressPage 33), 0x2101),
      (rEVT_SW_RAISE, 767), (rEVT_ALM_B 63, 1), (rCONV_EPOCH, 2 ^ 31), (rCONV_PERSIST, 2 ^ 31 + 1440), (rTRL_SCHED_COMMIT, 1), (rTRL_MGMT_TX 31, 2 ^ 30 + 1024),
      (rTRL_MGMT_RX 31, 2 ^ 31), (rRACK_CMD, 1), (rRACK_CMD, 2), (rRACK_GEN_SEED, 7)], Reach (op []) 0x200 e.1 e.2 := by
  unfold Reach; decide +kernel

/-- STEP_HOST_ARG takes every value; SCHED_RIPE_GRACE takes no reserved bit. -/
theorem witness_register_write : rSTEP_HOST_ARG ∈ plainRegs ∧ isVf 0x200 = false ∧ (regRow? rSTEP_HOST_ARG).isSome = true
    ∧ ((regRow? rSTEP_HOST_ARG).all (fun row => row.fields.all (fun f => f.takes (bitsOf 0xFFFFFFFF f.hi f.lo)))) = true
    ∧ (regRow? rSCHED_RIPE_GRACE).any (fun row => row.fields.any (fun f => decide (f.acc ≠ .ro) && !f.takes (bitsOf 0xFFFFFFFF f.hi f.lo))) = true := by
  decide +kernel
/-- A byte write, a write at an odd word address, and a write by a VF of a PF register. -/
theorem witness_register_drop : (op []).busMaster 0x200 = true ∧ ¬ (([1] : List Byte).length = 4 ∧ rTIME_SLEW % 4 = 0)
    ∧ ¬ (([1, 2, 3, 4] : List Byte).length = 4 ∧ (rTIME_SLEW + 2) % 4 = 0)
    ∧ ({ op [] with vfs := 1 } : State).busMaster 0x100 = true ∧ ∃ r, ({ op [] with vfs := 1 } : State).regGate 0x100 rTIME_SLEW 0 = some r := by
  refine ⟨by decide +kernel, by decide +kernel, by decide +kernel, by decide +kernel,
    ((({ op [] with vfs := 1 } : State).regGate 0x100 rTIME_SLEW 0).getD 0), by decide +kernel⟩
/-- A read of a byte, and one of a word at an odd address; a write behind the management island while it restarts. -/
theorem witness_register_ur : ¬ (1 = 4 ∧ rTIME_SLEW % 4 = 0) ∧ ¬ (4 = 4 ∧ (rTIME_SLEW + 2) % 4 = 0) ∧ rTIME_SLEW + 2 < 0x1000000
    ∧ ({ op [] with mgt := { down := true } } : State).regGate 0x200 rTIME_SLEW 5 = some pwFabric
    ∧ ({ op [] with vfs := 1 } : State).regGate 0x100 rTIME_SLEW 0 ≠ some pwFabric := by decide +kernel
theorem witness_pair_read : (op []).busMaster 0x203 = true ∧ isVf 0x203 = false ∧ (op []).fget fSYS_MODULE_MODE_CUR ≠ 2
    ∧ (op []).fbit (fHOST_RQ_CFG_EN 256) = false := by decide +kernel
/-- The last bytes of the program store; a write into a locked partition's code; the last byte of the image store. -/
theorem witness_windows : (∀ i < 2, inStores (0x1000000 + i) = true) ∧ (∀ i < 2, (op []).winDrop 0x200 (0x1000000 + i) = none)
    ∧ (∀ i < 4, inStores (0x1000000 + i) = true ∧ (op []).eccAt (0x1000000 + i) = 0)
    ∧ (∃ r, standbyS.winDrop 0x200 0x1000000 = some r) ∧ (∀ i < 2, isImage (0x2000000 + i) = true) ∧ isVf 0x100 = true
    ∧ ({ op [] with vfs := 1 } : State).vfReach (0x100 - 0xFF) 0x2000000 true = false := by
  refine ⟨by decide +kernel, by decide +kernel, by decide +kernel, ⟨(standbyS.winDrop 0x200 0x1000000).getD 0, by decide +kernel⟩, by decide +kernel,
    by decide +kernel, by decide +kernel⟩

/-! ### Mailbox, graft, mode and unit commands -/

/-- Channel 127 with the PF at both ends, EMPTY and POSTED, its signals enabled or not. -/
def mbxH (g e : Nat) : State :=
  op [(fMBX_BIND_EN 127, 1), (fMBX_BIND_SENDER 127, 0x200), (fMBX_BIND_RECEIVER 127, 0x200), (fMBX_CH_STAT_GO 127, g), (fMBX_BIND_POSTED_EV 127, e)]
theorem witness_mailbox_commands : Reach (mbxH 0 1) 0x200 (fMBX_CMD_GO 127).off 1 ∧ (∀ i < 4, i ≠ 0 → bitOf 1 i = false)
    ∧ (mbxH 0 1).mbxSends 127 0x200 = true ∧ (mbxH 1 1).mbxReceives 127 0x200 = true ∧ (mbxH 0 1).mbxSends 127 0x203 = false
    ∧ (mbxH 0 1).fbit (fMBX_CH_STAT_GO 127) = false ∧ (mbxH 1 1).fbit (fMBX_CH_STAT_GO 127) = true
    ∧ (mbxH 0 1).fbit (fMBX_BIND_POSTED_EV 127) = true ∧ (mbxH 0 0).fbit (fMBX_BIND_POSTED_EV 127) = false
    ∧ 7 < (mbxH 0 0).mbxWords 127 ∧ (mbxH 0 0).mbxWords 127 ≤ 8 := by unfold Reach; decide +kernel

theorem witness_graft_commands : Reach (grf 1 {}) 0x200 (rPART_GRF_CTRL 255) (setBits 0x12C 31 31 1) ∧ (grf 1 {}).grfState 255 = 1 ∧ (grf 1 {}).standby = false
    ∧ (grf 2 {}).grfState 255 ∈ [1, 2, 3] ∧ ((grf 4 {}).part 255).commitAt = none ∧ ((grf 4 { commitAt := some 2 }).part 255).commitAt ≠ none
    ∧ (grf 0 {}).grfState 255 ∈ [0, 5, 6, 7] ∧ ((grf 5 {}).part 255).other.maps ≠ 1 ∧ ((grf 5 { other := { maps := 1 } }).part 255).other.maps = 1
    ∧ standbyS.standby = true ∧ Reach standbyS 0x200 (rPART_GRF_CTRL 255) (setBits 0x12C 31 31 1)
    ∧ (0x12C : Word) = (grf 1 {}).reg (rPART_GRF_CTRL 255) ∧ (grf 0 {}).grfState 255 ≠ 1 := by unfold Reach; decide +kernel
/-- A group whose one member waits for its commit, and one whose member is being checked. -/
def grp (g : Nat) : State := put [(fPART_GRF_CTRL_GROUP 255, 1)] (grf g {})
theorem witness_graft_group : (∀ n < 256, (grp 4).fbit (fPART_GRF_CTRL_GROUP n) = true → (grp 4).grfState n ≠ 2 ∧ (grp 4).grfState n ≠ 3)
    ∧ (grp 4).standby = false ∧ (∃ n, (n < 256 ∧ (grp 2).fbit (fPART_GRF_CTRL_GROUP n) = true) ∧ ((grp 2).grfState n = 2 ∨ (grp 2).grfState n = 3)) := by
  refine ⟨by decide +kernel, by decide +kernel, 255, by decide +kernel⟩
/-- The first fit in an empty program store, and none where one run fills it. -/
theorem witness_graft_alloc : Free (op []).codeRuns 6144 128 0 ∧ (∀ b, Free (op []).codeRuns 6144 128 b → 0 ≤ b)
    ∧ (op []).grfState 255 = 0 ∧ (grf 3 {}).grfState 255 ≠ 0 ∧ bitsOf (0x80000000 : Nat) 31 24 ≤ 128 := by
  refine ⟨?_, fun _ _ => Nat.zero_le _, by decide +kernel, by decide +kernel, by decide⟩
  unfold Free; decide +kernel
theorem witness_graft_full : ∀ a, ¬ Free [(0, 6144)] 6144 1 a := by
  intro a h
  rcases h with ⟨h1, h2⟩
  have := h2 (0, 6144) (by simp)
  simp only at this
  omega

theorem witness_modes : (op []).fget fSYS_MODULE_MODE_CUR ≠ 2 ∧ (op [(fSYS_MODULE_MODE_CUR, 2)]).fget fSYS_MODULE_MODE_CUR = 2
    ∧ Reach (op [(fSYS_MODULE_MODE_CUR, 2)]) 0x200 rSYS_MODULE_MODE 16 ∧ ResetsNow (op [(fSYS_MODULE_MODE_CUR, 2)]) 11
    ∧ (op []).fbit (fPART_CTRL_LOCK 255) = false ∧ (op []).partMode 255 = 1 ∧ (op [(fPART_STAT_CUR 255, 0)]).partMode 255 ≠ 1
    ∧ (op [(fPART_CTRL_LOCK 255, 1)]).fbit (fPART_CTRL_LOCK 255) = true ∧ (op [(fPART_CTRL_LOCK 255, 1)]).fget (fPART_CTRL_REQ 255) ≠ 2
    ∧ Reach (op []) 0x200 (rPART_CTRL 0) 0 ∧ bitsOf 0xA501 15 8 = 0xA5 ∧ bitsOf 0xA401 15 8 ≠ 0xA5
    ∧ (op [(fSYS_ERR_STAT_CFG_REJECT, 1)]).fbit fSYS_ERR_STAT_CFG_REJECT = true ∧ (op []).fbit fSYS_ERR_STAT_CFG_REJECT = false := by
  unfold Reach ResetsNow; decide +kernel

/-- A window of one 256-byte unit at the start of the row state, and one of sixteen. -/
theorem witness_grants : (op []).heldGrants = [] ∧ (op []).epochsOut = [] ∧ 1 ≤ bitsOf 0x101 12 8 ∧ bitsOf 0x1001 12 8 ≤ 16
    ∧ winOk 0x3680000 256 false = true ∧ (op []).fbit (fPART_WIN_CTRL_EN 255 3) = false
    ∧ 1 ∈ ({ busy (op []) with inflight := (busy (op [])).inflight.map (fun r => { r with ruleEpoch := 1 }) } : State).epochsOut
    ∧ ((op []).fget fPART_RULE_EPOCH + 1) % 16 = 1 := by decide +kernel
theorem witness_twin_commands : (op [(fPAIR_STAT_STATE (pressPage 33), stSpare)]).fget (fPAIR_STAT_STATE (pressPage 33)) = stSpare
    ∧ (op [(fPAIR_STAT_STATE (pressPage 33), stIdle)]).fget (fPAIR_STAT_STATE (pressPage 33)) ≠ stSpare
    ∧ bitsOf 0x2101 13 8 = 33 ∧ bitOf 0x2101 1 = false ∧ bitOf 0x2102 0 = false := by decide +kernel
theorem witness_unit_commands : bitsOf 767 9 0 < 768 ∧ 768 ≤ bitsOf 0x3FF 9 0
    ∧ (op []).fget (fEVT_ALM_CTRL_MODE 63) ≤ 1 ∧ 2 ≤ (op [(fEVT_ALM_CTRL_MODE 63, 2)]).fget (fEVT_ALM_CTRL_MODE 63)
    ∧ bitsOf (2 ^ 31 + 1440) 15 0 ≤ 1440 ∧ (∀ i, 1 ≤ i → i ≤ 4 → i ≠ 1 → bitOf 3 i = false)
    ∧ bitsOf 3 9 8 = (op []).fget (fTRL_PORT_CTRL_MEDIA 31) ∧ bitOf 3 0 = true ∧ (link []).portEn 31 = true ∧ bitOf 2 0 = false
    ∧ (op []).fbit (fTRL_MGMT_TX_BUSY 31) = false ∧ (op [(fTRL_MGMT_TX_BUSY 31, 1)]).fbit (fTRL_MGMT_TX_BUSY 31) = true := by
  refine ⟨by decide, by decide, by decide +kernel, by decide +kernel, by decide, fun i h1 h2 h3 => ?_, by decide +kernel, by decide, by decide +kernel,
    by decide, by decide +kernel, by decide +kernel⟩
  have h : i = 2 ∨ i = 3 ∨ i = 4 := by omega
  rcases h with rfl | rfl | rfl <;> decide
theorem witness_rack_commands : (op []).active = true ∧ standbyS.active = false ∧ ({ op [] with rack := { swapW := some 5 } } : State).rack.swapW.isSome = true
    ∧ ¬ ((op []).rack.swapSeq.isSome = true ∨ (op []).rack.swapW.isSome = true) ∧ (op []).fget fRACK_STAT_SYNC ≠ 3
    ∧ (op [(fRACK_STAT_SYNC, 3)]).fget fRACK_STAT_SYNC = 3 ∧ (op []).fget fTRL_SPLIT_STAT_SPLIT = 0
    ∧ (op [(fTRL_SPLIT_STAT_SPLIT, 1)]).fget fTRL_SPLIT_STAT_SPLIT ≠ 0 ∧ (op [(fSYS_MODULE_MODE_CUR, 1)]).fget fSYS_MODULE_MODE_CUR = 1
    ∧ Reach standbyS 0x200 rRACK_CMD 2 ∧ Reach standbyS 0x200 rRACK_GEN_SEED 0 := by unfold Reach; decide +kernel

/-! ### Device, management and cask commands -/

theorem witness_reach_devices : ∀ e ∈ [(rHOST_RQ_CFG 256, 0x8000000F), (rHOST_RQ_RIDX 256, 1), (rHOST_SNAP_RIDX 15, 0), (rTIME_SET_CMD, 1), (rTIME_SET_CMD, 4),
      (rCAN_TX_CMD 3, 1), (rCAN_TX_CMD 3, 0x400), (rCAN_CTRL 3, 0x100), (rLIO_CTRL, 0x101), (rPANEL_SWAP, 5), (rPANEL_CTRL, 0x10178), (rMGT_CTRL, 1),
      (rMGT_FW_CMD, fwWord 4 0), (rMGT_FW_CMD, fwWord 0 1), (rMGT_FW_CMD, fwWord 0 2), (rMGT_FW_CMD, fwWord 0 3), (rMGT_SET_SAVE, 64),
      (rMGT_CB_CTRL, 2 ^ 31), (rMGT_CB_CTRL, 1), (rMGT_CB_IDX, 7), (rCASK_CTRL, 1), (rCASK_CTRL, 2), (rCASK_CTRL, 3), (rCASK_WIN 1023, 5),
      (rCASK_PW_HI, 1), (rCASK_LOCK, 1), (rCASK_OPT_CMD, 1), (rCASK_OPT_CMD, 2)], Reach (op []) 0x200 e.1 e.2 := by
  unfold Reach; decide +kernel

theorem witness_queues : 6 ≤ bitsOf 0x80000006 3 0 ∧ (op []).fbit (fHOST_RQ_CFG_EN 256) = false
    ∧ (op [(fHOST_RQ_CFG_EN 256, 1), (fHOST_RQ_CFG_LOG2SIZE 256, 6)]).fbit (fHOST_RQ_CFG_EN 256) = true
    ∧ (op [(fHOST_RQ_CFG_EN 256, 1), (fHOST_RQ_CFG_LOG2SIZE 256, 6)]).fget (fHOST_RQ_CFG_LOG2SIZE 256) = bitsOf 0x80000006 3 0
    ∧ bitsOf 0x80000007 3 0 ≠ 6 ∧ (0 + 2 ^ 32 - ((op []).reg (rHOST_RQ_RIDX 256)).toNat) % 2 ^ 32 ≤ (op []).rqUsed 256
    ∧ (op []).rqUsed 256 < (1 + 2 ^ 32 - ((op []).reg (rHOST_RQ_RIDX 256)).toNat) % 2 ^ 32 := by decide +kernel
theorem witness_snapshots : (op [(fHOST_SNAP_CTRL_EN 15, 1)]).fbit (fHOST_SNAP_CTRL_EN 15) = true ∧ (op []).fbit (fHOST_SNAP_CTRL_EN 15) = false
    ∧ Reach (op []) 0x200 (rHOST_SNAP_CTRL 15) (setBits ((op []).reg (rHOST_SNAP_CTRL 15)).toNat 30 30 1)
    ∧ ((op []).reg (rHOST_SNAP_RIDX 15)).toNat = 0 ∧ ((op []).reg (rHOST_SNAP_WIDX 15)).toNat = 0 := by unfold Reach; decide +kernel
/-- A setting a year away is a step; the same set again slews by nothing. -/
theorem witness_time_set : (op []).fget fTIME_PTP_STAT_PORT_STATE ≠ psSlave ∧ (op [(fTIME_PTP_STAT_PORT_STATE, psSlave)]).fget fTIME_PTP_STAT_PORT_STATE = psSlave
    ∧ (op [(fTIME_SET_SEC_LO_SEC, 31536000)]).stepSize ((op [(fTIME_SET_SEC_LO_SEC, 31536000)]).setValue - (op []).wallTarget) = true
    ∧ (op []).stepSize ((op []).setValue - (op []).wallTarget) = false ∧ bitOf 1 2 = false ∧ bitOf 4 0 = false
    ∧ ({ op [] with wall := { hold := some (5, 0) } } : State).wall.hold.isSome = true ∧ (op []).wall.hold = none := by decide +kernel
theorem witness_can_commands : (∀ b < 3, bitOf 1 b = true → bitOf 1 (8 + b) = false) ∧ (∀ b < 3, bitOf 1 (8 + b) = false)
    ∧ (∀ b < 3, bitOf 1 b = true → (op []).canReqOk 3 b = true ∧ (op []).canPend 3 b = false)
    ∧ (op [(fCAN_TXB_CTL_BRS 3 0, 1)]).canReqOk 3 0 = false ∧ (op []).canPend 3 0 = false
    ∧ (∀ b < 3, bitOf 0x400 b = false) ∧ (op [(fCAN_TX_STAT_PEND 3, 4)]).canPend 3 2 = true ∧ bitOf 0x400 (8 + 2) = true
    ∧ (op [(fCAN_TX_STAT_PEND 3, 4)]).canOnBus 3 2 = false
    ∧ (op [(fCAN_TX_STAT_PEND 3, 4), (fCAN_TX_STAT_ON_BUS 3, 1), (fCAN_TX_STAT_ACTIVE 3, 2)]).canOnBus 3 2 = true
    ∧ bitsOf 0x100 2 0 = (op []).fget (fCAN_CTRL_MODE 3) := by decide +kernel
theorem witness_can_reads : (op []).busMaster 0x200 = true ∧ (op []).mgt.down = false ∧ ((op []).canOf 3).locked = false ∧ ((op []).canOf 3).fifo = []
    ∧ (({ op [] with can := [(3, { fifo := [[7]] })] } : State).canOf 3).fifo = [[7]]
    ∧ (({ op [] with can := [(3, { fifo := [[7]], locked := true, shown := [7] })] } : State).canOf 3).locked = true := by decide +kernel
theorem witness_lio_panel_commands : 1 ≤ bitsOf 0x101 7 0 ∧ (op [(fLIO_STAT_LINK, 1), (fLIO_STAT_SHUTDOWN, 1)]).fbit fLIO_STAT_LINK = true
    ∧ (op [(fLIO_STAT_LINK, 1), (fLIO_STAT_SHUTDOWN, 1)]).fbit fLIO_STAT_SHUTDOWN = true
    ∧ ¬ ((op []).fbit fLIO_STAT_LINK = true ∧ (op []).fbit fLIO_STAT_SHUTDOWN = true)
    ∧ (op []).fbit fPANEL_STAT_SWAP_PEND = false ∧ (op [(fPANEL_STAT_SWAP_PEND, 1)]).fbit fPANEL_STAT_SWAP_PEND = true
    ∧ 1 ≤ bitsOf 0x10178 15 8 ∧ bitsOf 0x10178 15 8 ≤ bitsOf 0x10178 7 0 ∧ bitsOf 0x10178 7 0 ≤ 120 ∧ (op []).panel.ready = false
    ∧ bitOf 0x10178 16 = true ∧ (op []).fbit fPANEL_CTRL_EN = false ∧ (op []).pnState = pnOff ∧ (op []).pins.panelId = false
    ∧ ({ op [] with pins := { panelId := true } } : State).pins.panelId = true ∧ (op [(fPANEL_CTRL_EN, 1)]).fbit fPANEL_CTRL_EN = true := by decide +kernel

theorem witness_flash_commands : ¬ (4 ≤ bitsOf 3 10 0 ∧ bitsOf 3 10 0 ≤ 1024) ∧ ¬ (4 ≤ bitsOf 1025 10 0 ∧ bitsOf 1025 10 0 ≤ 1024)
    ∧ 4 ≤ bitsOf 4 10 0 ∧ bitsOf 1024 10 0 ≤ 1024 ∧ (op [(fMGT_FW_STAT_BUSY, 1)]).fbit fMGT_FW_STAT_BUSY = true
    ∧ (op []).fbit fMGT_FW_STAT_BUSY = false ∧ bitsOf 5 10 0 % 4 ≠ 0 ∧ (op []).inRom = false
    ∧ (op [(fMGT_FW_OFS_OFFSET, 2 ^ 27 - 4)]).fget fMGT_FW_OFS_OFFSET + 4 ≤ 2 ^ 27 ∧ (op []).fbit fMGT_CTRL_LOCK = false := by decide +kernel
theorem witness_boot_commands : (op []).setSlot setBoot = some (2 * setBoot) ∧ (op [(fMGT_STAT_BOOT, 1)]).fget fMGT_STAT_BOOT = 1
    ∧ (op []).fget fMGT_STAT_BOOT = 0 ∧ (op []).boot.trial = none ∧ (∀ i, 3 ≤ i → i ≤ 6 → (op []).setSlot i = some (2 * i)) := by
  refine ⟨by decide +kernel, by decide +kernel, by decide +kernel, by decide +kernel, fun i h1 h2 => ?_⟩
  have h : i = 3 ∨ i = 4 ∨ i = 5 ∨ i = 6 := by omega
  rcases h with rfl | rfl | rfl | rfl <;> decide +kernel
/-- A trial stands once the BOOT record holds one. -/
theorem witness_trial : (((op []).setBootRec { (op []).boot with trial := some 1 }).boot).trial = some 1 := by decide +kernel
theorem witness_set_save : ∀ j, 3 ≤ j → j ≤ 6 → bitOf 64 j = decide (j = 6) := by
  intro j h1 h2
  have h : j = 3 ∨ j = 4 ∨ j = 5 ∨ j = 6 := by omega
  rcases h with rfl | rfl | rfl | rfl <;> decide
theorem witness_cellar_commands : (op []).fbit fMGT_CB_CTRL_FREEZE = false ∧ (op []).fbit fMGT_CB_STAT_FROZEN = false
    ∧ (op [(fMGT_CB_CTRL_FREEZE, 1), (fMGT_CB_STAT_FROZEN, 1)]).fbit fMGT_CB_CTRL_FREEZE = true
    ∧ (op [(fMGT_CB_CTRL_FREEZE, 1), (fMGT_CB_STAT_FROZEN, 1)]).fbit fMGT_CB_STAT_FROZEN = true
    ∧ Reach (op [(fMGT_CB_CTRL_FREEZE, 1), (fMGT_CB_STAT_FROZEN, 1)]) 0x200 rMGT_CB_CTRL 0
    ∧ bitOf 1 31 = (op []).fbit fMGT_CB_CTRL_FREEZE := by unfold Reach; decide +kernel

/-- The commit buffer empty, with a byte, and full; the window on region 6 and on region 0; a commit running. -/
def full : SMap (Option Byte) := (List.range 3).map (fun i => (0x300000 + i, some 0))
theorem witness_cask_commands : (op [(fCASK_STAT_BUSY, 1)]).fbit fCASK_STAT_BUSY = true ∧ (op []).fbit fCASK_STAT_BUSY = false ∧ (op []).ck.buf = []
    ∧ ({ op [] with ck := { buf := full } } : State).ck.buf ≠ [] ∧ bitOf 3 0 = true ∧ bitOf 3 1 = true
    ∧ regionOf ((op []).fget fCASK_WIN_BASE_BASE * 4096 + 4 * 1023) < 6
    ∧ 6 ≤ regionOf ((op [(fCASK_WIN_BASE_BASE, 0xE91)]).fget fCASK_WIN_BASE_BASE * 4096 + 4 * 1023)
    ∧ (op []).caskMay 6 true 0x200 = true ∧ (op []).bufOver (addrBytes 0xE91FFC (leBytes 4 5)) = false
    ∧ ({ op [] with opt := { pw := (List.range 16).map (fun _ => (1, 1)) } } : State).caskMay 6 true 0x200 = false := by decide +kernel
theorem witness_passwords : decide ((op []).lt.toNat < SMap.get (fun _ => 0) (op []).ck.refused 0) = false
    ∧ decide ((op []).lt.toNat < SMap.get (fun _ => 0) ({ op [] with ck := { refused := [(0, 5)] } } : State).ck.refused 0) = true
    ∧ (op []).caskPw 0 false = 0 * 2 ^ 32 + (SMap.get word0 (op []).heldLo rCASK_PW_LO).toNat
    ∧ (op []).caskPw 0 false ≠ 1 * 2 ^ 32 + (SMap.get word0 (op []).heldLo rCASK_PW_LO).toNat := by decide +kernel
/-- An option block of the default values is valid; with FAIL_LIMIT and START_OK_S 0 its fields are not, and with a retain entry beyond the count its list is not. -/
def optS (l : List (Nat × Nat)) : State := (([(3, 60 * 65536 + 3 * 256), (4, 1000), (5, 10000)] : List (Nat × Nat)) ++ l).foldl (fun t e => t.setReg (rCASK_OPT_BUF e.1) (BitVec.ofNat 32 e.2)) (op [])
theorem witness_option_block : (op []).fbit fCASK_OPT_STAT_BUSY = false ∧ (op [(fCASK_OPT_STAT_BUSY, 1)]).fbit fCASK_OPT_STAT_BUSY = true
    ∧ (op []).caskMay 0 true 0x200 = true
    ∧ ({ op [] with opt := { pw := [(1, 1)] } } : State).caskMay 0 true 0x200 = false := by decide +kernel
theorem witness_option_fields : optFieldsOk (optS []).optStaged = true ∧ optRetainOk (optS []).optStaged = true := by decide +kernel
theorem witness_option_bad : optFieldsOk (optS [(3, 0)]).optStaged = false ∧ optRetainOk (optS [(68, 1)]).optStaged = false := by decide +kernel

/-! ### The host and time -/

theorem witness_functions : (op []).busMaster 0x200 = true ∧ (op []).fnExists 256 = false ∧ ({ op [] with vfs := 256 } : State).fnExists 256 = true
    ∧ (op []).pins.perstN = true := by decide +kernel

/-- A record staged for VF 256's queue of 64 entries, with and without a LOSS record before it. -/
def stg (l : Option Loss) : State :=
  { op [(fHOST_RQ_CFG_EN 256, 1), (fHOST_RQ_CFG_LOG2SIZE 256, 6)] with
    vfs := 256, staged := [{ queue := 256, slot := 3, data := List.replicate 64 0, loss := l }] }
theorem witness_results : (stg none).mainRuns = true ∧ (op []).staged.find? (fun x => (op []).rqOpen x.queue) = none
    ∧ (stg none).staged.find? (fun x => (stg none).rqOpen x.queue) = some { queue := 256, slot := 3, data := List.replicate 64 0, loss := none }
    ∧ (stg (some ⟨255, 0, 0, 0, 0, 1⟩)).staged.find? (fun x => (stg none).rqOpen x.queue)
        = some { queue := 256, slot := 3, data := List.replicate 64 0, loss := some ⟨255, 0, 0, 0, 0, 1⟩ } := by decide +kernel
/-- One record unsignalled for exactly the timer's time. -/
def rqT : State :=
  { op [(fHOST_RQ_IRQ_EN 256, 1), (fHOST_RQ_IRQ_TIMER 256, 5)] with
    lt := 5000, hq := [(256, { unsig := 1 })], msixEn := [256], msix := [(256 * 1024, { addr := 4, masked := false })] }
theorem witness_queue_timer : rqT.mainRuns = true ∧ rqT.fbit (fHOST_RQ_IRQ_EN 256) = true ∧ rqT.fget (fHOST_RQ_IRQ_TIMER 256) ≠ 0 ∧ (rqT.rq 256).unsig ≠ 0
    ∧ (rqT.rq 256).since + rqT.fget (fHOST_RQ_IRQ_TIMER 256) * 1000 ≤ rqT.lt.toNat ∧ 256 ∈ rqT.msixEn ∧ 256 ∉ rqT.msixFmask
    ∧ (SMap.get msix0 rqT.msix (256 * 1024 + rqT.fget (fHOST_RQ_IRQ_VECTOR 256))).masked = false ∧ ((op []).rq 256).unsig = 0 := by decide +kernel
/-- A snapshot of one row, before and after its capture. -/
def snapT (n : Nat) : State :=
  { row1 [(fHOST_SNAP_STAT_BUSY 15, 1), (fHOST_SNAP_ROWS_ROW_FIRST 15, 511), (fHOST_SNAP_ROWS_COUNT 15, 1)] { passed := some 7 } with
    snaps := [(15, { next := n })] }
theorem witness_snapshot : (snapT 0).mainRuns = true ∧ ((snapT 0).row 511).passed = some 7 ∧ (snapT 0).fget (fHOST_SNAP_ROWS_ROW_FIRST 15) + ((snapT 0).snapSet 15).next = 511
    ∧ (snapT 0).fbit (fHOST_SNAP_STAT_BUSY 15) = true ∧ ((snapT 0).snapSet 15).next < (snapT 0).fget (fHOST_SNAP_ROWS_COUNT 15)
    ∧ ((snapT 0).snapSet 15).since ≤ 7 ∧ (snapT 0).hadLoad 511 7 = false
    ∧ ((put [(fSCHED_ROW_STAT_CLAIM 511, clLoaded)] (snapT 0)).setRow 511 { passed := some 7, job := some 7 }).inLoad 511 7 = true ∧ (snapT 1).fget (fHOST_SNAP_ROWS_COUNT 15) ≤ ((snapT 1).snapSet 15).next
    ∧ ¬ ((op []).fbit (fHOST_SNAP_STAT_BUSY 15) = true ∧ (op []).fget (fHOST_SNAP_ROWS_COUNT 15) ≤ ((op []).snapSet 15).next) := by decide +kernel

/-- The PTP port enabled, listening to the parent 9. -/
def ptpS (p : Ptp) (l : List (Fld × Nat)) : State :=
  { op ([(fTIME_PTP_CTRL_EN, 1), (fTIME_PTP_STAT_PORT_STATE, psSlave)] ++ l) with ptp := { p with parent := some 9 } }
def hp (i : Int) : PtpHdr := { domain := (op []).fget fTIME_PTP_CTRL_DOMAIN, src := 9, seq := 5, interval := i, corr := 0, ok := true }
theorem witness_ptp : (∀ i ∈ ([-7, 1, 0] : List Int), Takes (hp i) (ptpS {} [])) ∧ (ptpS {} []).fromParent (hp 0) = true := by unfold Takes; decide +kernel
theorem witness_ptp_guard : (op [(fTIME_PTP_CTRL_EN, 0)]).fbit fTIME_PTP_CTRL_EN = false ∧ (ptpS {} []).mgtRuns = true
    ∧ (ptpS {} []).ptpHears { hp 0 with ok := false } = false ∧ (ptpS {} []).fget fTIME_PTP_STAT_PORT_STATE ≠ psInit := by decide +kernel
theorem witness_follow_up : (ptpS { pend := some (5, 1, 2) } []).ptp.pend = some ((hp 0).seq, 1, 2) ∧ (ptpS {} []).ptp.pend = none := by decide +kernel
theorem witness_announce : (∀ i ∈ ([-3, 4, -4, 5] : List Int), Takes (hp i) (ptpS {} [])) ∧ (254 : Nat) < 255 ∧ (5 : Int) > 4 ∧ (-4 : Int) < -3 := by
  unfold Takes; decide +kernel
theorem witness_delay_resp : (ptpS { req := some (5, 3), sync := some (1, 2) } []).fget fTIME_PTP_CTRL_DELAY = 0
    ∧ (ptpS { req := some (5, 3), sync := some (1, 2) } []).ptp.req = some ((hp 0).seq, 3)
    ∧ (ptpS { req := some (5, 3), sync := some (1, 2) } []).ptp.sync = some (1, 2) ∧ (ptpS {} []).ptp.sync = none
    ∧ (ptpS {} [(fTIME_PTP_CTRL_DELAY, 1)]).fget fTIME_PTP_CTRL_DELAY = 1
    ∧ (ptpS { resp := some (4, 5, 6) } []).ptp.resp = some (4, 5, 6) := by decide +kernel

/-- A step decided 2,000 ns ago, forward and back, with and without a hold. -/
def stepT (e : Int) (h : Option (Int × Int)) (l : List (Fld × Nat)) : State := { op l with lt := 2000, tn := 2000, wall := { step := some (e, 0), hold := h } }
theorem witness_wall_step : (stepT 1 none []).wall.step = some (1, 0) ∧ 0 + 2000 ≤ (stepT 1 none []).tn.toNat ∧ (op []).tn.toNat < 0 + 2000
    ∧ (stepT (-1) none []).wall.hold = none ∧ (stepT (-1) none []).fget fTIME_WALL_BACKSTEP_POLICY ≠ 1
    ∧ (stepT (-1) none [(fTIME_WALL_BACKSTEP_POLICY, 1)]).fget fTIME_WALL_BACKSTEP_POLICY = 1
    ∧ (stepT 1 (some (5, 0)) []).wall.hold = some (5, 0) ∧ (5 : Int) ≤ (stepT 1 (some (5, 0)) []).lt16 + 0 := by decide +kernel
theorem witness_rtc : 86399 + 1 = 86400 ∧ (op [(fTIME_RTC_CTRL_DAYSEC, 86399)]).fget fTIME_RTC_CTRL_DAYSEC = 86399
    ∧ (op [(fTIME_RTC_CTRL_DAYSEC, 86398)]).fget fTIME_RTC_CTRL_DAYSEC + 1 < 86400 ∧ (op []).mgtRuns = true ∧ (op []).mgt.releasedAt = none
    ∧ ({ op [] with mgt := { releasedAt := some 0 } } : State).mgt.releasedAt ≠ none ∧ ({ op [] with mgt := { down := true } } : State).mgtRuns = false
    ∧ (2199 : BitVec 12).toNat < 2200 := by decide +kernel

/-! ### The engineering service -/

/-- A request with a right CRC. -/
def req (cmd : Nat) (p : List Byte) : EngReq :=
  { ip := 1, port := 2, seq := 3, len := p.length, crc := crc32 (engBytes 0 cmd 3 0 0 0 p), payload := p }
/-- The service enabled, with state beside. -/
def engS (l : List (Fld × Nat)) : State := op ([(fTIME_ENG_CTRL_EN, 1)] ++ l)
/-- A request is ready in a state, as a test. -/
def rdy (cmd : Nat) (e : EngReq) (s : State) : Bool :=
  !s.mgt.down && s.fbit fTIME_ENG_CTRL_EN && engValid cmd e && s.eng.job.isNone && s.engAvail cmd e && decide (e.len ≤ 1280)
    && s.eng.clients.all (fun c => !(decide (c.ip = e.ip ∧ c.port = e.port ∧ c.seq = e.seq)))
theorem rdy_spec (cmd : Nat) (e : EngReq) (s : State) (h : rdy cmd e s = true) : Ready cmd e s := by
  simp only [rdy, Bool.and_eq_true, Bool.not_eq_true', decide_eq_true_eq, Option.isNone_iff_eq_none, List.all_eq_true] at h
  obtain ⟨⟨⟨⟨⟨⟨h1, h2⟩, h3⟩, h4⟩, h5⟩, h6⟩, h7⟩ := h
  refine ⟨h1, h2, h3, h4, h5, h6, fun c hc hh => ?_⟩
  have := h7 c hc
  simp [hh.1, hh.2.1, hh.2.2] at this

theorem witness_eng_discards : ({ op [] with mgt := { down := true } } : State).mgt.down = true ∧ (op [(fTIME_ENG_CTRL_EN, 0)]).fbit fTIME_ENG_CTRL_EN = false
    ∧ engValid 1 { req 1 [] with magic := 0 } = false ∧ engValid 1 (req 1 []) = true := by decide +kernel
/-- A request in execution, 31 and 32 waiting; a kept response. -/
theorem witness_eng_queue : ({ engS [] with eng := { job := some (1, req 1 [], .cask), waiting := List.replicate 31 (1, req 1 []) } } : State).eng.waiting.length < 32
    ∧ 32 ≤ ({ engS [] with eng := { waiting := List.replicate 32 (1, req 1 []) } } : State).eng.waiting.length
    ∧ ([{ ip := 1, port := 2, seq := 3, resp := [] }] : List EngClient).find? (fun c => decide (c.ip = (req 1 []).ip) && decide (c.port = (req 1 []).port)
        && decide (c.seq = (req 1 []).seq)) = some { ip := 1, port := 2, seq := 3, resp := [] } := by decide +kernel

theorem witness_eng_reads : Ready 0x01 (req 0x01 []) (engS []) ∧ Ready 0x02 (req 0x02 [1, 2]) (engS [])
    ∧ Ready 0x10 (req 0x10 (leBytes 4 0x10000 ++ [1, 0, 0, 0])) (engS []) ∧ Ready 0x12 (req 0x12 (leBytes 4 0x1000000 ++ [4, 0, 0, 0])) (engS [])
    ∧ Ready 0x32 (req 0x32 [0, 0, 0, 0, 0, 0, 0, 0, 40, 0, 0, 0]) (engS []) ∧ Ready 0x48 (req 0x48 [255, 0, 0, 0]) (engS [])
    ∧ Ready 0x54 (req 0x54 [127, 0, 0, 0]) (engS []) ∧ Ready 0x70 (req 0x70 ([6, 0, 0, 0] ++ leBytes 4 0x1FFFF ++ [1, 0, 0, 0] ++ List.replicate 8 0)) (engS []) := by
  refine ⟨?_, ?_, ?_, ?_, ?_, ?_, ?_, ?_⟩ <;> exact rdy_spec _ _ _ (by decide +kernel)
theorem witness_eng_read_args : wordsOk 0x10000 1 = true ∧ (engS []).latches 0x10000 = [] ∧ (engS []).isLatched 0x10000 = false ∧ (engS []).fget fSYS_MODULE_MODE_CUR ≠ 2
    ∧ rangeOk 0x1000000 4 = true ∧ inStores 0x1000003 = true ∧ (engS []).eccAt 0x1000003 = 0
    ∧ caskRange 6 0x1FFFF 1 = true ∧ (engS []).caskPw 6 false = 0 := by decide +kernel
theorem witness_eng_writes : Ready 0x11 (req 0x11 (leBytes 4 rSTEP_HOST_ARG ++ [1, 0, 0, 0, 5, 0, 0, 0])) (engS [])
    ∧ Ready 0x13 (req 0x13 (leBytes 4 0x39FFFFF ++ [1, 0, 0, 0, 7])) (engS []) ∧ Ready 0x20 (req 0x20 [1, 0, 0, 0]) (engS [])
    ∧ Ready 0x21 (req 0x21 [255, 1, 0, 0]) (engS []) ∧ Ready 0x30 (req 0x30 []) (engS []) ∧ Ready 0x31 (req 0x31 []) (engS [])
    ∧ Ready 0x42 (req 0x42 (([255, 0, 0, 0] ++ leBytes 4 0x1000000) ++ [1, 0, 0, 0, 7])) (engS [])
    ∧ Ready 0x61 (req 0x61 (List.replicate 12 0 ++ [1, 0, 0, 0])) (engS []) ∧ Ready 0x62 (req 0x62 []) (engS [])
    ∧ Ready 0x71 (req 0x71 ([6, 1, 0, 0] ++ leBytes 4 0 ++ [1, 0, 0, 0] ++ List.replicate 8 0 ++ [7])) (engS [])
    ∧ Ready 0x80 (req 0x80 (leBytes 4 (2 ^ 27 - 4) ++ [4, 0, 0, 0, 1, 2, 3, 4])) (engS [])
    ∧ Ready 0x81 (req 0x81 [1, 0, 0, 0]) (engS []) ∧ Ready 0x90 (req 0x90 [1, 0, 0, 0]) (engS []) := by
  refine ⟨?_, ?_, ?_, ?_, ?_, ?_, ?_, ?_, ?_, ?_, ?_, ?_, ?_⟩ <;> exact rdy_spec _ _ _ (by decide +kernel)
theorem witness_eng_write_args : rSTEP_HOST_ARG ∈ plainRegs ∧ Claims.Writes rSTEP_HOST_ARG 5 (engS []) ∧ Claims.Writes rSYS_MODULE_MODE 16 (engS [])
    ∧ Claims.Writes (rPART_CTRL 255) 1 (engS []) ∧ isImage 0x39FFFFF = true ∧ (engS []).winDrop mEng 0x1000000 = none
    ∧ (engS []).fbit (fPART_CTRL_LOCK 255) = false ∧ (engS []).fbit fMGT_CB_STAT_FROZEN = false
    ∧ (engS [(fMGT_CB_STAT_FROZEN, 1)]).fbit fMGT_CB_STAT_FROZEN = true ∧ (engS []).fget fTIME_PTP_STAT_PORT_STATE ≠ psSlave
    ∧ (engS []).stepSize (0 - (engS []).wallTarget) = false ∧ Claims.Writes rTIME_SET_CMD 4 (engS []) ∧ (engS []).bufOver (addrBytes (regionAt 6).1 [7]) = false
    ∧ (engS []).inRom = false ∧ 2 ^ 27 - 4 + 4 ≤ 2 ^ 27 := by unfold Claims.Writes; decide +kernel

/-- The graft and mailbox commands: partition 255 in the state each needs. -/
def engG (n g : Nat) : State :=
  (engS [(fPART_GRF_STAT_STATE 255, n), (fMBX_BIND_EN 127, 1), (fMBX_BIND_SENDER 127, 0x203), (fMBX_BIND_RECEIVER 127, 0x203), (fMBX_CH_STAT_GO 127, g)])
theorem witness_eng_grafts : Ready 0x41 (req 0x41 [255, 0, 0, 0, 0, 0, 0, 128]) (engG 0 0) ∧ Ready 0x43 (req 0x43 [255, 0, 0, 0, 0x2C, 1, 0, 0]) (engG 1 0)
    ∧ Ready 0x44 (req 0x44 []) (engG 4 0) ∧ Ready 0x45 (req 0x45 [255, 0, 0, 0]) (engG 5 0) ∧ Ready 0x46 (req 0x46 [255, 0, 0, 0]) (engG 5 0)
    ∧ Ready 0x47 (req 0x47 [255, 0, 0, 0]) (engG 3 0) := by
  refine ⟨?_, ?_, ?_, ?_, ?_, ?_⟩ <;> exact rdy_spec _ _ _ (by decide +kernel)
theorem witness_eng_graft_args : (engG 0 0).grfState 255 = 0 ∧ Claims.Writes (rPART_GRF_ALLOC 255) 0x80000000 (engG 0 0) ∧ Free (engG 0 0).codeRuns 6144 128 0
    ∧ (engG 1 0).grfState 255 = 1 ∧ Claims.Writes (rPART_GRF_CTRL 255) (0x12C + 2 ^ 31) (engG 1 0) ∧ (engG 5 0).grfState 255 = 5
    ∧ ((engG 5 0).part 255).other.maps ≠ 1 ∧ Claims.Writes (rPART_GRF_CTRL 255) (setBits 0x12C 29 29 1) (engG 5 0)
    ∧ Claims.Writes (rPART_GRF_CTRL 255) (setBits 0x12C 28 28 1) (engG 5 0) ∧ Claims.Writes (rPART_GRF_CTRL 255) (setBits 0x12C 30 30 1) (engG 3 0)
    ∧ (engG 3 0).grfState 255 ∈ [1, 2, 3] ∧ Claims.Writes rPART_GRF_GROUP 1 (engG 4 0) ∧ ((engG 1 0).reg (rPART_GRF_CTRL 255)).toNat < 2 ^ 28
    ∧ (engG 0 0).standby = false := by unfold Claims.Writes Free; decide +kernel
theorem witness_eng_mailboxes : Ready 0x50 (req 0x50 ([127, 0, 0, 0] ++ List.replicate 64 0)) (engG 0 0) ∧ Ready 0x51 (req 0x51 [127, 0, 0, 0]) (engG 0 1)
    ∧ Ready 0x52 (req 0x52 [127, 9, 0, 0]) (engG 0 1) ∧ Ready 0x53 (req 0x53 [127, 0, 0, 0]) (engG 0 1) := by
  refine ⟨?_, ?_, ?_, ?_⟩ <;> exact rdy_spec _ _ _ (by decide +kernel)
theorem witness_eng_mailbox_args : (engG 0 0).mbxSends 127 mEng = true ∧ (engG 0 1).mbxReceives 127 mEng = true ∧ (engG 0 1).fbit (fMBX_CH_STAT_GO 127) = true
    ∧ (engG 0 0).fbit (fMBX_CH_STAT_GO 127) = false ∧ Claims.Writes (rMBX_CMD 127) 4 (engG 0 1) ∧ Claims.Writes (rMBX_CMD 127) (8 + 9 * 256) (engG 0 1)
    ∧ Claims.Writes (rMBX_CMD 127) 2 (engG 0 1) ∧ (engG 0 0).rackHeld + 1000 ≤ 262144 := by unfold Claims.Writes; decide +kernel
theorem witness_eng_others : ({ engS [] with eng := { restart := some true } } : State).eng.restart = some true ∧ ResetsNow (engS []) 11
    ∧ (0xFF : Nat) ∉ engCodes ∧ Ready 0xFF (req 0xFF []) (engS []) ∧ (engS []).engReach ((engS []).fget fTIME_ENG_IP_ADDR) = true := by
  refine ⟨by decide +kernel, by unfold ResetsNow; decide +kernel, by decide, rdy_spec _ _ _ (by decide +kernel), by decide +kernel⟩
/-- A chunk 0 of a casting of 1,025 bytes: every argument of GRAFT_LOAD but the data. -/
theorem witness_eng_load : engArg { req 0 [] with payload := [255, 0, 0, 0] ++ leBytes 4 1025 } 1 1 = 0 ∧ 1024 < 1025 ∧ (1025 + 1023) / 1024 - 1 = 1 := by decide +kernel

theorem witness_no_marks : ∀ a, (grf 2 {}).eccAt a = 0 := fun _ => rfl
/-- A locked partition whose graft is checked. -/
def lockedG : State := put [(fPART_CTRL_LOCK 255, 1)] (grf 2 {})
/-- Graft checks that pass and fail, a flash write and a cask commit that end, with and without a request that waits for them. -/
theorem witness_action_ends : (grf 1 {}).grfState 255 ≠ 2 ∧ (grf 2 {}).grfState 255 = 2 ∧ (grf 2 {}).grfCheck 255 = none
    ∧ (∃ r, (lockedG).grfCheck 255 = some r ∧ r < 16) ∧ lockedG.grfState 255 = 2
    ∧ (op []).peerInSync = false ∧ (op [(fRACK_STAT_SYNC, syInSync)]).peerInSync = true ∧ (op []).mgt.fw = none
    ∧ ({ op [] with mgt := { fw := some ⟨0, [1]⟩ } } : State).mgt.fw = some ⟨0, [1]⟩
    ∧ (full.map (fun e => e.1)).Nodup ∧ (∀ e ∈ full, e.1 < 0x281000 ∨ 0x291000 ≤ e.1) ∧ full.length ≤ 65536
    ∧ (op [(fCASK_OPT_STAT_BUSY, 1)]).fbit fCASK_OPT_STAT_BUSY = true := by
  refine ⟨by decide +kernel, by decide +kernel, by decide +kernel, ⟨(lockedG.grfCheck 255).getD 0, by decide +kernel, by decide +kernel⟩, ?_⟩
  decide +kernel

/-! ### CAN, local IO and the panel -/

/-- CAN controller 3 on its bus in a mode. -/
def canS (m : Nat) (l : List (Fld × Nat)) (v : CanSt) : State :=
  { op ([(fCAN_STAT_MODE_CUR 3, m), (fCAN_CTRL_MODE 3, m), (fCAN_STAT_SYNCED 3, 1)] ++ l) with can := [(3, v)] }
/-- Its frame on the bus, from buffer 2. -/
def canTx (m : Nat) (l : List (Fld × Nat)) (v : CanSt) : State :=
  canS m ([(fCAN_TX_STAT_ON_BUS 3, 1), (fCAN_TX_STAT_ACTIVE 3, 2), (fCAN_TX_STAT_PEND 3, 7)] ++ l) v
theorem witness_can_mode : (canS cmNormal [(fCAN_CTRL_MODE 3, 0)] {}).fget (fCAN_CTRL_MODE 3) = cmOff ∧ (canS cmNormal [] {}).mgt.down = false
    ∧ (canS cmNormal [(fCAN_CTRL_MODE 3, 0)] {}).canMode 3 = cmNormal ∧ (canS cmNormal [] {}).fbit (fCAN_TX_STAT_ON_BUS 3) = false
    ∧ (canS cmOff [(fCAN_CTRL_MODE 3, 3)] {}).fget (fCAN_CTRL_MODE 3) = cmRate ∧ (canS cmOff [(fCAN_CTRL_MODE 3, 3)] {}).canMode 3 = cmOff
    ∧ (canTx cmNormal [] {}).canPend 3 2 = true ∧ (canTx cmNormal [] {}).fbit (fCAN_TX_STAT_ON_BUS 3) = true := by decide +kernel
theorem witness_can_arbitration : (canS cmNormal [(fCAN_TX_STAT_PEND 3, 4)] {}).canOn 3 = true ∧ (canS cmOff [] {}).canOn 3 = false
    ∧ (canS cmNormal [(fCAN_TX_STAT_PEND 3, 4)] {}).canPend 3 2 = true ∧ (canS cmNormal [(fCAN_CTRL_TXORD 3, 1)] {}).fbit (fCAN_CTRL_TXORD 3) = true
    ∧ (∀ b < 3, (canS cmNormal [] {}).canPend 3 b = false) ∧ (canS cmListen [] {}).canMode 3 ≠ cmLoop ∧ (canS cmListen [] {}).canOn 3 = true
    ∧ (canS cmLoop [(fCAN_TX_STAT_PEND 3, 1)] {}).canMode 3 = cmLoop ∧ (canS cmLoop [(fCAN_TX_STAT_PEND 3, 1)] {}).canPend 3 0 = true := by decide +kernel
theorem witness_can_sent : (canTx cmLoop [] {}).fget (fCAN_TX_STAT_ACTIVE 3) < 3 ∧ (canTx cmLoop [] {}).fbit (fCAN_TX_STAT_ON_BUS 3) = true
    ∧ (canTx cmLoop [] {}).canMode 3 = cmLoop ∧ (canTx cmNormal [] {}).canMode 3 ≠ cmLoop
    ∧ ((canTx cmLoop [] { fifo := List.replicate 31 [] }).canOf 3).fifo.length < 32
    ∧ (canTx cmNormal [(fCAN_TXB_CTL_FDF 3 2, 1), (fCAN_TXB_CTL_BRS 3 2, 1)] {}).fbit (fCAN_TXB_CTL_FDF 3 2) = true
    ∧ (canTx cmNormal [(fCAN_TXB_CTL_FDF 3 2, 1), (fCAN_TXB_CTL_BRS 3 2, 1)] {}).fbit (fCAN_TXB_CTL_BRS 3 2) = true
    ∧ (canTx cmNormal [(fCAN_CTRL_SINGLE_SHOT 3, 1)] {}).fbit (fCAN_CTRL_SINGLE_SHOT 3) = true ∧ 2 ∈ ((canTx cmNormal [] { abort := [2] }).canOf 3).abort
    ∧ 2 ∉ ((canTx cmNormal [] {}).canOf 3).abort := by decide +kernel
theorem witness_can_received : (canS cmListen [] {}).canOn 3 = true ∧ (canS cmNormal [(fCAN_ERR_REC 3, 127)] {}).fget (fCAN_ERR_REC 3) ≤ 127
    ∧ 127 < (canS cmNormal [(fCAN_ERR_REC 3, 128)] {}).fget (fCAN_ERR_REC 3) ∧ (canS cmRate [] {}).canMode 3 = cmRate ∧ (canS cmRate [] {}).canOn 3 = true
    ∧ ((canS cmRate [(fCAN_RATE_CFG_CONFIRM 3, 2)] {}).canOf 3).good + 1 < (canS cmRate [(fCAN_RATE_CFG_CONFIRM 3, 2)] {}).fget (fCAN_RATE_CFG_CONFIRM 3)
    ∧ (canS cmRate [(fCAN_RATE_CFG_CONFIRM 3, 1)] {}).fget (fCAN_RATE_CFG_CONFIRM 3) ≤ ((canS cmRate [(fCAN_RATE_CFG_CONFIRM 3, 1)] {}).canOf 3).good + 1 := by
  decide +kernel
/-- TEC at the two sides of 256, in steps of 8. -/
theorem witness_can_errors : 255 < (canTx cmNormal [(fCAN_ERR_TEC 3, 248)] {}).fget (fCAN_ERR_TEC 3) + 8
    ∧ (canTx cmNormal [(fCAN_ERR_TEC 3, 247)] {}).fget (fCAN_ERR_TEC 3) + 8 ≤ 255 ∧ (canTx cmNormal [(fCAN_ERR_TEC 3, 248)] {}).canOn 3 = true
    ∧ (canTx cmNormal [] {}).canMode 3 = cmNormal ∧ (canS cmRate [] {}).fbit (fCAN_TX_STAT_ON_BUS 3) = false
    ∧ (canS cmNormal [(fCAN_STAT_STATE 3, 2)] { recovering := true }).mgt.down = false ∧ ((canS cmNormal [] { recovering := true }).canOf 3).recovering = true
    ∧ (canS cmRate [(fCAN_RATE_CFG_COUNT 3, 8), (fCAN_RATE_STAT_ENTRY 3, 6)] {}).fget (fCAN_RATE_STAT_ENTRY 3) + 1 < 8
    ∧ (canS cmRate [(fCAN_RATE_CFG_COUNT 3, 8), (fCAN_RATE_STAT_ENTRY 3, 7)] {}).fget (fCAN_RATE_CFG_COUNT 3)
        ≤ (canS cmRate [(fCAN_RATE_CFG_COUNT 3, 8), (fCAN_RATE_STAT_ENTRY 3, 7)] {}).fget (fCAN_RATE_STAT_ENTRY 3) + 1 := by decide +kernel

/-- The image in effect; the link up with input 31 high before. -/
def lioS (l : List (Fld × Nat)) : State := op ([(fSYS_MODULE_MODE_CUR, 0), (fLIO_MAP_OUT_EN, 1)] ++ l)
theorem witness_lio_image : (lioS []).lioImageOk = true ∧ (op []).lioImageOk = false ∧ (lioS []).mgt.down = false
    ∧ ({ op [] with lio := { seq := 63, slot := 32 } } : State).lio.slot ≤ 32 ∧ ({ op [] with lio := { seq := 63, slot := 31 } } : State).lio.seq < 64 := by decide +kernel
/-- Frames of the two directions, with the CRC over what stands before it. -/
def downF (h out slot cfg : Nat) : List Byte :=
  let b := leBytes 1 h ++ leBytes 4 out ++ leBytes 1 slot ++ leBytes 3 cfg
  b ++ leBytes 1 (crc8 b)
def upF (inp chg flt : Nat) : List Byte :=
  let b := leBytes 1 0 ++ leBytes 4 inp ++ leBytes 8 chg ++ leBytes 4 flt ++ leBytes 1 200 ++ leBytes 1 15
  b ++ leBytes 1 (crc8 b)
theorem witness_lio_frames : (∀ slot ∈ [0, 31], downOk (downF 127 5 slot 0xC003E8) = true) ∧ downOk (downF 63 5 32 255) = true ∧ downOk (downF 128 5 32 0) = false
    ∧ leAt (downF 127 5 31 0xC003E8) 5 1 < 32 ∧ leAt (downF 63 5 32 255) 5 1 = 32 ∧ (op []).upOk (upF (2 ^ 31) 0 (2 ^ 31)) false = true ∧ (op []).upOk [] false = false
    ∧ (op [(fLIO_STAT_LINK, 1)]).upOk (upF (2 ^ 31) (2 ^ 62) 0) true = true ∧ (op [(fLIO_STAT_LINK, 1)]).fbit fLIO_STAT_LINK = true
    ∧ (op []).fbit (fLIO_PT_CFG_DIR 31) = false ∧ bitOf (leAt (upF (2 ^ 31) (2 ^ 62) 0) 1 4) 31 = true ∧ bitOf ((op []).reg rLIO_IN).toNat 31 = false
    ∧ bitOf (leAt (upF 0 0 0) 1 4) 31 = false ∧ bitOf (((op []).setReg rLIO_IN 0x80000000).reg rLIO_IN).toNat 31 = true := by decide +kernel
theorem witness_lio_field : ({} : LioField).seq < 64 ∧ ({} : LioField).bad < 16 ∧ ({} : LioField).fault < 2 ^ 32
    ∧ (∀ i < 32, SMap.get (fun _ => 0) ({ chg := [(31, 3)] } : LioField).chg i ≤ 3) ∧ bitOf ({ dir := 2 ^ 31 } : LioField).dir 31 = true
    ∧ bitOf ({} : LioField).dir 31 = false ∧ bitOf ({ on := 2 ^ 31 } : LioField).on 31 = true ∧ bitOf ({} : LioField).on 31 = false
    ∧ bitOf ({ fault := 2 ^ 31, on := 2 ^ 31 } : LioField).fault 31 = true
    ∧ (op [(fLIO_STAT_LINK, 1), (fLIO_STAT_SUPPLY, suOk)]).fget fLIO_STAT_SUPPLY ≠ suMissing := by decide +kernel

/-- The panel in a state, a swap requested with the checksum `c`. -/
def pnS (st : Nat) (l : List (Fld × Nat)) (c : Nat) : State :=
  { op ([(fPANEL_STAT_STATE, st), (fPANEL_STAT_SWAP_PEND, 1)] ++ l) with panel := { swap := c } }
theorem backBytes_panel (s : State) (p : PanelSt) : ({ s with panel := p } : State).backBytes = s.backBytes := rfl
theorem frontBytes_setReg (s : State) (o : Nat) (v : Word) : (s.setReg o v).frontBytes = s.frontBytes := rfl
theorem witness_panel_right (st : Nat) : ∃ c, crc32 (pnS st [] c).backBytes = (pnS st [] c).panel.swap :=
  ⟨_, congrArg crc32 (backBytes_panel _ _)⟩
theorem witness_panel_wrong (st : Nat) : ∃ c, crc32 (pnS st [] c).backBytes ≠ (pnS st [] c).panel.swap :=
  ⟨crc32 (op ([(fPANEL_STAT_STATE, st), (fPANEL_STAT_SWAP_PEND, 1)] ++ [])).backBytes + 1,
    fun h => Nat.ne_of_lt (Nat.lt_succ_self _) ((congrArg crc32 (backBytes_panel _ _)).symm.trans h)⟩
theorem witness_panel_swap : (∀ st ∈ [pnOn, pnOff], (pnS st [] 5).fbit fPANEL_STAT_SWAP_PEND = true ∧ (pnS st [] 5).panel.ready = false ∧ (pnS st [] 5).pnState = st)
    ∧ (∀ e ∈ (pnS pnOff [] 5).regs, e.1 % 4 = 0) ∧ (∀ e ∈ (pnS pnOff [] 5).panel.front, e.1 < 2048) ∧ (op []).fbit fPANEL_STAT_SWAP_PEND = false
    ∧ ({ op [] with panel := { ready := true } } : State).panel.ready = true := by decide +kernel
/-- From any state, one whose front buffer has the CRC that FRONT_CRC holds, and one whose front buffer has not. -/
theorem witness_panel_frames (s : State) : ∃ a b : State, crc32 a.frontBytes = (a.reg rPANEL_FRONT_CRC).toNat ∧ crc32 b.frontBytes ≠ (b.reg rPANEL_FRONT_CRC).toNat := by
  refine ⟨s.setReg rPANEL_FRONT_CRC (BitVec.ofNat 32 (crc32 s.frontBytes)),
    s.setReg rPANEL_FRONT_CRC (BitVec.ofNat 32 (crc32 s.frontBytes) + 1), ?_, ?_⟩
  · rw [State.reg_setReg_same, BitVec.toNat_ofNat, Nat.mod_eq_of_lt (crc32_lt _), frontBytes_setReg]
  · rw [State.reg_setReg_same]
    rw [frontBytes_setReg]
    have l := crc32_lt s.frontBytes
    rw [BitVec.toNat_add, BitVec.toNat_ofNat, Nat.mod_eq_of_lt l]
    revert l
    generalize crc32 s.frontBytes = x
    intro l h
    have e : x = (x + 1) % 2 ^ 32 := h
    omega
theorem witness_panel_states : (pnS pnOn [(fPANEL_STAT_SWAP_PEND, 0), (fPANEL_GAMMA_LEVEL 15, 255)] 0).pnState = pnOn ∧ (pnS pnRamp [] 0).pnState = pnRamp
    ∧ ({ pnS pnOn [(fPANEL_GAMMA_LEVEL 15, 255)] 0 with panel := { front := [(0, 15)], drive := 256 } } : State).pnLit = true ∧ (pnS pnFault [] 0).pnState = pnFault
    ∧ (op [(fPANEL_STAT_STATE, pnOn)]).fbit fPANEL_STAT_SWAP_PEND = false ∧ ((op []).setReg rPANEL_IDLE 1).reg rPANEL_IDLE ≠ 0
    ∧ (((op []).setReg rPANEL_IDLE 0).reg rPANEL_IDLE).toNat = 0 ∧ (op []).pnState = pnOff := by decide +kernel

/-! ### Power, the start and management -/

/-- A state with its phase, and clocks good. -/
def ph (n : Nat) (l : List (Fld × Nat)) : State := op ([(fRST_START_PHASE, n), (fRST_CLOCK_TCXO_OK, 1), (fRST_CLOCK_MAIN_OK, 1)] ++ l)
theorem witness_resets : (∀ c ∈ [4, 6, 9], ResetsNow (ph phOperating []) c) ∧ InFlush (ph phFlush []) ∧ InFlush (ph phHeld []) ∧ ¬ InFlush (ph phOperating [])
    ∧ (ph phHeld []).clocksOk = true ∧ (ph phHeld [(fRST_CLOCK_TCXO_OK, 0)]).clocksOk = false
    ∧ (ph phHeld [(fRST_CLOCK_TCXO_OK, 0)]).fbit fRST_CLOCK_MAIN_OK = true ∧ (ph phHeld [(fRST_CLOCK_MAIN_OK, 0)]).fbit fRST_CLOCK_TCXO_OK = true := by
  unfold ResetsNow InFlush; decide +kernel
theorem witness_flush : (ph phFlush []).fget fRST_START_PHASE = phFlush ∧ (ph phFlush []).flush.quiet = false
    ∧ ({ ph phFlush [] with flush := { quiet := true, main := true }, opt := { retain := [(0x2000000, 16)] } } : State).flush.quiet = true
    ∧ ({ ph phFlush [] with flush := { quiet := true, main := true }, opt := { retain := [(0x2000000, 16)] } } : State).opt.retain.isEmpty = false
    ∧ (ph phFlush []).flushFor = none ∧ ({ ph phFlush [] with flush := { quiet := true }, flushFor := some (13, 0) } : State).flushFor = some (13, 0) := by
  decide +kernel
theorem witness_timers : ({ op [(fWDT_STAT_STATE, 1)] with lt := 10000000 } : State).wdtStart + 1000 * ({ op [(fWDT_STAT_STATE, 1)] with lt := 10000000 } : State).opt.wdtPeriod
      ≤ ({ op [(fWDT_STAT_STATE, 1)] with lt := 10000000 } : State).lt.toNat ∧ (op [(fWDT_STAT_STATE, 1)]).fget fWDT_STAT_STATE ≠ 0
    ∧ ({ op [] with mgt := { releasedAt := some 5 }, startOk := true } : State).mgt.releasedAt = some 5
    ∧ 5 + 1000000000 * (op []).opt.startOkS ≤ (60000000005 : BitVec 64).toNat ∧ (op []).mgt.scrubbing = false ∧ (op []).scrubDue = false
    ∧ (op []).mgt.scrubAt + 7776000000000000 ≤ (7776000000000000 : BitVec 64).toNat
    ∧ ({ op [] with mgt := { scrubbing := true } } : State).mgt.scrubbing = true := by decide +kernel
/-- A module about to start, its flash erased. -/
def startS (l : List (Fld × Nat)) : State := put ([(fRST_START_PHASE, phStarting)] ++ l) State.reset
theorem witness_start_may : MayStart (startS []) ∧ (startS []).imgValid 0 = false ∧ (startS []).imgValid 1 = false := by unfold MayStart; decide +kernel
theorem witness_becomes_active : ({ startS [] with rack := { settle := some 0 }, mgt := { startDone := true } } : State).becomesActive = true
    ∧ ({ startS [] with rack := { settle := some 0 }, mgt := { startDone := true } } : State).standby = false := by decide +kernel
theorem witness_release : ({ startS [(fRACK_STAT_ROLE, roleActive)] with mgt := { startDone := true } } : State).active = true
    ∧ ({ startS [(fRACK_STAT_ROLE, roleStandby)] with mgt := { startDone := true, peerTime := true } } : State).standby = true
    ∧ (startS []).fget fRST_START_PHASE = phStarting ∧ ({ op [] with opt := { autoStart := true } } : State).opt.autoStart = true ∧ (op []).opt.warmEn = false
    ∧ (op [(fRST_RETAIN_BUSY, 1)]).fbit fRST_RETAIN_BUSY = true ∧ (op []).fbit fRST_RETAIN_BUSY = false
    ∧ ({ op [(fRST_RETAIN_BUSY, 1)] with opt := { retain := [(0x39FFFF0, 16)] } } : State).opt.retain = [(0x39FFFF0, 16)] := by decide +kernel

/-- Sources 0 and 767 pend for the notice channel 127, whose sender is bound. -/
def noticeS (l : List (Fld × Nat)) : State :=
  { op ([(fMGT_NOTICE_EN, 1), (fMGT_NOTICE_CHANNEL, 127), (fMBX_BIND_EN 127, 1), (fMBX_BIND_SENDER 127, mMgt), (fMBX_BIND_RECEIVER 127, 1)] ++ l) with
    noticePend := [767, 0] }
theorem witness_notice : (noticeS []).mbxSends 127 mMgt = true ∧ (noticeS []).fget fMGT_NOTICE_CHANNEL = 127 ∧ (noticeS []).fbit fMGT_NOTICE_EN = true
    ∧ (noticeS []).mgt.down = false ∧ (noticeS []).noticePend ≠ [] ∧ (noticeS [(fMBX_CH_STAT_GO 127, 1)]).fbit (fMBX_CH_STAT_GO 127) = true
    ∧ (noticeS [(fMBX_BIND_EN 127, 0)]).mbxSends 127 mMgt = false ∧ (noticeS []).fbit (fMBX_CH_STAT_GO 127) = false := by decide +kernel
theorem witness_restart_end : ({ mbxH 1 1 with mgt := { down := true } } : State).mgt.down = true ∧ (op []).mgt.down = false
    ∧ (put [(fMBX_BIND_EN 127, 1), (fMBX_BIND_RECEIVER 127, mMgt), (fMBX_CH_STAT_GO 127, 1)] (op [])).fget (fMBX_BIND_RECEIVER 127) = mMgt
    ∧ (put [(fMBX_BIND_EN 127, 1), (fMBX_BIND_RECEIVER 127, mMgt), (fMBX_CH_STAT_GO 127, 1)] (op [])).fbit (fMBX_CH_STAT_GO 127) = true := by decide +kernel
/-- A critical level with no heat action; the twelfth sensor. -/
theorem witness_sensor : (op []).mgtRuns = true ∧ (op [(fMGT_CTRL_HEAT_ACTION, 0)]).fget fMGT_CTRL_HEAT_ACTION = 0 ∧ ¬ (11 ≤ 1) ∧ (op [(fMGT_SENS_LEVEL_LEVEL 1, 2)]).fget (fMGT_SENS_LEVEL_LEVEL 1) = 2
    ∧ ({ op [] with mgt := { down := true } } : State).mgtRuns = false := by decide +kernel

/-- A record waiting for the cellar book. -/
def recC : CellarRec := { code := 2, src := 0, flags := 0, lt := 0, wallSec := 0, wallEpoch := 0, p0 := 0, p1 := 0, p2 := 0 }
def cellS (n : Nat) (l : List (Fld × Nat)) : State := { op ([(fMGT_CB_STAT_FF_COUNT, n)] ++ l) with cellarQ := [recC] }
theorem witness_cellar : (cellS 1023 []).cellarQ = [recC] ∧ (cellS 1023 []).cb.untold = 0 ∧ (cellS 1023 []).fget fMGT_CB_STAT_FF_COUNT = 1023
    ∧ 1024 ≤ (cellS 1024 []).fget fMGT_CB_STAT_FF_COUNT ∧ (cellS 0 [(fMGT_CB_STAT_FROZEN, 1)]).fbit fMGT_CB_STAT_FROZEN = true ∧ (cellS 0 []).fbit fMGT_CB_STAT_FROZEN = false
    ∧ (cellS 0 []).mgt.down = false ∧ (op []).cellarQ = [] := by decide +kernel
theorem witness_cellar_timers : (cellS 0 [(fMGT_CB_CFG_FREEZE_MAX, 1)]).cb.frozenAt + 1000000000 * (cellS 0 [(fMGT_CB_CFG_FREEZE_MAX, 1)]).fget fMGT_CB_CFG_FREEZE_MAX
      ≤ (1000000000 : BitVec 64).toNat ∧ (cellS 7 []).cb.savedFf ≠ (cellS 7 []).fget fMGT_CB_STAT_FF_COUNT ∧ (op []).cb.saved = (op []).cbHead
    ∧ (op []).cb.savedFf = (op []).fget fMGT_CB_STAT_FF_COUNT := by decide +kernel
/-- An hour of line time after reset, in RUN, with a save every minute: the hour, the scrub, a save and the commit of a record. -/
def hourS : State :=
  { put [(fSYS_MODULE_MODE_CUR, 0), (fCONV_PERSIST_PERIOD, 1), (fMGT_STAT_BOOT, 1)] (cellS 7 []) with lt := 3600000000000, scrubDue := true, mgt := { scrubbing := true } }
theorem witness_hours : hourS.mgtRuns = true ∧ hourS.mainRuns = true ∧ hourS.mgt.lifeAt + 3600000000000 ≤ hourS.lt.toNat ∧ hourS.mgt.scrubbing = true
    ∧ ({ hourS with mgt := {} } : State).mgtRuns = true ∧ hourS.fget fSYS_MODULE_MODE_CUR = 0 ∧ hourS.fget fCONV_PERSIST_PERIOD = 1
    ∧ hourS.calSince + 60000000000 * 1 ≤ hourS.lt.toNat ∧ hourS.fbit fCONV_PERSIST_BUSY = false ∧ hourS.cb.savedFf ≠ hourS.fget fMGT_CB_STAT_FF_COUNT
    ∧ leAt (SMap.get noRec hourS.cb.ring (hourS.cb.saved % ringSize)) 4 8 + 1000000 * hourS.fget fMGT_CB_CFG_PERSIST_MS ≤ hourS.lt.toNat := by decide +kernel

/-- A start set of one register section at 0x1000 of bank A, which writes 5 to STEP_HOST_ARG, and a section that is cut. -/
def setS (kind len comp : Nat) : State :=
  { op [] with
    mgt := { startSet := some (0x1000, 0) }
    flash := [(6, 1), (7, 0), (0x20, 6)] ++ ((leBytes 4 0x1000 ++ leBytes 4 comp).zipIdx.map (fun e => (0x24 + e.2, e.1)))
      ++ ((leBytes 4 kind ++ leBytes 4 0 ++ leBytes 4 len ++ leBytes 4 0 ++ leBytes 4 rSTEP_HOST_ARG ++ leBytes 4 5).zipIdx.map (fun e => (0x1000 + e.2, e.1))) }
theorem witness_start_set : (setS 3 8 24).startSetComp = some (0x1000, 24) ∧ (setS 3 8 24).mgtRuns = true ∧ (setS 3 8 24).mgt.startSet = some (0x1000, 0)
    ∧ (let h := (setS 3 8 24).flashList ((setS 3 8 24).bootBank * bankSize + 0x1000) 16; leAt h 0 1 = 3 ∧ leAt h 2 2 = 0 ∧ leAt h 12 4 = 0 ∧ leAt h 8 4 = 8)
    ∧ 0x1000 + 24 ≤ 0x1000 + 24 ∧ (let d := (setS 3 8 24).flashList ((setS 3 8 24).bootBank * bankSize + 0x1000 + 16) 8; leAt d 0 4 = rSTEP_HOST_ARG ∧ leAt d 4 4 = 5)
    ∧ rSTEP_HOST_ARG ∈ plainRegs ∧ (setS 3 8 24).regGate mMgt rSTEP_HOST_ARG 5 = none ∧ (setS 3 8 24).rackHeld + 50 ≤ 262144
    ∧ (∃ row, regRow? rSTEP_HOST_ARG = some row ∧ ∀ f ∈ row.fields, f.takes (bitsOf 5 f.hi f.lo) = true) := by
  refine ⟨by decide +kernel, by decide +kernel, by decide +kernel, by decide +kernel, by decide +kernel, by decide +kernel, by decide +kernel, by decide +kernel,
    by decide +kernel, ⟨(regRow? rSTEP_HOST_ARG).getD ⟨0, 0, 0, 0, 0, 0, 0, []⟩, by decide +kernel, by decide +kernel⟩⟩
theorem witness_start_set_ends : (op []).mgt.startSet = none ∧ ({ op [] with flash := [(6, 5), (7, 0)] } : State).startSetComp = none ∧ (setS 3 8 0).startSetComp = some (0x1000, 0) ∧ 0x1000 + 0 ≤ 0x1000
    ∧ (setS 3 9 24).startSetComp = some (0x1000, 24)
    ∧ (let h := (setS 3 9 24).flashList ((setS 3 9 24).bootBank * bankSize + 0x1000) 16; 0x1000 + 24 < 0x1000 + 16 + leAt h 8 4) := by decide +kernel

/-! A valid image and the factory option block: the CRCs are folded with the register as a numeral at each byte. -/

/-- The register of the CRC-32 over bytes, a numeral at each. -/
def crcGo : List Byte → Nat → Nat
  | [], c => c
  | b :: l, 0 => crcGo l (crc32Byte 0 b)
  | b :: l, n + 1 => crcGo l (crc32Byte (n + 1) b)
theorem crcGo_eq (l : List Byte) : ∀ c, crcGo l c = l.foldl crc32Byte c := by
  induction l with
  | nil => intro c; rfl
  | cons b l ih => intro c; cases c <;> exact ih _
theorem crc32_go (l : List Byte) : crc32 l = crcGo l 0xFFFFFFFF ^^^ 0xFFFFFFFF := by rw [crcGo_eq]; rfl

/-- An image of 4,096 bytes: five empty components, and erased bytes. -/
def imgHead : List Byte :=
  leBytes 4 0x0D7F0001 ++ leBytes 2 1 ++ leBytes 2 5 ++ leBytes 4 1 ++ leBytes 4 4096 ++ leBytes 4 0x24986E63 ++ leBytes 12 0
    ++ (List.range 5).flatMap (fun i => leBytes 4 (i + 1) ++ leBytes 4 (256 + 16 * i) ++ leBytes 8 0) ++ leBytes 48 0 ++ leBytes 4 0xD177CA88 ++ leBytes 92 0
/-- Bank A holds it; a start may run. -/
def bootS : State := { startS [] with flash := (imgHead.zipIdx.map (fun e => (e.2, e.1))).filter (fun (e : Nat × Byte) => decide (e.2 ≠ 0xFF)) }
theorem get_above {d : Nat → Byte} (k : Nat) : ∀ m : SMap Byte, (∀ e ∈ m, e.1 < k) → SMap.get d m k = d k
  | [], _ => rfl
  | (k', v) :: m, h => by
    have h1 : k ≠ k' := Nat.ne_of_gt (h (k', v) (List.mem_cons_self ..))
    show (if k = k' then v else SMap.get d m k) = d k
    rw [if_neg h1]
    exact get_above k m (fun e he => h e (List.mem_cons_of_mem _ he))
theorem boot_erased : bootS.flashList (0 * bankSize + 256) 3840 = List.replicate 3840 0xFF := by
  have hm : ∀ e ∈ bootS.flash, e.1 < 256 := by decide +kernel
  rw [List.eq_replicate_iff]
  refine ⟨by unfold State.flashList; rw [List.length_map, List.length_range], fun b hb => ?_⟩
  obtain ⟨i, _, rfl⟩ := List.mem_map.1 hb
  exact get_above _ _ (fun e he => Nat.lt_of_lt_of_le (hm e he) (by omega))
theorem boot_data : crc32 (List.replicate 3840 (0xFF : Byte)) = 0x24986E63 := by rw [crc32_go]; decide +kernel
theorem boot_head : imgHeaderOk (bootS.imgHeader 0) = true ∧ leAt (bootS.imgHeader 0) 0x0C 4 = 4096 ∧ leAt (bootS.imgHeader 0) 0x10 4 = 0x24986E63 := by
  decide +kernel
theorem boot_valid : bootS.imgValid 0 = true := by
  unfold State.imgValid
  simp only [boot_head.1, boot_head.2.1, boot_head.2.2, Bool.true_and, decide_eq_true_eq]
  rw [show 4096 - 256 = 3840 from rfl, boot_erased, boot_data]
theorem witness_option_valid : optValid (bootS.optCopy 0) = true := by
  have h : crc32 ((bootS.optCopy 0).take 0x7FC) = 0x421121BB := by rw [crc32_go]; decide +kernel
  unfold optValid
  rw [h]
  decide +kernel
theorem witness_boot : MayStart bootS ∧ bootS.boot.trial = none ∧ bootS.boot.confirmed = 0 ∧ bootS.recReq = false ∧ bootS.fget fRST_START_FAIL_COUNT = 0 := by
  unfold MayStart; decide +kernel
theorem witness_boots : Boots bootS := ⟨witness_boot.2.1, by rw [witness_boot.2.2.1]; exact boot_valid⟩

end Sys2Proof.Tests
end

section
/-! Conditional and reduction branches (spec/04_judin_model.md R130, R131; spec/05_judin_reference.md R178, R179). -/

namespace Sys2Proof.Machine

open Sys2Proof.Safety

/-! ### What follows the read of an instruction's words -/

/-- The read of the words leaves every context alone. -/
theorem cx_of_fetches {c : Cx} {s u : State} (h : Fetches c s u) (d : Cx) : u.cx d = s.cx d := by
  unfold State.cx
  rw [h.1]

theorem fetches_trans {c : Cx} {s t u : State} (h : Fetches c s t) (k : Fetches c t u) : Fetches c s u := by
  obtain ⟨h1, h2, h3⟩ := h
  obtain ⟨k1, k2, k3⟩ := k
  refine ⟨corr_trans h1 k1, fun o ho => (k2 o ho).trans (h2 o ho), fun clean => ?_⟩
  have e := h3 clean
  subst e
  exact k3 clean

/-- The registers of pairs and of exception causes lie above those that a corrected error changes. -/
theorem not_mem_corrRegs {o : Nat} (h : 0x100000 ≤ o) : o ∉ corrRegs := by
  simp only [corrRegs, rSYS_INTEG_CORR, rSYS_ERR_STAT, rEVT_CNT_MERGE, rEVT_STAT, rEVT_SRC_CNT, List.mem_cons, List.not_mem_nil,
    or_false, not_or]
  omega

theorem cxPage_ge (c : Cx) : 0x100000 ≤ cxPage c := by
  cases c with
  | press k => simp only [cxPage, pressPage]; split <;> omega
  | scalar j => simp only [cxPage, scalarPage]; omega

theorem cmnFld_off_ge (c : Cx) (cause : Nat) : 0x100000 ≤ (cmnFld c cause).off := by
  cases c <;> simp only [cmnFld, rPRESS_CMN_EXC, rSCALAR_CMN_EXC] <;> omega

theorem fget_of_fetches {c : Cx} {s u : State} (h : Fetches c s u) {f : Fld} (hf : 0x100000 ≤ f.off) : u.fget f = s.fget f := by
  unfold State.fget
  rw [h.2.1 _ (not_mem_corrRegs hf)]

/-- An exception entered behind the read of the instruction's words is one entered by the instruction. -/
theorem enters_of_fetches {c : Cx} {cause addr bar : Nat} {lanes : BitVec 256} {excPc ret : BitVec 16} {s u t : State}
    (h : Fetches c s u) (k : Enters c cause addr bar lanes excPc ret u t) : Enters c cause addr bar lanes excPc ret s t := by
  obtain ⟨hctx, hcause, hpart, hpc, hstat, hcount, hcmn, v, hfetch, hrest⟩ := k
  have hcmn' : t.fget (cmnFld c cause) = min (u.fget (cmnFld c cause) + 1) 0xFFFFFFFF := hcmn
  rw [cx_of_fetches h] at hctx hpart
  rw [fget_of_fetches h (Nat.le_add_right_of_le (cxPage_ge c))] at hcount
  rw [fget_of_fetches h (cmnFld_off_ge c cause)] at hcmn'
  exact ⟨hctx, hcause, hpart, hpc, hstat, hcount, hcmn', v, fetches_trans h hfetch, hrest⟩

/-- An exception of the instruction at PC: its whole effect, where the push can be made (R151, R152). -/
theorem State.excHere_fetched_spec (s : State) (c : Cx) (t : Trap) (h : CanPush c s) (hc : t.cause < 16) :
    Enters c t.cause t.addr t.bar t.lanes (s.cx c).pc (s.cx c).pc s ((s.fetched c).excHere c t) := by
  have push : CanPush c (s.fetched c) := by
    unfold CanPush at h ⊢
    rwa [State.fetched_cx]
  unfold State.excHere
  rw [State.fetched_cx]
  exact enters_of_fetches (State.fetched_spec s c) (State.takeExc_spec _ c t _ _ push hc)

/-! ### Where a branch goes (R178, R179) -/

theorem State.branchTo_taken_spec (s : State) (c : Cx) (len : Nat) (t : BitVec 16) :
    Goto c t 2 s ((s.fetched c).branchTo c len true t) := by
  have k := State.clocks_spec ((s.fetched c).setCx c { s.cx c with pc := t }) c 2 0
  rw [State.cx_setCx_same] at k
  simp only [State.branchTo, State.fetched_cx, if_true]
  exact ⟨k.1, onlyCx_fetched (onlyCtx_trans (onlyCtx_setCx _ c _) k.2)⟩

theorem State.branchTo_notTaken_spec (s : State) (c : Cx) (len : Nat) (t : BitVec 16) :
    Goto c ((s.cx c).pc + BitVec.ofNat 16 len) 1 s ((s.fetched c).branchTo c len false t) := by
  have k := State.advance_spec (s.fetched c) c len 1 0
  rw [State.fetched_cx] at k
  exact ⟨k.1, onlyCx_fetched k.2⟩

end Sys2Proof.Machine

namespace Sys2Proof.Claims

open Sys2Proof.Machine Sys2Proof.Safety

theorem ctx_live_eq (x : Ctx) : x.live = live x := rfl

/-! ### Conditional branches (R130) -/

/-- The enabled lanes in which a condition holds. -/
def lanesWhere (cc : CC) (x : Ctx) : List (Nat × Lane) := (live x).filter (fun e => ccHolds cc e.2.f)

theorem length_lanesWhere_eq_iff (cc : CC) (x : Ctx) :
    (lanesWhere cc x).length = (live x).length ↔ ∀ e ∈ live x, ccHolds cc e.2.f = true :=
  List.length_filter_eq_length_iff

section
variable {s : State} {c : Cx} {cc : CC} (len : Nat) (t : BitVec 16)

theorem condBranch_eq (h : s.issues c = true) :
    s.condBranch c cc len t =
      if (lanesWhere cc (s.cx c)).isEmpty then (s.fetched c).branchTo c len false t
      else if (lanesWhere cc (s.cx c)).length = (live (s.cx c)).length then (s.fetched c).branchTo c len true t
      else (s.fetched c).excHere c ⟨cIllegal, laneSet ((lanesWhere cc (s.cx c)).map (fun e => e.1)), 0, 0⟩ := if_pos h

theorem condBranch_of_none (h : s.issues c = true) (hnone : lanesWhere cc (s.cx c) = []) :
    s.condBranch c cc len t = (s.fetched c).branchTo c len false t := by
  rw [condBranch_eq len t h, if_pos (List.isEmpty_iff.2 hnone)]

theorem condBranch_of_all (h : s.issues c = true) (hsome : lanesWhere cc (s.cx c) ≠ [])
    (hall : ∀ e ∈ live (s.cx c), ccHolds cc e.2.f = true) :
    s.condBranch c cc len t = (s.fetched c).branchTo c len true t := by
  rw [condBranch_eq len t h, if_neg (mt List.isEmpty_iff.1 hsome), if_pos ((length_lanesWhere_eq_iff cc _).2 hall)]

theorem condBranch_of_mixed (h : s.issues c = true) (hsome : lanesWhere cc (s.cx c) ≠ [])
    (hother : ∃ e ∈ live (s.cx c), ccHolds cc e.2.f = false) :
    s.condBranch c cc len t
      = (s.fetched c).excHere c ⟨cIllegal, laneSet ((lanesWhere cc (s.cx c)).map (fun e => e.1)), 0, 0⟩ := by
  have notAll : ¬ ∀ e ∈ live (s.cx c), ccHolds cc e.2.f = true := by simpa using hother
  rw [condBranch_eq len t h, if_neg (mt List.isEmpty_iff.1 hsome), if_neg (mt (length_lanesWhere_eq_iff cc _).1 notAll)]

end

/-- An instruction that executes as `State.condBranch` is a conditional branch. -/
theorem condBranch_of_exec {i : Cx → State → Instr} {cc : CC} {len : Nat} {t : Cx → State → BitVec 16}
    (h : ∀ c s, exec (i c s) s = .next (s.condBranch c cc len (t c s))) : condBranch i cc len t := by
  refine fun c s issues => ⟨fun hnone => ⟨_, h c s, ?_⟩, fun hsome hall => ⟨_, h c s, ?_⟩, fun hsome hother push => ⟨_, h c s, ?_⟩⟩
  · rw [condBranch_of_none len _ issues hnone]
    exact State.branchTo_notTaken_spec s c len _
  · rw [condBranch_of_all len _ issues hsome hall]
    exact State.branchTo_taken_spec s c len _
  · rw [condBranch_of_mixed len _ issues hsome hother]
    exact State.excHere_fetched_spec s c _ push (by decide : cIllegal < 16)

/-! ### Reduction branches (R131) -/

theorem reduced_any_iff (x : Ctx) : x.reduced .any = true ↔ anyL (live x) := List.any_eq_true

theorem reduced_all_iff (x : Ctx) : x.reduced .all = true ↔ allL (live x) := by
  simp [Ctx.reduced, ctx_live_eq, allL, List.all_eq_true]

theorem reduced_none_iff (x : Ctx) : x.reduced .none = true ↔ ¬ anyL (live x) := by
  rw [← reduced_any_iff, Ctx.reduced, Ctx.reduced, Bool.not_eq_true', Bool.not_eq_true]

/-- An instruction that executes as `State.redBranch` of a kind that tests `p` is a reduction branch on `p`. -/
theorem redBranch_of_exec {i : Cx → Instr} {k : Reduction} {len : Nat} {t : Cx → State → BitVec 16} {p : List (Nat × Lane) → Prop}
    (test : ∀ x : Ctx, x.reduced k = true ↔ p (live x))
    (h : ∀ c s, exec (i c) s = .next (s.redBranch c k len (t c s))) : redBranch i len t p := by
  refine fun c s issues => ⟨fun holds => ⟨_, h c s, ?_⟩, fun fails => ⟨_, h c s, ?_⟩⟩
  · rw [State.redBranch, if_pos issues, (test _).2 holds]
    exact State.branchTo_taken_spec s c len _
  · rw [State.redBranch, if_pos issues, Bool.eq_false_iff.2 (fun e => fails ((test _).1 e))]
    exact State.branchTo_notTaken_spec s c len _

/-- Settles O8: the three outcomes of `State.condBranch`, for BR and for BRL. -/
theorem conditionalBranches : Obligations.ConditionalBranches :=
  ⟨fun _ _ => condBranch_of_exec fun _ _ => rfl, fun _ _ => condBranch_of_exec fun _ _ => rfl⟩

/-- Settles O9: each of the six instructions is `State.redBranch` of the kind that tests its predicate. -/
theorem reductionBranches : Obligations.ReductionBranches :=
  ⟨fun _ => ⟨redBranch_of_exec reduced_any_iff fun _ _ => rfl, redBranch_of_exec reduced_all_iff fun _ _ => rfl,
      redBranch_of_exec reduced_none_iff fun _ _ => rfl⟩,
    fun _ => ⟨redBranch_of_exec reduced_any_iff fun _ _ => rfl, redBranch_of_exec reduced_all_iff fun _ _ => rfl,
      redBranch_of_exec reduced_none_iff fun _ _ => rfl⟩⟩

end Sys2Proof.Claims
end

section
/-! Jumps and calls (spec/04_judin_model.md R145, R146; spec/05_judin_reference.md R178 … R180). -/

namespace Sys2Proof.Machine

open Sys2Proof.Safety

/-- A branch taken with no read before it: the context goes on at the target, and nothing else changes. -/
theorem State.branchTo_taken_only (s : State) (c : Cx) (len : Nat) (t : BitVec 16) :
    (s.branchTo c len true t).cx c = { s.cx c with pc := t, clkUsed := (s.cx c).clkUsed + 2 }
      ∧ OnlyCtx c s (s.branchTo c len true t) := by
  have k := State.clocks_spec (s.setCx c { s.cx c with pc := t }) c 2 0
  rw [State.cx_setCx_same] at k
  exact ⟨k.1, onlyCtx_trans (onlyCtx_setCx s c _) k.2⟩

/-- RSTACK behind the read of the instruction's words (R146, R152). -/
theorem State.rstack_fetched_spec (s : State) (c : Cx) (push : CanPush c s) :
    Enters c cRstack 0 0 (s.cx c).enabledSet (s.cx c).pc (s.cx c).pc s ((s.fetched c).rstack c) := by
  unfold State.rstack
  rw [State.fetched_cx]
  exact State.excHere_fetched_spec s c ⟨cRstack, (s.cx c).enabledSet, 0, 0⟩ push (by decide : cRstack < 16)

/-- ILLEGAL of diverging lanes behind the read of the instruction's words (R180, R152). -/
theorem State.diverged_fetched_spec (s : State) (c : Cx) (r : R16) (push : CanPush c s) :
    Enters c cIllegal 0 0 (laneSet ((s.cx c).differ r)) (s.cx c).pc (s.cx c).pc s ((s.fetched c).diverged c r) := by
  unfold State.diverged
  rw [State.fetched_cx]
  exact State.excHere_fetched_spec s c ⟨cIllegal, laneSet ((s.cx c).differ r), 0, 0⟩ push (by decide : cIllegal < 16)

theorem canPush_fetched {c : Cx} {s : State} (push : CanPush c s) : CanPush c (s.fetched c) := by
  unfold CanPush at push ⊢
  rwa [State.fetched_cx]

/-! ### Which branch of `State.callTo` a call takes (R145, R146) -/

theorem State.callTo_of_room (s : State) (c : Cx) (len : Nat) (t : BitVec 16) (push : CanPush c s) (room : (s.cx c).rsp ≠ 63) :
    s.callTo c len t
      = (s.setCx c (pushed (s.cx c) ((s.cx c).entry ((s.cx c).pc + BitVec.ofNat 16 len) false))).branchTo c len true t := by
  obtain ⟨parity, notFull⟩ := push
  have notRstack : ¬ ((s.cx c).rsFull || decide ((s.cx c).rsp = 63)) = true := by simpa [notFull] using room
  simp only [State.callTo, parity, Bool.not_true, Bool.false_eq_true, if_false, if_neg notRstack, Ctx.push_ok _ _ notFull]

theorem State.callTo_of_full (s : State) (c : Cx) (len : Nat) (t : BitVec 16) (push : CanPush c s) (full : (s.cx c).rsp = 63) :
    s.callTo c len t = s.rstack c := by
  obtain ⟨parity, -⟩ := push
  have isRstack : ((s.cx c).rsFull || decide ((s.cx c).rsp = 63)) = true := by simp [full]
  simp only [State.callTo, parity, Bool.not_true, Bool.false_eq_true, if_false, if_pos isRstack]

theorem State.callTo_fetched_rstack (s : State) (c : Cx) (len : Nat) (t : BitVec 16) (push : CanPush c s) (full : (s.cx c).rsp = 63) :
    Enters c cRstack 0 0 (s.cx c).enabledSet (s.cx c).pc (s.cx c).pc s ((s.fetched c).callTo c len t) := by
  rw [State.callTo_of_full _ c len t (canPush_fetched push) (by rwa [State.fetched_cx])]
  exact State.rstack_fetched_spec s c push

end Sys2Proof.Machine

namespace Sys2Proof.Claims

open Sys2Proof.Machine Sys2Proof.Safety

/-- A call with room on the return stack, behind the read of the instruction's words (R146). -/
theorem callTo_fetched_calls (s : State) (c : Cx) (len : Nat) (t : BitVec 16) (push : CanPush c s) (room : (s.cx c).rsp ≠ 63) :
    Calls c len t s ((s.fetched c).callTo c len t) := by
  rw [State.callTo_of_room _ c len t (canPush_fetched push) (by rwa [State.fetched_cx]), State.fetched_cx]
  obtain ⟨ctx, only⟩ := State.branchTo_taken_only
    ((s.fetched c).setCx c (pushed (s.cx c) ((s.cx c).entry ((s.cx c).pc + BitVec.ofNat 16 len) false))) c len t
  rw [State.cx_setCx_same] at ctx
  exact ⟨ctx, onlyCx_fetched (onlyCtx_trans (onlyCtx_setCx _ c _) only)⟩

/-! ### The lanes' agreement on a target register (R180) -/

theorem differ_isEmpty_iff (x : Ctx) (r : R16) : (x.differ r).isEmpty = true ↔ agree x r := by
  simp [Ctx.differ, ctx_live_eq, agree, List.filter_eq_nil_iff]

section
variable {s : State} {c : Cx} {r : R16}

theorem jumpTo_eq (issues : s.issues c = true) (t : BitVec 16) : s.jumpTo c t = (s.fetched c).branchTo c 1 true t := if_pos issues

theorem jmpx_of_agree (issues : s.issues c = true) (same : agree (s.cx c) r) :
    s.jmpx c r = (s.fetched c).branchTo c 1 true ((s.cx c).lead.r16 r) := by
  rw [State.jmpx, if_pos issues, if_pos ((differ_isEmpty_iff _ r).2 same)]

theorem jmpx_of_differ (issues : s.issues c = true) (apart : ¬ agree (s.cx c) r) : s.jmpx c r = (s.fetched c).diverged c r := by
  rw [State.jmpx, if_pos issues, if_neg (mt (differ_isEmpty_iff _ r).1 apart)]

theorem callx_of_agree (issues : s.issues c = true) (push : CanPush c s) (same : agree (s.cx c) r) :
    s.callx c r = (s.fetched c).callTo c 1 ((s.cx c).lead.r16 r) := by
  rw [State.callx, if_pos issues, if_neg (by simp [push.1]), if_pos ((differ_isEmpty_iff _ r).2 same)]

theorem callx_of_differ (issues : s.issues c = true) (push : CanPush c s) (apart : ¬ agree (s.cx c) r) :
    s.callx c r = (s.fetched c).diverged c r := by
  rw [State.callx, if_pos issues, if_neg (by simp [push.1]), if_neg (mt (differ_isEmpty_iff _ r).1 apart)]

theorem exec_jCall (issues : s.issues c = true) (t : BitVec 16) :
    exec (.jCall c t) s = .next ((s.fetched c).callTo c 2 t) := congrArg Host.Outcome.next (if_pos issues)

end

/-! ### No enabled lane (R180) -/

theorem lowestLane_zero : lowestLane 0 = 0 := by
  have noBit : (List.range 256).find? (fun i => (0 : BitVec 256).getLsbD i) = none :=
    List.find?_eq_none.2 fun i _ => by simp
  rw [lowestLane, noBit, Option.getD_none]

theorem live_of_noLane {x : Ctx} (noLane : x.lm = 0) : live x = [] := by
  simp [live, Ctx.acting, Ctx.enabled, noLane]

theorem lead_of_noLane {x : Ctx} (noLane : x.lm = 0) : x.lead = x.lanes.headD {} := by
  have empty : x.enabledSet = 0 := by simp [Ctx.enabledSet, noLane]
  have lowest : x.leadLane = 0 := by rw [Ctx.leadLane, empty, lowestLane_zero]
  rw [Ctx.lead, lowest, List.drop_zero]

theorem agree_of_noLane {x : Ctx} (noLane : x.lm = 0) (r : R16) : agree x r := by
  simp [agree, live_of_noLane noLane]

/-! ### The five instructions -/

section
variable {s : State} {c : Cx} (issues : s.issues c = true)
include issues

theorem jJmps_done (d : BitVec 10) : Done (.jJmps c d) s (Goto c (rel d c s) 2) :=
  ⟨_, rfl, jumpTo_eq issues _ ▸ State.branchTo_taken_spec s c 1 _⟩

theorem jJmp_done (t : BitVec 16) : Done (.jJmp c t) s (Goto c t 2) :=
  ⟨_, rfl, jumpTo_eq issues t ▸ State.branchTo_taken_spec s c 1 t⟩

theorem jJmpx_goes {r : R16} (same : agree (s.cx c) r) : Done (.jJmpx c r) s (Goto c ((s.cx c).lead.r16 r) 2) :=
  ⟨_, rfl, jmpx_of_agree issues same ▸ State.branchTo_taken_spec s c 1 _⟩

theorem jJmpx_illegal {r : R16} (apart : ¬ agree (s.cx c) r) (push : CanPush c s) :
    Done (.jJmpx c r) s (Enters c cIllegal 0 0 (laneSet ((s.cx c).differ r)) (s.cx c).pc (s.cx c).pc) :=
  ⟨_, rfl, jmpx_of_differ issues apart ▸ State.diverged_fetched_spec s c r push⟩

theorem jCallx_illegal {r : R16} (apart : ¬ agree (s.cx c) r) (push : CanPush c s) :
    Done (.jCallx c r) s (Enters c cIllegal 0 0 (laneSet ((s.cx c).differ r)) (s.cx c).pc (s.cx c).pc) :=
  ⟨_, rfl, callx_of_differ issues push apart ▸ State.diverged_fetched_spec s c r push⟩

theorem jCall_calls (push : CanPush c s) (room : (s.cx c).rsp ≠ 63) (t : BitVec 16) : Done (.jCall c t) s (Calls c 2 t) :=
  ⟨_, exec_jCall issues t, callTo_fetched_calls s c 2 t push room⟩

theorem jCallx_calls (push : CanPush c s) (room : (s.cx c).rsp ≠ 63) {r : R16} (same : agree (s.cx c) r) :
    Done (.jCallx c r) s (Calls c 1 ((s.cx c).lead.r16 r)) :=
  ⟨_, rfl, callx_of_agree issues push same ▸ callTo_fetched_calls s c 1 _ push room⟩

theorem jCall_rstack (push : CanPush c s) (full : (s.cx c).rsp = 63) (t : BitVec 16) :
    Done (.jCall c t) s (Enters c cRstack 0 0 (s.cx c).enabledSet (s.cx c).pc (s.cx c).pc) :=
  ⟨_, exec_jCall issues t, State.callTo_fetched_rstack s c 2 t push full⟩

theorem jCallx_rstack (push : CanPush c s) (full : (s.cx c).rsp = 63) {r : R16} (same : agree (s.cx c) r) :
    Done (.jCallx c r) s (Enters c cRstack 0 0 (s.cx c).enabledSet (s.cx c).pc (s.cx c).pc) :=
  ⟨_, rfl, callx_of_agree issues push same ▸ State.callTo_fetched_rstack s c 1 _ push full⟩

end

/-- Settles O10: each clause is the spec of one instruction in one case. -/
theorem jumpsAndCalls : Obligations.JumpsAndCalls :=
  fun _ _ issues => ⟨jJmps_done issues, jJmp_done issues, fun _ same => jJmpx_goes issues same,
    fun _ apart push => ⟨jJmpx_illegal issues apart push, jCallx_illegal issues apart push⟩,
    fun push room => ⟨jCall_calls issues push room, fun _ same => jCallx_calls issues push room same⟩,
    fun push full => ⟨jCall_rstack issues push full, fun _ same => jCallx_rstack issues push full same⟩,
    fun noLane r => ⟨agree_of_noLane noLane r, lead_of_noLane noLane⟩⟩

end Sys2Proof.Claims
end
